-- ==== Sys2Proof/Word.lean ====
section
/-! DEFINITION. The words of the model: bytes, 64-bit engine registers and tables of numbered units. -/
namespace Sys2Proof

/-- One byte of memory, of a record or of a frame (00 R6). -/
abbrev Byte := BitVec 8

/-- A working register of the Keore engine (15 R387). -/
abbrev W64 := BitVec 64

/-- A table of numbered units: pairs of number and content, numbers strictly rising.
A unit that is not listed has the content its own default names. -/
abbrev Tab (α : Type) := List (Nat × α)

end Sys2Proof
end

