-- ==== Sys2Proof/Syntax.lean ====
section
/-! DEFINITION. The commands of the block: one constructor for each row of the opcode table. -/
namespace Sys2Proof

/-- The header of a Halyard command as it reaches its unit: the ring it came from (and so its tag, 04 R80),
CTAG and EPOCH (04 R89) and FLAGS.IRQ (04 R90). -/
structure Hdr where
  ring : Nat := 0
  ctag : Nat := 0
  irq : Bool := false
  epoch : Nat := 0
deriving DecidableEq, Repr

/-- A CAN frame or a LIN response (12 R298, R308): FMT (0 classical, 1 FD, 2 XL), identifier with bit 31 for extended,
data field, the 8 XL control bytes, BRS, ESI and the remote flag. -/
structure CanFrame where
  fmt : Nat := 0
  id : Nat := 0
  data : List Byte := []
  xl : List Byte := List.replicate 8 0
  brs : Bool := false
  esi : Bool := false
  rtr : Bool := false
deriving DecidableEq, Repr

/-- One ACF message of an AVTPDU (14 R362): type (0 ACF CAN, 1 ACF CAN Brief, 2 ACF LIN, 3 any other), bus ID, the frame it
carries, mtv and message_timestamp. -/
structure Acf where
  typ : Nat := 0
  bus : Nat := 0
  frame : CanFrame := {}
  mtv : Bool := false
  time : Nat := 0
deriving DecidableEq, Repr

/-- One setting that the payload of a boot configuration record spells (03 R67), with its unit: kind 0 a CAN controller record, 1 a CAN
controller's mode, 2 a LIN controller record, 3 a frame bridge route, 4 a wake-list entry, 5 a port record, 6 a scheduler entry to arm,
7 a CAN segment that stays asleep, 8 a transceiver state, 9 the LPDDR5 data rate in MT/s, 10 the frequency of an xSPI interface in 8D-8D-8D,
in 0.5 MHz. -/
structure BcrItem where
  kind : Nat := 0
  unit : Nat := 0
  data : List Byte := []
deriving DecidableEq, Repr

/-- One command: an operation or event of the part, each whole and indivisible (95). -/
inductive Instr where
  /-- R391. The instruction does nothing. -/
  | kNop
  /-- R391. A bit is loaded into Wd. -/
  | kLdb (d : Nat) (base : Nat) (byte : Nat) (bit : Nat)
  /-- R391. Wd[0] is stored to a bit. -/
  | kStb (d : Nat) (base : Nat) (byte : Nat) (bit : Nat)
  /-- R391. The bit is set when Wd[0] is 1. -/
  | kSetb (d : Nat) (base : Nat) (byte : Nat) (bit : Nat)
  /-- R391. The bit is reset when Wd[0] is 1. -/
  | kRstb (d : Nat) (base : Nat) (byte : Nat) (bit : Nat)
  /-- R391. Wd is Wd[0] AND the bit. -/
  | kAndb (d : Nat) (base : Nat) (byte : Nat) (bit : Nat)
  /-- R391. Wd is Wd[0] OR the bit. -/
  | kOrb (d : Nat) (base : Nat) (byte : Nat) (bit : Nat)
  /-- R391. Wd is Wd[0] XOR the bit. -/
  | kXorb (d : Nat) (base : Nat) (byte : Nat) (bit : Nat)
  /-- R391. Wd is Wd[0] AND NOT the bit. -/
  | kAndnb (d : Nat) (base : Nat) (byte : Nat) (bit : Nat)
  /-- R391. A value of type t is loaded from base plus offset. -/
  | kLd (d : Nat) (base : Nat) (off : Nat) (t : Nat)
  /-- R391. A value of type t is stored to base plus offset. -/
  | kSt (d : Nat) (base : Nat) (off : Nat) (t : Nat)
  /-- R391. A value of type t is loaded with an index. -/
  | kLdx (d : Nat) (base : Nat) (x : Nat) (off : Nat) (t : Nat)
  /-- R391. A value of type t is stored with an index. -/
  | kStx (d : Nat) (base : Nat) (x : Nat) (off : Nat) (t : Nat)
  /-- R391. Wd receives base plus offset. -/
  | kLea (d : Nat) (base : Nat) (off : Nat)
  /-- R392. Wa and Wb are added. -/
  | kAdd (d : Nat) (a : Nat) (b : Nat) (t : Nat)
  /-- R392. Wb is subtracted from Wa. -/
  | kSub (d : Nat) (a : Nat) (b : Nat) (t : Nat)
  /-- R392. Wa and Wb are multiplied. -/
  | kMul (d : Nat) (a : Nat) (b : Nat) (t : Nat)
  /-- R392. Wa is divided by Wb, with division by zero giving 0. -/
  | kDiv (d : Nat) (a : Nat) (b : Nat) (t : Nat)
  /-- R392. Wd is Wa modulo Wb, with the sign of Wa. -/
  | kMod (d : Nat) (a : Nat) (b : Nat) (t : Nat)
  /-- R391. Wd is the smaller of Wa and Wb. -/
  | kMin (d : Nat) (a : Nat) (b : Nat) (t : Nat)
  /-- R391. Wd is the larger of Wa and Wb. -/
  | kMax (d : Nat) (a : Nat) (b : Nat) (t : Nat)
  /-- R391. Wd is the negation of Wa. -/
  | kNeg (d : Nat) (a : Nat) (t : Nat)
  /-- R391. Wd is the absolute value of Wa. -/
  | kAbs (d : Nat) (a : Nat) (t : Nat)
  /-- R391. Wd is the bitwise AND of Wa and Wb. -/
  | kAnd (d : Nat) (a : Nat) (b : Nat) (t : Nat)
  /-- R391. Wd is the bitwise OR of Wa and Wb. -/
  | kOr (d : Nat) (a : Nat) (b : Nat) (t : Nat)
  /-- R391. Wd is the bitwise XOR of Wa and Wb. -/
  | kXor (d : Nat) (a : Nat) (b : Nat) (t : Nat)
  /-- R391. Wd is the bitwise NOT of Wa. -/
  | kNot (d : Nat) (a : Nat) (t : Nat)
  /-- R391. Wa is shifted left. -/
  | kShl (d : Nat) (a : Nat) (b : Nat) (t : Nat)
  /-- R391. Wa is shifted right. -/
  | kShr (d : Nat) (a : Nat) (b : Nat) (t : Nat)
  /-- R391. Wa is rotated left within its width. -/
  | kRol (d : Nat) (a : Nat) (b : Nat) (t : Nat)
  /-- R391. Wa is rotated right within its width. -/
  | kRor (d : Nat) (a : Nat) (b : Nat) (t : Nat)
  /-- R391. Wd is 1 when Wa equals Wb. -/
  | kCeq (d : Nat) (a : Nat) (b : Nat) (t : Nat)
  /-- R391. Wd is 1 when Wa differs from Wb. -/
  | kCne (d : Nat) (a : Nat) (b : Nat) (t : Nat)
  /-- R391. Wd is 1 when Wa is less than Wb. -/
  | kClt (d : Nat) (a : Nat) (b : Nat) (t : Nat)
  /-- R391. Wd is 1 when Wa is at most Wb. -/
  | kCle (d : Nat) (a : Nat) (b : Nat) (t : Nat)
  /-- R391. Wd is 1 when Wa is greater than Wb. -/
  | kCgt (d : Nat) (a : Nat) (b : Nat) (t : Nat)
  /-- R391. Wd is 1 when Wa is at least Wb. -/
  | kCge (d : Nat) (a : Nat) (b : Nat) (t : Nat)
  /-- R391. Wd is Wb when Wd[0] is 1, and Wa otherwise. -/
  | kSel (d : Nat) (a : Nat) (b : Nat) (t : Nat)
  /-- R392. Wa is converted from one type to another. -/
  | kCvt (d : Nat) (a : Nat) (f : Nat) (t : Nat)
  /-- R391. Wd is the REAL32 square root of Wa. -/
  | kSqrt (d : Nat) (a : Nat) (t : Nat)
  /-- R392. A REAL32 value is converted to an integer, rounding towards zero. -/
  | kTrunc (d : Nat) (a : Nat) (t : Nat)
  /-- R391. Wa is copied to Wd. -/
  | kMov (d : Nat) (a : Nat) (t : Nat)
  /-- R391. Wd receives the sign-extended immediate. -/
  | kLdi (d : Nat) (imm : Nat)
  /-- R391. The upper bits of Wd are set from the immediate. -/
  | kLui (d : Nat) (imm : Nat)
  /-- R391. The sign-extended immediate is added to Wd. -/
  | kAddi (d : Nat) (imm : Nat)
  /-- R391. A bit field of Wa is extracted into Wd. -/
  | kBfx (d : Nat) (a : Nat) (pos : Nat) (len : Nat)
  /-- R391. A bit field of Wd is replaced from Wa. -/
  | kBfi (d : Nat) (a : Nat) (pos : Nat) (len : Nat)
  /-- R391. Execution jumps unconditionally. -/
  | kJmp (disp : Nat)
  /-- R391. Execution jumps when Wc[0] is 1. -/
  | kJt (c : Nat) (disp : Nat)
  /-- R391. Execution jumps when Wc[0] is 0. -/
  | kJf (c : Nat) (disp : Nat)
  /-- R391. The return index and IB are pushed, and execution jumps. -/
  | kCall (c : Nat) (disp : Nat)
  /-- R391. The return index and IB are popped. -/
  | kRet
  /-- R391. Wd receives the task's release instant. -/
  | kNow (d : Nat)
  /-- R391. Wd receives device time now. -/
  | kNowr (d : Nat)
  /-- R376. The task ends, and its output phase and retained handover run. -/
  | kEnd
  /-- R393. The on-delay timer block executes. -/
  | kTon (g : Nat) (base : Nat) (off : Nat)
  /-- R393. The off-delay timer block executes. -/
  | kTof (g : Nat) (base : Nat) (off : Nat)
  /-- R393. The pulse timer block executes. -/
  | kTp (g : Nat) (base : Nat) (off : Nat)
  /-- R393. The rising-edge detector executes. -/
  | kRtrig (g : Nat) (base : Nat) (off : Nat)
  /-- R393. The falling-edge detector executes. -/
  | kFtrig (g : Nat) (base : Nat) (off : Nat)
  /-- R393. The up-counter executes. -/
  | kCtu (g : Nat) (base : Nat) (off : Nat)
  /-- R393. The down-counter executes. -/
  | kCtd (g : Nat) (base : Nat) (off : Nat)
  /-- R393. The set-dominant bistable executes. -/
  | kSr (g : Nat) (base : Nat) (off : Nat)
  /-- R393. The reset-dominant bistable executes. -/
  | kRs (g : Nat) (base : Nat) (off : Nat)
  /-- R393. The ramp block executes. -/
  | kRamp (g : Nat) (base : Nat) (off : Nat)
  /-- R393. The PID block executes. -/
  | kPid (g : Nat) (base : Nat) (off : Nat)
  /-- R391. Wd is clamped between Wa and Wb. -/
  | kLimit (d : Nat) (a : Nat) (b : Nat) (t : Nat)
  /-- R59. Tag 0 resets the C-die, one real-time pair or the application cluster, as SCOPE selects. -/
  | sysReset (h : Hdr) (scope : Nat)
  /-- R28. Tag 0 or tag 1 requests the LATENCY or EFFICIENCY profile; the transition runs under admission. -/
  | sysProfile (h : Hdr) (profile : Nat)
  /-- R46. The pin owner selects the function and pull of a multifunction pin. -/
  | sysPincfg (h : Hdr) (pin : Nat) (func : Nat) (pull : Nat)
  /-- R75. Tag 0 requests a life-cycle transition with tokens, and the fuse word is programmed under FUSE leave. -/
  | sysLifecycle (h : Hdr) (addr : Nat) (len : Nat) (target : Nat)
  /-- R76. Tag 0 programs an owner key hash, revokes an owner key or raises a security version counter. -/
  | sysFuse (h : Hdr) (op : Nat) (key : Nat) (svn : Nat) (hash : List Byte)
  /-- R79. Tag 0 writes a new MP patch or BCR copy into the copy not in use and may rewrite the boot preference unit. -/
  | sysUpdate (h : Hdr) (addr : Nat) (len : Nat) (prefer : Nat)
  /-- R508. Tag 0 sets the field bridge poll period, which takes effect after the next poll. -/
  | sysFbpoll (h : Hdr) (poll : Nat)
  /-- R537. Tag 0 arms and locks the external watchdog check on WDI. -/
  | sysWdi (h : Hdr) (enable : Nat) (tmax : Nat) (tmin : Nat)
  /-- R189. The owner commands a channel or Bunting OFF, ON or PWM, and admission is asked for any turn-on. -/
  | chanSet (h : Hdr) (ch : Nat) (act : Nat) (duty : Nat) (deadline : Nat)
  /-- R185. The owner writes the 64-byte channel record. -/
  | chanConfig (h : Hdr) (addr : Nat) (len : Nat) (ch : Nat)
  /-- R224. The owner clears the latch, the retry counter and the diagnosis of a channel. -/
  | chanClear (h : Hdr) (ch : Nat)
  /-- R202. The owner bonds two or four channels into a Bunting. -/
  | chanBond (h : Hdr) (count : Nat) (members : List Nat) (epochs : List Nat)
  /-- R199. The owner dissolves a Bunting, and each member keeps its record. -/
  | chanUnbond (h : Hdr) (ch : Nat)
  /-- R207. The owner requests current samples or a waveform capture of a channel into its buffer. -/
  | chanCapture (h : Hdr) (out : Nat) (outLen : Nat) (ch : Nat) (kind : Nat) (count : Nat)
  /-- R274. Tag 0 or tag 1 writes the port record, fabric fields included. -/
  | netPortcfg (h : Hdr) (addr : Nat) (len : Nat) (port : Nat)
  /-- R277. The VLAN owner writes the member and untag masks. -/
  | netVlan (h : Hdr) (vid : Nat) (member : Nat) (untag : Nat)
  /-- R278. A static forwarding entry is added or removed, or the dynamic entries are flushed. -/
  | netFdb (h : Hdr) (op : Nat) (mac : Nat) (vid : Nat) (mask : Nat)
  /-- R282. A gate control list, shaper, stream filter or CB stream table is written. -/
  | netTsn (h : Hdr) (addr : Nat) (len : Nat) (table : Nat) (port : Nat) (base : Nat)
  /-- R290. Tag 0 installs, removes, enables or disables a MACsec SA. -/
  | netMacsec (h : Hdr) (port : Nat) (op : Nat) (an : Nat) (dir : Nat) (locket : Nat) (sci : Nat) (ssci : Nat) (pn : Nat)
  /-- R292. A TC10 sleep request is sent on a linked T1 port. -/
  | netSleep (h : Hdr) (port : Nat)
  /-- R292. A TC10 wake-up is sent and link training is requested. -/
  | netWake (h : Hdr) (port : Nat) (deadline : Nat)
  /-- R293. The 802.1AS record that governs the discipline of device time is written. -/
  | netGptp (h : Hdr) (addr : Nat) (len : Nat)
  /-- R300. The CAN controller record is written while the controller is in configuration mode. -/
  | canCtrl (h : Hdr) (addr : Nat) (len : Nat) (ctrl : Nat)
  /-- R302. The mode of a CAN controller is changed. -/
  | canMode (h : Hdr) (ctrl : Nat) (mode : Nat)
  /-- R306. The owner configures a CAN or LIN object's identifier, format, controller and enable. -/
  | canObj (h : Hdr) (obj : Nat) (fmt : Nat) (enable : Nat) (id : Nat) (ctrl : Nat)
  /-- R310. Data are stored in a transmit object and made pending. -/
  | canTx (h : Hdr) (obj : Nat) (desc : Bool) (addr : Nat) (len : Nat) (data : List Byte)
  /-- R316. An identifier on a CAN controller is protected or released. -/
  | canAuth (h : Hdr) (ctrl : Nat) (op : Nat) (id : Nat) (locket : Nat) (maclen : Nat)
  /-- R314. A controller is made the level 2 time master, or time mastership is ended. -/
  | canTmaster (h : Hdr) (ctrl : Nat) (enable : Nat) (entry : Nat) (id : Nat)
  /-- R321. The LIN record with its schedule tables is written. -/
  | canLin (h : Hdr) (addr : Nat) (len : Nat) (lin : Nat)
  /-- R322. A LIN schedule table is started, changed or stopped. -/
  | canLinrun (h : Hdr) (lin : Nat) (table : Nat) (mode : Nat)
  /-- R335. The wake record is written into the always-on domain. -/
  | wakeSource (h : Hdr) (addr : Nat) (len : Nat)
  /-- R330. The transceiver state of a segment is set directly. -/
  | wakeXcvr (h : Hdr) (seg : Nat) (st : Nat)
  /-- R342. A Pennant sleep exchange is started on each named segment. -/
  | wakeIndicate (h : Hdr) (mask : Nat) (deadline : Nat) (attempts : Nat)
  /-- R346. The whole module is put to sleep. -/
  | wakeModule (h : Hdr)
  /-- R334. The LEVEL bits of the INH outputs are written. -/
  | wakeInh (h : Hdr) (mask : Nat) (level : Nat)
  /-- R351. A frame bridge route entry is written. -/
  | bridgeRoute (h : Hdr) (entry : Nat) (rec : List Byte)
  /-- R354. A frame bridge route entry is emptied. -/
  | bridgeClear (h : Hdr) (entry : Nat)
  /-- R363. A route entry is added to or removed from a segment's wake list. -/
  | bridgeWakelist (h : Hdr) (seg : Nat) (op : Nat) (entry : Nat)
  /-- R368. A Keore image is verified and written to the inactive bank. -/
  | keoreLoad (h : Hdr) (addr : Nat) (len : Nat)
  /-- R367. The Keore engine is started warm or cold. -/
  | keoreStart (h : Hdr) (mode : Nat)
  /-- R367. The Keore engine stops at the next instruction boundary. -/
  | keoreStop (h : Hdr)
  /-- R408. An on-line exchange to the image of the inactive bank is started. -/
  | keoreExchange (h : Hdr) (out : Nat) (outLen : Nat) (deadline : Nat)
  /-- R413. A variable of the active image is bound to a forced value. -/
  | keoreForce (h : Hdr) (vartag : Nat) (typ : Nat) (value : Nat)
  /-- R415. One force or all forces are ended. -/
  | keoreUnforce (h : Hdr) (vartag : Nat)
  /-- R146. A scheduler entry record is written. -/
  | schedWrite (h : Hdr) (entry : Nat) (rec : List Byte)
  /-- R148. A written scheduler entry is emptied. -/
  | schedClear (h : Hdr) (entry : Nat)
  /-- R148. A written scheduler entry is armed, with an optional new trigger. -/
  | schedArm (h : Hdr) (entry : Nat) (trigger : Nat)
  /-- R155. An entry is disarmed, and its dispatched actions that are not yet applied are withdrawn. -/
  | schedDisarm (h : Hdr) (entry : Nat)
  /-- R143. Tag 0 sets or steps device time in FREE or GM. -/
  | schedTime (h : Hdr) (op : Nat) (value : Nat)
  /-- R168. A tenant requests leave against a budget. -/
  | admitRequest (h : Hdr) (typ : Nat) (budget : Nat) (amount : Nat) (duration : Nat) (deadline : Nat)
  /-- R166. A grant is released by its handle. -/
  | admitRelease (h : Hdr) (grant : Nat)
  /-- R178. Tag 0 sets LIMIT, CAP and RESERVE of a budget. -/
  | admitBudget (h : Hdr) (budget : Nat) (limit : Nat) (charge : Nat) (reserve : Nat)
  /-- R176. Tag 0 sets or disables the car-wide admission window. -/
  | admitWindow (h : Hdr) (enable : Nat) (frame : Nat) (phase : Nat) (length : Nat) (start : Nat)
  /-- R424. A switch input is configured, and its filter restarts. -/
  | inputSw (h : Hdr) (input : Nat) (wet : Nat) (deb : Nat) (flags : Nat) (maxact : Nat) (chatter : Nat) (window : Nat)
  /-- R431. An analogue input is assigned to a converter. -/
  | inputAn (h : Hdr) (an : Nat) (conv : Nat) (deb : Nat)
  /-- R434. A position counter is configured, and its preset is written into the count. -/
  | inputPc (h : Hdr) (pc : Nat) (mode : Nat) (deb : Nat) (zpre : Nat) (preset : Nat)
  /-- R428. The STUCK or CHATTER flag of a switch input is cleared. -/
  | inputClear (h : Hdr) (input : Nat) (what : Nat)
  /-- R437. The mode of an isolated channel is set. -/
  | isoCfg (h : Hdr) (ch : Nat) (mode : Nat) (deb : Nat)
  /-- R440. The commanded value of an isolated output is set. -/
  | isoSet (h : Hdr) (ch : Nat) (value : Nat)
  /-- R442. A latched mismatch of an isolated output is cleared. -/
  | isoClear (h : Hdr) (ch : Nat)
  /-- R129. Tag 0 moves a unit or a range of units to an owner tag. -/
  | tenAssign (h : Hdr) (kind : Nat) (tag : Nat) (index : Nat) (count : Nat)
  /-- R455. Tag 0 writes a Bezel range, zero-filling released enclave memory. -/
  | tenBezel (h : Hdr) (range : Nat) (tag : Nat) (enable : Nat) (perms : Nat) (base : Nat) (size : Nat)
  /-- R100. Tag 0 enables a ring and sets its quotas and completion event line. -/
  | tenRingcfg (h : Hdr) (ring : Nat) (enable : Nat) (quota : Nat) (fwquota : Nat) (event : Nat)
  /-- R459. Tag 0 creates or deletes a Clasp. -/
  | tenClasp (h : Hdr) (clasp : Nat) (op : Nat) (tagA : Nat) (tagB : Nat) (evA : Nat) (evB : Nat)
  /-- R460. A Clasp end posts a message into its outgoing queue. -/
  | tenPost (h : Hdr) (clasp : Nat) (msg : List Byte)
  /-- R460. A Clasp end takes the oldest message from its incoming queue. -/
  | tenTake (h : Hdr) (out : Nat) (outLen : Nat) (clasp : Nat)
  /-- R130. A tag uses, unuses, cuts or restores a clock or power gate. -/
  | tenGate (h : Hdr) (gate : Nat) (op : Nat)
  /-- R481. A Locket's content is written. -/
  | keyWrite (h : Hdr) (addr : Nat) (len : Nat) (slot : Nat)
  /-- R486. A Locket is filled with a key derived from the life-cycle root. -/
  | keyDerive (h : Hdr) (slot : Nat) (ktype : Nat) (label : List Byte)
  /-- R483. A Locket is erased. -/
  | keyErase (h : Hdr) (slot : Nat)
  /-- R484. Tag 0 sets or clears the owner's write permission for a Locket. -/
  | keyPermit (h : Hdr) (slot : Nat) (allow : Nat)
  /-- R488. Data are sealed or opened with AES-256-GCM under a Locket. -/
  | keyAead (h : Hdr) (addr : Nat) (len : Nat) (slot : Nat) (op : Nat) (iv : List Byte) (out : Nat) (outLen : Nat)
  /-- R489. The AES-CMAC of a buffer is computed under a Locket. -/
  | keyCmac (h : Hdr) (addr : Nat) (len : Nat) (slot : Nat) (out : Nat) (outLen : Nat)
  /-- R492. A buffer is signed with ML-DSA-65 under a SIGN Locket. -/
  | keySign (h : Hdr) (addr : Nat) (len : Nat) (slot : Nat) (out : Nat) (outLen : Nat)
  /-- R492. An ML-DSA-65 signature is verified. -/
  | keyVerify (h : Hdr) (addr : Nat) (len : Nat)
  /-- R492. The public key of a SIGN Locket is exported. -/
  | keyPubkey (h : Hdr) (out : Nat) (outLen : Nat) (slot : Nat)
  /-- R496. A Hallmark is captured, signed and written. -/
  | attestReport (h : Hdr) (out : Nat) (outLen : Nat) (nonce : List Byte)
  /-- R495. MEAS[7] is extended on behalf of the ring tag. -/
  | attestExtend (h : Hdr) (len : Nat) (data : List Byte)
  /-- R494. The attestation public key of the current state is returned. -/
  | attestIdentity (h : Hdr) (out : Nat) (outLen : Nat)
  /-- R520. Tag 0 sets the severity and event line of a fault source. -/
  | faultCfg (h : Hdr) (src : Nat) (sev : Nat) (event : Nat) (line : Nat)
  /-- R527. Tag 0 leaves device safe state and releases the holds whose source is no longer active. -/
  | faultRecover (h : Hdr)
  /-- R534. The oldest fault log entries, or all of them, are removed. -/
  | faultLogclr (h : Hdr) (count : Nat)
  /-- R538. A fault source is raised as if detected, with INJECTED set. -/
  | faultInject (h : Hdr) (src : Nat)
  /-- R523. The CH and CAN holds of one source are released. -/
  | faultRelease (h : Hdr) (src : Nat)
  /-- R133. Records of a state object are captured into OUT. -/
  | stateRead (h : Hdr) (out : Nat) (outLen : Nat) (obj : Nat) (index : Nat) (count : Nat)
  /-- R470. Tag 0 sets the debug enables of a tag, and MEAS[0] is extended. -/
  | debugEnable (h : Hdr) (tag : Nat) (en : Nat)
  /-- R471. Tag 0 enables or disables one trace source. -/
  | debugTrace (h : Hdr) (src : Nat) (enable : Nat)
  /-- R207. A pending KIND 1 capture triggers at the next turn-on from OFF or the next protective shutdown. -/
  | captureTrigger (ch : Nat)
  /-- R464. A cut allowed by R130 takes effect at the block's next idle point. -/
  | gateCutApply (gate : Nat)
  /-- R468. A debug access port access is checked against its tag and its enables. -/
  | debugPortAccess (tag : Nat) (op : Nat) (unit : Nat) (addr : Nat) (n : Nat) (data : List Byte) (on : Bool)
  /-- R86. A write of the command doorbell sets CMD_TAIL. -/
  | cmdDb (ini : Nat) (tag : Nat) (n : Nat) (value : Nat)
  /-- R86. A write of the completion doorbell sets CPL_HEAD. -/
  | cplDb (ini : Nat) (tag : Nat) (n : Nat) (value : Nat)
  /-- R82. ATTACH_CTL with OP 0b01 attaches a ring. -/
  | ringAttach (ini : Nat) (tag : Nat) (n : Nat) (size : Nat) (hi : Nat)
  /-- R84. ATTACH_CTL with OP 0b10 puts a ring into DRAINING. -/
  | ringDetach (ini : Nat) (tag : Nat) (n : Nat)
  /-- R94. Halyard fetches one command from a ring in its round-robin turn and applies the fetch checks. -/
  | commandFetch (ring : Nat)
  /-- R88. A completion entry is written once its slot is free, CPL_TAIL is updated, and the event line may be pulsed. -/
  | completionPublish (ring : Nat)
  /-- R209. A write of LCH[n].CMD with ACT OFF is checked and applied. -/
  | directCmdOff (ini : Nat) (tag : Nat) (ch : Nat) (epoch : Nat) (reserved : Nat)
  /-- R209. A write of LCH[n].CMD with ACT ON is checked and admitted with ORIGIN 3. -/
  | directCmdOn (ini : Nat) (tag : Nat) (ch : Nat) (epoch : Nat) (reserved : Nat)
  /-- R209. A write of LCH[n].CMD with ACT PWM is checked and admitted with ORIGIN 3. -/
  | directCmdPwm (ini : Nat) (tag : Nat) (ch : Nat) (epoch : Nat) (reserved : Nat) (duty : Nat)
  /-- R540. The CFG register of an event line is written and checked. -/
  | eventCfgWrite (ini : Nat) (tag : Nat) (n : Nat) (value : Nat)
  /-- R540. Writing 1 to PEND clears the latched pulse of an event line. -/
  | eventPendClear (ini : Nat) (tag : Nat) (n : Nat) (value : Nat)
  /-- R540. A write of SWTRIG pulses the event line. -/
  | eventSwtrig (ini : Nat) (tag : Nat) (n : Nat) (value : Nat)
  /-- R8. A write to a register that has no behaviour of its own has no effect beyond its access code. -/
  | registerWriteOther (ini : Nat) (tag : Nat) (addr : Nat) (value : Nat)
  /-- R138. A read of SCHED.DT_LO loads the initiator's latch with the upper bits and the fraction. -/
  | dtLoRead (ini : Nat)
  /-- R450. Machine mode writes MTAG, which applies at the next return from machine mode. -/
  | mtagWrite (core : Nat) (value : Nat)
  /-- R453. An initiator access to memory is checked against its presented tag and the Bezels, with SECDED checks where they apply. -/
  | memoryAccess (ini : Nat) (kind : Nat) (addr : Nat) (n : Nat) (data : List Byte) (more : Bool)
  /-- R56. All rails have stayed within tolerance for 50 µs. -/
  | railsValid (edges : Nat)
  /-- R69. At t5 the BCR is verified, the controllers and routes are configured and the segments are made operational. -/
  | bootBcrApply (tab : Bool) (items : List BcrItem)
  /-- R69. At t8 the real-time and application images are verified and LPDDR5 is trained. -/
  | bootLateStages (at0 : List Nat) (at1 : List Nat)
  /-- R103. An MP lockstep or watchdog fault completes every FW command in flight with FAULT. -/
  | mpFault (kind : Nat)
  /-- R519. A lockstep or watchdog fault of a real-time pair is detected. -/
  | rtPairFault (k : Nat) (kind : Nat)
  /-- R519. The C-die junction crosses 160 °C, or later falls back below 150 °C. -/
  | cdieOvertemp (temp : Int)
  /-- R536. SAFE_N low for 1 µs makes SAFE_IN active, and high for 1 µs clears it. -/
  | safeNChange (low : Bool)
  /-- R142. A sync is received, and the servo steps or slews device time. -/
  | syncReception (second : Bool) (port : Nat) (offset : Int)
  /-- R434. A filtered A or B edge steps the position count and may make position entries due. -/
  | pcEdge (k : Nat) (a : Bool) (b : Bool)
  /-- R435. A rising filtered Z increments ZCNT and may load the preset. -/
  | pcZEdge (k : Nat)
  /-- R150. A B0 entry is dispatched 4 µs before its trigger. -/
  | schedDispatch (ent : Nat)
  /-- R152. A dispatched action reaches its target at its instant and is applied or refused, with its outcome recorded. -/
  | schedActionApply (ent : Nat) (smp : Nat)
  /-- R166. A grant ends at the end of its DURATION, and its amount returns. -/
  | admitGrantEnd (ix : Nat)
  /-- R168. A queued request reaches its deadline and completes with DEFERRED. -/
  | admitDeadline (ix : Nat)
  /-- R175. The oldest queued request has waited 2 ms and holds its budget. -/
  | admitHold (k : Nat)
  /-- R190. The boost window ends or the heavy output reaches the group, and the channel enters ON or PWM. -/
  | turnOnEnd (ch : Nat)
  /-- R194. A heavy turn-on is not complete 10 ms after the ramp start, which is a protective shutdown. -/
  | slewDeadline (ch : Nat)
  /-- R195. The output falls below 10 % and the clamp ends, so the channel enters OFF. -/
  | turnOffEnd (ch : Nat)
  /-- R196. A PWM period begins with its on-edge. -/
  | pwmPeriodStart (ch : Nat)
  /-- R196. The on-time of a PWM period ends. -/
  | pwmOffEdge (ch : Nat)
  /-- R214. Current limiting longer than TLIM shuts the channel down. -/
  | protectOc (ch : Nat)
  /-- R214. Limiting with low VOUT for 20 µs shuts the channel down. -/
  | protectSc (ch : Nat)
  /-- R214. The junction reaches 175 °C, and the channel shuts down. -/
  | protectOt (ch : Nat) (tj : Int)
  /-- R214. The junction stands 60 K above the reference, and the channel shuts down. -/
  | protectDt (ch : Nat) (tj : Int)
  /-- R221. The restart conditions are all met, and the channel passes to ADMIT_WAIT with a request. -/
  | retryRestart (ch : Nat)
  /-- R223. One second in ON or PWM without a break returns the retry counter to zero. -/
  | retryCounterReset (ch : Nat)
  /-- R204. A 20 µs digitiser interval ends, and CUR and CURPK are updated. -/
  | currentSample (ch : Nat) (cur : Int) (vout : Int) (tj : Int) (vb : Nat)
  /-- R228. CUR stays below THR, or above 1.25 × THR, for 50 ms, which sets or clears OLON. -/
  | openLoadOn (ch : Nat)
  /-- R229. The periodic off-state test, or the voltage check, updates OLOFF and STB. -/
  | offStateTest (ch : Nat) (v1 : Int) (v2 : Int)
  /-- R203. Imbalance for 10 ms sets IMBAL, and balance within 30 % for 100 ms clears it. -/
  | buntingImbalance (n : Nat)
  /-- R232. A supply group falls below its threshold, and its channels enter UNDERVOLT. -/
  | groupUndervoltage (g : Nat) (mv : Nat)
  /-- R232. A group recovers, and its channels request turn-on or return to OFF. -/
  | groupUvRecover (g : Nat) (mv : Nat)
  /-- R232. A group enters or leaves overvoltage, which is reported through LCH_OV. -/
  | groupOvervoltage (g : Nat) (mv : Nat)
  /-- R234. A group driven below PGND turns its switches fully on in reverse. -/
  | reversePolarity (g : Nat) (on : Bool)
  /-- R231. A P-die reference sensor reaches 150 °C. -/
  | dieTempHigh (d : Nat) (temp : Int)
  /-- R237. A companion die finds the C-die absent, and each channel takes its orphan disposition. -/
  | cDieAbsent (d : Nat)
  /-- R237. The first keep-alive makes the C-die present again. -/
  | cDiePresent (d : Nat)
  /-- R238. OHOLD ends, and the channel enters SAFE_HOLD. -/
  | orphanHoldEnd (ch : Nat)
  /-- R276. A received frame is classified, filtered and forwarded. -/
  | frameIngress (port : Nat) (data : List Byte) (good : Bool) (ago : Nat) (dma : Nat) (frags : Nat)
  /-- R247. An input writes one cell into the bank of its slot, or keeps it when the bank is full. -/
  | cellWrite (ix : Nat) (ecc : Nat)
  /-- R249. A bank reads one cell out to the output of its slot. -/
  | cellRead (k : Nat) (ecc : Nat)
  /-- R254. A lane's wait timer reaches RSQTO, and a gap is declared. -/
  | rsqGap (o : Nat) (ix : Nat) (c : Nat)
  /-- R281. An egress port selects an eligible frame at a transmission opportunity. -/
  | transmitStart (p : Nat)
  /-- R250. A frame finishes transmission, and its store cells are freed. -/
  | transmitEnd (p : Nat) (dma : Nat) (buf : Nat)
  /-- R283. A gate control list entry begins, which changes the gate states. -/
  | gateEntryChange (p : Nat)
  /-- R283. A new gate control list takes effect at its start instant. -/
  | gateListSwitch (p : Nat)
  /-- R278. A dynamic entry ages out 300 s after its last refresh. -/
  | fdbAgeout (ix : Nat)
  /-- R287. The recovery reset time of an 802.1CB stream expires. -/
  | cbRecoveryReset (ix : Nat)
  /-- R271. Training completes, and the port enters UP. -/
  | linkTrainingDone (port : Nat)
  /-- R272. Training is not complete after 500 ms, and the port returns to DOWN. -/
  | linkTrainingTimeout (port : Nat)
  /-- R272. A retry wait ends, and a new LINK request is raised. -/
  | linkRetryTimer (port : Nat)
  /-- R271. A linked port loses its link and enters DOWN. -/
  | linkLoss (port : Nat)
  /-- R272. Every 1 ms the external PHY status is polled over MDIO. -/
  | mdioPoll (port : Nat) (up : Bool)
  /-- R273. A changed in-band word restarts the exchange. -/
  | usxgmiiInbandWord (port : Nat) (word : Nat)
  /-- R292. The partner requests sleep, which is acknowledged, and the port enters ASLEEP. -/
  | tc10SleepRequestRx (port : Nat)
  /-- R292. The partner acknowledges, and the port enters ASLEEP. -/
  | tc10SleepAckRx (port : Nat)
  /-- R292. An abort, a wake-up or no answer in 16 ms returns the port to UP. -/
  | tc10SleepAbort (port : Nat)
  /-- R292. A wake-up received in ASLEEP starts training. -/
  | tc10WakeupRx (port : Nat)
  /-- R307. A valid CAN frame ends and is matched against the receive objects. -/
  | canFrameReceive (c : Nat) (frame : CanFrame) (ago : Nat)
  /-- R358. The controller starts the next frame by priority and arbitration order. -/
  | canTxStart (c : Nat)
  /-- R310. A frame is sent without error. -/
  | canTxDone (c : Nat) (tdc : Nat)
  /-- R303. A frame loses arbitration or meets an error, and the error counters and state move. -/
  | canTxError (c : Nat) (kind : Nat) (exc : Bool)
  /-- R302. Eleven recessive bits complete integration, and the mode change takes effect. -/
  | canBusIntegration (c : Nat)
  /-- R302. A change out of normal mode takes effect at the end of the frame in progress. -/
  | canModeFrameEnd (c : Nat)
  /-- R303. BOFFREC ms after bus-off, recovery starts. -/
  | canBusoffRecoveryStart (c : Nat)
  /-- R303. Recovery ends after 128 recessive sequences. -/
  | canBusoffRecoveryEnd (c : Nat)
  /-- R314. A reference message is abandoned after 10 ms. -/
  | canRefmsgTimeout (c : Nat)
  /-- R317. The MP saves the freshness counters under NVM leave. -/
  | freshnessSave (ix : Nat)
  /-- R305. The die-to-die link reports a corrupted bit stream. -/
  | d2dError (link : Nat)
  /-- R323. A LIN schedule slot starts and acts by its frame type. -/
  | linSlotStart (l : Nat) (err : Bool)
  /-- R323. A response is received, checked and stored. -/
  | linResponseRx (l : Nat) (data : List Byte) (code : Nat) (ago : Nat)
  /-- R323. No complete response within the frame's maximum time counts in NORESP. -/
  | linNoResponse (l : Nat)
  /-- R337. A wake source is detected, latched, and wakes its segment. -/
  | wakeDetect (src : Nat) (t : Nat) (n : Nat)
  /-- R330. TSTBY passes in Standby, and the segment enters Sleep. -/
  | segmentSleepEntry (sg : Nat)
  /-- R342. A READY is received, and a COMMIT is sent when every node is ready. -/
  | pennantReadyRx (sg : Nat) (seq : Nat) (node : Nat) (ready : Bool)
  /-- R342. The READY window ends without every READY, and ABORT is sent. -/
  | pennantReadyTimeout (sg : Nat)
  /-- R342. At the commit point the segment enters Standby. -/
  | pennantCommitPoint (sg : Nat)
  /-- R342. TRETRY passes, and a new INDICATE is sent. -/
  | pennantRetry (sg : Nat)
  /-- R343. DEADLINE of WAKE.INDICATE passes. -/
  | wakeIndicateDeadline (ring : Nat) (ctag : Nat)
  /-- R430. Every 10 ms in sleep, each switch-input wake source is pulsed and sampled. -/
  | sleepWettingPulse (mask : Nat)
  /-- R360. A LIN routed buffer not sent within MAXAGE is emptied. -/
  | bridgeLinAgeExpiry (l : Nat) (fid : Nat)
  /-- R362. SP19 takes an AVTPDU and offers its ACF messages. -/
  | sp19AvtpduReceive (vid : Nat) (uid : Nat) (good : Bool) (msgs : List Acf)
  /-- R375. A task is released on its grid or by KEORE_REL, or a deadline overrun occurs. -/
  | keoreTaskRelease (task : Nat)
  /-- R402. A pass writes its commit record valid, and pending handovers merge. -/
  | retainPassEnd (good : Bool)
  /-- R422. A debounce run completes, and a new level is accepted with its TEDGE. -/
  | inputLevelAccept (kind : Nat) (ix : Nat) (level : Bool)
  /-- R425. VALUE stays 1 for MAXACT ms, and STUCK is set. -/
  | inputStuckDetect (n : Nat)
  /-- R426. A chatter window ends, and the count restarts. -/
  | chatterWindowEnd (n : Nat)
  /-- R427. The samples differ without an accepted change beyond the limit, and UNSET is set. -/
  | inputUnset (kind : Nat) (ix : Nat)
  /-- R432. A conversion completes, and VALUE is recomputed. -/
  | adcConversion (c : Nat) (an : Nat) (code : Nat)
  /-- R441. The 500 µs blanking of an isolated output ends. -/
  | isoBlankingEnd (ch : Nat)
  /-- R441. The read-back differs from the commanded value too long, and a mismatch is latched. -/
  | isoMismatchDetect (ch : Nat)
  /-- R439. An output limits for 5 ms or reaches 175 °C, and it switches off and latches. -/
  | isoOverload (ch : Nat) (hot : Bool)
  /-- R443. VFIELD holds 16 V for 10 ms, and VFOK is set. -/
  | vfieldOk (mv : Nat)
  /-- R443. VFIELD stays below 14 V for 100 µs, and the outputs turn off. -/
  | vfieldLoss (mv : Nat)
  /-- R508. Every POLL the side-band words are read and the keep-alive is sent. -/
  | fbPoll (die : Nat) (code : Nat) (hot : Nat)
  /-- R510. A posted write is transferred to its die, with repeats and logging on failure. -/
  | fbPostedWrite (ini : Nat) (tag : Nat) (ch : Nat) (word : Nat) (code : Nat) (repeats : Nat)
  /-- R507. A data-class burst of a capture is read from a P-die. -/
  | fbDataBurst (ch : Nat) (smp : List (Int × Int)) (far : Nat) (code : Nat) (repeats : Nat)
  /-- R541. An event line is pulsed in the cycle after its producer acts, and its target is checked. -/
  | eventPulse (n : Nat)
  /-- R98. A long-running firmware operation (NVM program or erase, fuse word verified, Signet signing) ends, its grant ends and the command's final completion is written. -/
  | longRunningOperationEnd (ring : Nat) (ctag : Nat) (good : Bool)
  /-- R303. A bus error detected while receiving a frame moves REC and the error state of the controller. -/
  | canReceiveError (c : Nat) (kind : Nat) (dominant : Bool)
  /-- R215. A channel's load current reaches or leaves the limit in force, setting or clearing DIAG.LIMIT and starting or stopping the TLIM and SC limiting times. -/
  | currentLimiting (ch : Nat) (ma : Nat) (mv : Nat)
  /-- R231. A P-die reference sensor falls back, and the LCH_DIETEMP condition source becomes inactive. -/
  | dieTempNormal (d : Nat) (temp : Int)
  /-- R141. The best master clock algorithm, or the external configuration, selects a grandmaster, moving the discipline into ACQUIRING or GM. -/
  | bestMasterClockDecision (second : Bool) (self : Bool) (port : Nat) (id : Nat)
  /-- R288. The 802.3br verification with the link partner succeeds or fails, setting PVERIFIED and whether preemptable classes are sent as express. -/
  | preemptionVerification (p : Nat) (good : Bool)
  /-- R120. The DEADLINE of NET.WAKE passes without link up, and the command completes with TIMEOUT 0x10. -/
  | netWakeDeadline (port : Nat)
  /-- R450. An application core enters machine mode on a trap or interrupt and from then on presents tag 0. -/
  | machineModeEntry (core : Nat)
  /-- R450. An application core returns from machine mode, and the value of MTAG becomes its presented tag. -/
  | machineModeReturn (core : Nat)
  /-- R471. A trace sync packet with device time is sent at least every 1 ms and after each overflow. -/
  | traceSyncPacket (src : Nat)
  /-- R28. A profile transition ends, on a grant, a refusal, the admission deadline or the last bank gated, and SYS.PROFILE completes. -/
  | profileTransitionEnd
  /-- R367. The STARTING phase ends, and the engine enters RUNNING. -/
  | keoreStartComplete
  /-- R408. The exchange preparation of code copy and match tables completes. -/
  | exchangePrepared
  /-- R410. At the commit instant, the engine builds the new data in a shadow and swaps it in. -/
  | exchangeCommit
  /-- R411. The swap ends, and the new image becomes active. -/
  | exchangeSwapEnd
  /-- R409. DEADLINE passes before a commit instant, and the exchange completes with TIMEOUT. -/
  | exchangeTimeout
  /-- R455. A zero-fill ends, the new range takes effect, and the next queued TEN.BEZEL may be applied. -/
  | bezelFillDone
  /-- R102. The MP takes the next FW command from its queue and starts it. -/
  | mpCommandStart
  /-- R57. VBAT_LOGIC rises through 5.5 V, and the rails start. -/
  | vbatRise
  /-- R59. VBAT_LOGIC falls below 4.5 V, and every rail switches off. -/
  | powerOnReset
  /-- R59. PORST_N is held low for 10 µs, which causes a full reset. -/
  | porstNAssert
  /-- R59. Another device pulls RESET_N low, which causes a C-die reset. -/
  | resetNExternal
  /-- R525. 10 ms after MP_FAULT or RT0_FAULT, with the log mirrored, the collector resets the C-die. -/
  | faultResetDemand
  /-- R69. The C-die leaves reset, RESET_N is released and the MP self-test runs. -/
  | bootStart
  /-- R69. At t3 the fuses are read, SRAM is initialised, MEAS[0] is extended and the fault log is restored. -/
  | bootFusesRead
  /-- R69. At t4 the MP patch is verified and applied. -/
  | bootPatchApply
  /-- R407. At t6 the Keore image is verified, and a warm or cold start is prepared. -/
  | bootKeorePrepare
  /-- R69. At t7 the first Keore task is released, and orphaned SAFE_HOLD channels may be released. -/
  | bootFirstRelease
  /-- R561. A loss of the chosen reference clock is detected. -/
  | clkLoss
  /-- R537. An edge on WDI is checked against TMIN. -/
  | wdiToggle
  /-- R537. No toggle within TMAX raises WDI_MISS. -/
  | wdiTimeout
  /-- R141. No sync for three sync intervals moves the discipline to HOLDOVER. -/
  | syncTimeout
  /-- R141. HOLDTO passes in HOLDOVER, and the discipline falls to FREE. -/
  | holdoverTimeout
  /-- R163. Every 10 µs, LEVEL of each bucket refills and the queue is evaluated. -/
  | admitRefill
  /-- R176. The car-wide window opens, and the queue is evaluated. -/
  | admitWindowOpen
  /-- R524. The SAFE line is driven, and the channels and isolated outputs take their safe values. -/
  | safeLineDemand
  /-- R259. Every 10 ms the banks are audited for leaked cells and joined lists. -/
  | leakAudit
  /-- R261. A fabric initialisation stops admission. -/
  | fabricInitStart
  /-- R261. At t1 every cell is discarded, and frames in transmission are stomped. -/
  | fabricInitDiscard
  /-- R261. At t2 the free lists are rebuilt and the counters cleared. -/
  | fabricInitRebuild
  /-- R261. At t3 admission resumes. -/
  | fabricInitEnd
  /-- R337. The module sleep timer expires. -/
  | sleepTimer
  /-- R346. At t1 the wake latch is checked again, and OK is written. -/
  | moduleSleepLatchCheck
  /-- R346. At t3 rails 2 to 5 switch off and the INH outputs are released. -/
  | moduleSleepPowerOff
  /-- R356. The bridge looks up one queued frame and makes its destination copies. -/
  | bridgeLookup
  /-- R402. A retain pass starts towards the copy that is not the newest. -/
  | retainPassStart
  /-- R444. The barrier link is silent for 20 µs, and every output switches off. -/
  | isoLinkSilent
  /-- R445. The 100 ms orphan time ends, and the outputs still held switch off. -/
  | isoOrphanTimeout
  /-- R458. The MP saves the changed tenancy table under NVM leave. -/
  | tenancyTableSave
  /-- R529. A waiting CH, CAN or ISO reaction starts in the sequencer. -/
  | faultReactionStart
  /-- R533. A log change is written to the eMRAM mirror. -/
  | faultLogMirror
  /-- R444. The I-die barrier link resumes, LINKOK sets again and the ISO_LINK condition clears. -/
  | barrierLinkReturn
  /-- R139. In GM, the device sends a two-step sync message at each sync interval. -/
  | gptpSyncTransmit (second : Bool)
deriving DecidableEq, Repr

end Sys2Proof
end

