-- ==== Sys2Proof/Decode.lean ====
section
/-! DEFINITION. The command a table word spells, and the code words of the Keore engine. -/
namespace Sys2Proof

/-- The command that a word spells by the table's bits. No row of the opcode table gives bits, so no word spells one. -/
def decodeTableWord (_nbits _w : Nat) : Option Instr := none

end Sys2Proof
end

