-- ==== Sys2Proof/Machine/Base.lean ====
section
/-! DEFINITION. The plain helpers every block uses: tables of units, byte order, bit fields, saturation. -/
namespace Sys2Proof.Machine
open Sys2Proof

/-- The content listed for unit `k`, if any. -/
def look? {α : Type} : Tab α → Nat → Option α
  | [], _ => none
  | (j, v) :: r, k => if j = k then some v else look? r k

/-- The content of unit `k`; an unlisted unit has the content `d` gives it. -/
def look {α : Type} (d : Nat → α) (t : Tab α) (k : Nat) : α := (look? t k).getD (d k)

/-- The table with unit `k` holding `v`; the numbers stay strictly rising. -/
def put {α : Type} : Tab α → Nat → α → Tab α
  | [], k, v => [(k, v)]
  | (j, w) :: r, k, v => if k < j then (k, v) :: (j, w) :: r else if j = k then (k, v) :: r else (j, w) :: put r k v

/-- The table without unit `k`. -/
def del {α : Type} (t : Tab α) (k : Nat) : Tab α := t.filter fun p => p.1 != k

/-- Unit `k` changed by `f`. -/
def upd {α : Type} (d : Nat → α) (t : Tab α) (k : Nat) (f : α → α) : Tab α := put t k (f (look d t k))

/-- A counter table raised at `k`, saturating below `2 ^ w`. -/
def bump (w : Nat) (t : Tab Nat) (k : Nat) : Tab Nat :=
  let v := look (fun _ => 0) t k
  put t k (if v + 1 < 2 ^ w then v + 1 else v)

/-- `n + k`, saturating at the largest value of `w` bits. -/
def satAdd (w n k : Nat) : Nat := Nat.min (n + k) (2 ^ w - 1)

/-- Bits [hi:lo] of a number (00 R6). -/
def bits (v hi lo : Nat) : Nat := (v >>> lo) % 2 ^ (hi + 1 - lo)

/-- Bit i of a number. -/
def bit (v i : Nat) : Bool := v.testBit i

/-- 1 for true, 0 for false. -/
def b2n (b : Bool) : Nat := if b then 1 else 0

/-- Byte `i` of a record; a byte past its end reads 0. -/
def byteAt (l : List Byte) (i : Nat) : Nat := ((l[i]?).getD 0).toNat

/-- The little-endian number of `n` bytes at offset `o` (00 R6). -/
def le (l : List Byte) (o : Nat) : Nat → Nat
  | 0 => 0
  | n + 1 => byteAt l o + 256 * le l (o + 1) n

/-- `v` as `n` little-endian bytes. -/
def toLE : Nat → Nat → List Byte
  | 0, _ => []
  | n + 1, v => BitVec.ofNat 8 v :: toLE n (v / 256)

/-- A number of `w` bits read as two's complement. -/
def signed (w v : Nat) : Int := if v % 2 ^ w < 2 ^ (w - 1) then (v % 2 ^ w : Nat) else ((v % 2 ^ w : Nat) : Int) - (2 ^ w : Nat)

/-- An integer as its `w` two's complement bits. -/
def unsigned (w : Nat) (v : Int) : Nat := (v % ((2 ^ w : Nat) : Int)).toNat

/-- An integer kept within `lo` and `hi`. -/
def clampI (lo hi v : Int) : Int := if v < lo then lo else if v > hi then hi else v

/-- Slice of a byte list: `n` bytes from `o`. -/
def slice (l : List Byte) (o n : Nat) : List Byte := (l.drop o).take n

/-- `l` cut or padded with zeros to `n` bytes. -/
def fitTo (n : Nat) (l : List Byte) : List Byte := (l ++ List.replicate n 0).take n

/-- Bytes `o` and on replaced by `v`. -/
def setBytes (l : List Byte) (o : Nat) (v : List Byte) : List Byte := l.take o ++ v ++ l.drop (o + v.length)

/-- Every byte of the list is 0. -/
def allZero (l : List Byte) : Bool := l.all (· == 0)

/-- The numbers whose bit is set in a mask, below `n`. -/
def maskList (n m : Nat) : List Nat := (List.range n).filter fun i => m.testBit i

/-- The mask of a list of numbers. -/
def listMask (l : List Nat) : Nat := l.eraseDups.foldl (fun m i => m + 2 ^ i) 0

/-- The first element that satisfies `p` is replaced by `f` of it. -/
def updFirst {α : Type} (p : α → Bool) (f : α → α) : List α → List α
  | [] => []
  | a :: r => if p a then f a :: r else a :: updFirst p f r

/-- Removes the first element that satisfies `p`. -/
def dropFirst {α : Type} (p : α → Bool) : List α → List α
  | [] => []
  | a :: r => if p a then r else a :: dropFirst p r

/-- Rounds a quotient up. -/
def ceilDiv (a b : Nat) : Nat := (a + b - 1) / b

end Sys2Proof.Machine
end

