-- ==== Sys2Proof/Machine/Sponge.lean ====
section
/-! DEFINITION. SHAKE256 of FIPS 202 and KMAC256 of SP 800-185, which 00 R11 and 19 R478, R486, R491 name, and SHAKE128, which FIPS 204
uses inside. The spec names the standards by edition and does not restate them: their text is PRESUMED (log 5). -/
namespace Sys2Proof.Machine
open Sys2Proof

/-! ### Keccak-f[1600] (FIPS 202 section 3) -/

/-- A 64-bit lane rotated left. -/
def laneRot (x n : Nat) : Nat := (x <<< (n % 64) ||| x >>> (64 - n % 64)) % 2 ^ 64

/-- The lane of column `x` and row `y`, taken modulo 5. -/
def laneAt (a : List Nat) (x y : Nat) : Nat := a.getD (x % 5 + 5 * (y % 5)) 0

/-- A state from a function of column and row. -/
def lanes (f : Nat → Nat → Nat) : List Nat := (List.range 25).map fun i => f (i % 5) (i / 5)

/-- Step theta: each lane takes the parity of two neighbouring columns. -/
def kTheta (a : List Nat) : List Nat :=
  let col := fun (x : Nat) => (List.range 5).foldl (fun p y => p ^^^ laneAt a x y) 0
  let c := (List.range 5).map col
  lanes fun x y => laneAt a x y ^^^ c.getD ((x + 4) % 5) 0 ^^^ laneRot (c.getD ((x + 1) % 5) 0) 1

/-- The offset of rho for the lane (x, y): the walk from (1, 0) over (y, 2x + 3y), whose t-th lane is turned by (t + 1)(t + 2) / 2. -/
def rhoOffset (x y : Nat) : Nat → Nat → Nat → Nat → Nat
  | 0, _, _, _ => 0
  | fuel + 1, t, u, v => if u = x ∧ v = y then (t + 1) * (t + 2) / 2 % 64 else rhoOffset x y fuel (t + 1) v ((2 * u + 3 * v) % 5)

/-- The 25 offsets, column first. -/
def rhoTable : List Nat := lanes fun x y => rhoOffset x y 24 0 1 0

/-- Steps rho and pi. -/
def kRhoPi (a : List Nat) : List Nat :=
  lanes fun x y => laneRot (laneAt a (x + 3 * y) x) (laneAt rhoTable (x + 3 * y) x)

/-- Step chi. -/
def kChi (a : List Nat) : List Nat :=
  lanes fun x y => laneAt a x y ^^^ ((2 ^ 64 - 1 - laneAt a (x + 1) y) &&& laneAt a (x + 2) y)

/-- The bits of the round constants: the shift register x^8 + x^6 + x^5 + x^4 + 1. -/
def rcStep (r : Nat) : Nat := if r.testBit 7 then (r <<< 1 ^^^ 0x171) % 256 else r <<< 1

/-- The shift register after `t` steps. -/
def rcReg : Nat → Nat
  | 0 => 1
  | t + 1 => rcStep (rcReg t)

/-- The constant of round `i`. -/
def roundConst (i : Nat) : Nat := ((List.range 7).map fun j => (rcReg (j + 7 * i) % 2) <<< (2 ^ j - 1)).sum

/-- One round. -/
def kRound (a : List Nat) (i : Nat) : List Nat :=
  match kChi (kRhoPi (kTheta a)) with
  | [] => []
  | l :: r => (l ^^^ roundConst i) :: r

/-- The permutation: 24 rounds. -/
def keccakF (a : List Nat) : List Nat := (List.range 24).foldl kRound a

/-! ### The sponge (FIPS 202 sections 4 to 6) -/

/-- A block of bytes taken into the first lanes. -/
def absorbBlock (rate : Nat) (a : List Nat) (b : List Byte) : List Nat :=
  keccakF ((List.range 25).map fun i => a.getD i 0 ^^^ (if 8 * i < rate then le b (8 * i) 8 else 0))

/-- All blocks. -/
def absorbAll (rate : Nat) : Nat → List Nat → List Byte → List Nat
  | 0, a, _ => a
  | n + 1, a, m => absorbAll rate n (absorbBlock rate a (m.take rate)) (m.drop rate)

/-- Output blocks, one permutation between two of them. -/
def squeeze (rate : Nat) : Nat → List Nat → List Byte
  | 0, _ => []
  | n + 1, a => ((a.map fun l => toLE 8 l).flatten.take rate) ++ squeeze rate n (keccakF a)

/-- The padded message: the domain bits, then 10*1. -/
def spongePad (rate suffix : Nat) (m : List Byte) : List Byte :=
  let gap := rate - m.length % rate
  if gap = 1 then m ++ [BitVec.ofNat 8 (suffix + 128)]
  else m ++ [BitVec.ofNat 8 suffix] ++ List.replicate (gap - 2) 0 ++ [0x80]

/-- A Keccak sponge of a byte rate and a domain suffix with `n` bytes of output. -/
def sponge (rate suffix : Nat) (m : List Byte) (n : Nat) : List Byte :=
  let p := spongePad rate suffix m
  let a := absorbAll rate (p.length / rate) (List.replicate 25 0) p
  (squeeze rate ((n + rate - 1) / rate) a).take n

/-- SHAKE256: message and number of output bytes (FIPS 202 section 6.2). -/
@[irreducible] def shake256 (m : List Byte) (n : Nat) : List Byte := sponge 136 0x1F m n

/-- SHAKE128. -/
@[irreducible] def shake128 (m : List Byte) (n : Nat) : List Byte := sponge 168 0x1F m n

/-! ### KMAC256 (SP 800-185) -/

/-- The bytes of a number, most significant first, at least one. -/
def beBytes (x : Nat) : List Byte :=
  let n := Nat.max 1 ((Nat.log2 x) / 8 + 1)
  (toLE n x).reverse

/-- left_encode and right_encode. -/
def leftEncode (x : Nat) : List Byte := BitVec.ofNat 8 (beBytes x).length :: beBytes x
def rightEncode (x : Nat) : List Byte := beBytes x ++ [BitVec.ofNat 8 (beBytes x).length]

/-- encode_string of a byte string. -/
def encodeString (b : List Byte) : List Byte := leftEncode (8 * b.length) ++ b

/-- bytepad. -/
def bytePad (w : Nat) (b : List Byte) : List Byte :=
  let x := leftEncode w ++ b
  x ++ List.replicate ((w - x.length % w) % w) 0

/-- KMAC256: key, message, customisation string and number of output bytes. -/
@[irreducible] def kmac256 (key msg custom : List Byte) (n : Nat) : List Byte :=
  let name : List Byte := [0x4B, 0x4D, 0x41, 0x43]
  let head := bytePad 136 (encodeString name ++ encodeString custom)
  sponge 136 0x04 (head ++ bytePad 136 (encodeString key) ++ msg ++ rightEncode (8 * n)) n

end Sys2Proof.Machine
end

