-- ==== Sys2Proof/Machine/Dsa.lean ====
section
/-! DEFINITION. ML-DSA-65 of FIPS 204 as the Signet engine uses it: key pair from a seed, deterministic signature, verification (19 R491, R492;
03 R66). The spec names the standard and does not restate it: its text is PRESUMED (log 5). -/
namespace Sys2Proof.Machine
open Sys2Proof

/-! ### Numbers and polynomials modulo q (FIPS 204 sections 2 and 7.5) -/

/-- The modulus, and gamma2 = (q - 1) / 32 of the decomposition. -/
def dsaQ : Nat := 8380417
def dsaGamma2 : Nat := 261888

/-- A polynomial: 256 coefficients from 0 to q - 1. -/
abbrev Poly := List Nat

/-- An integer modulo q, and the integer nearest 0 of a class. -/
def modQ (x : Int) : Nat := (x % dsaQ).toNat
def centred (a : Nat) : Int := if dsaQ / 2 < a then (a : Int) - dsaQ else a

/-- Sums and differences, coefficient by coefficient. -/
def polyAdd (a b : Poly) : Poly := (a.zip b).map fun p => (p.1 + p.2) % dsaQ
def polySub (a b : Poly) : Poly := (a.zip b).map fun p => (p.1 + dsaQ - p.2) % dsaQ

/-- The polynomial 0. -/
def polyZero : Poly := List.replicate 256 0

/-- A power modulo q, by squaring. -/
def powQ (a : Nat) : Nat → Nat → Nat
  | 0, _ => 1
  | fuel + 1, e =>
    let h := powQ (a * a % dsaQ) fuel (e / 2)
    if e % 2 = 1 then h * a % dsaQ else h

/-- The eight bits of a number in reverse. -/
def bitRev8 (k : Nat) : Nat := ((List.range 8).map fun i => b2n (k.testBit i) * 2 ^ (7 - i)).sum

/-- The factor of node `k` of the transform: 1753 to the power of the reversed node number. -/
def nodeZeta (k : Nat) : Nat := powQ 1753 9 (bitRev8 k)

/-- The number-theoretic transform of a list of 2^n coefficients at node `k`: halves combined, then transformed. -/
def nttAt : Nat → Nat → Poly → Poly
  | 0, _, w => w
  | n + 1, k, w =>
    let a := w.take (2 ^ n)
    let b := (w.drop (2 ^ n)).map fun x => nodeZeta k * x % dsaQ
    nttAt n (2 * k) (polyAdd a b) ++ nttAt n (2 * k + 1) (polySub a b)

/-- Its inverse but for a factor of two a level. -/
def invAt : Nat → Nat → Poly → Poly
  | 0, _, w => w
  | n + 1, k, w =>
    let a := invAt n (2 * k) (w.take (2 ^ n))
    let b := invAt n (2 * k + 1) (w.drop (2 ^ n))
    let z := powQ (nodeZeta k) 23 (dsaQ - 2)
    polyAdd a b ++ (polySub a b).map fun x => z * x % dsaQ

/-- NTT and its inverse. -/
def ntt (w : Poly) : Poly := nttAt 8 1 w
def invNtt (w : Poly) : Poly := (invAt 8 1 w).map fun x => 8347681 * x % dsaQ

/-- A row of transformed polynomials times a transformed vector. -/
def rowDot (r v : List Poly) : Poly :=
  (r.zip v).foldl (fun s p => polyAdd s ((p.1.zip p.2).map fun x => x.1 * x.2 % dsaQ)) polyZero

/-- A transformed scalar times a transformed vector, back in coefficients. -/
def scale (c : Poly) (v : List Poly) : List Poly := v.map fun p => invNtt ((c.zip p).map fun x => x.1 * x.2 % dsaQ)

/-! ### Bits and bytes (FIPS 204 section 7.1) -/

/-- The bits of a byte string, lowest first, and back. -/
def bitsOfBytes (b : List Byte) : List Bool := (b.map fun x => (List.range 8).map fun i => x.toNat.testBit i).flatten
def bytesOfBits (b : List Bool) : List Byte :=
  (List.range (b.length / 8)).map fun i => BitVec.ofNat 8 (((List.range 8).map fun j => b2n (b.getD (8 * i + j) false) * 2 ^ j).sum)

/-- Numbers of `w` bits packed, and the 256 numbers of `w` bits in a byte string. -/
def packBits (w : Nat) (l : List Nat) : List Byte := bytesOfBits (l.map fun x => (List.range w).map fun i => x.testBit i).flatten
def unpackBits (w : Nat) (b : List Byte) : List Nat :=
  let v := le b 0 (32 * w)
  (List.range 256).map fun i => v / 2 ^ (w * i) % 2 ^ w

/-- Coefficients packed as their distance below `top`, and back. -/
def packBelow (w : Nat) (top : Int) (p : Poly) : List Byte := packBits w (p.map fun c => (top - centred c).toNat)
def unpackBelow (w : Nat) (top : Int) (b : List Byte) : Poly := (unpackBits w b).map fun (x : Nat) => modQ (top - x)

/-- A number as bytes, low byte first. -/
def seedNum (n x : Nat) : List Byte := toLE n x

/-! ### Sampling (FIPS 204 section 7.3) -/

/-- The numbers below q among groups of three bytes. -/
def below : List Byte → List Nat
  | a :: b :: c :: r =>
    let z := a.toNat + 256 * b.toNat + 65536 * (c.toNat % 128)
    if z < dsaQ then z :: below r else below r
  | _ => []

/-- A uniform transformed polynomial from a seed; 2016 bytes hold 672 tries for 256 coefficients. -/
def uniformPoly (seed : List Byte) : Poly := (below (shake128 seed 2016) ++ polyZero).take 256

/-- The 6 by 5 matrix. -/
def expandA (rho : List Byte) : List (List Poly) :=
  (List.range 6).map fun r => (List.range 5).map fun s => uniformPoly (rho ++ seedNum 1 s ++ seedNum 1 r)

/-- A polynomial with coefficients from -4 to 4 from a seed. -/
def smallPoly (seed : List Byte) : Poly :=
  let half : List Nat := ((shake256 seed 1088).map fun b => [b.toNat % 16, b.toNat / 16]).flatten
  ((half.filter (· < 9)).map (fun (x : Nat) => modQ (4 - (x : Int))) ++ polyZero).take 256

/-- The mask of one try: five polynomials of 20-bit coefficients. -/
def expandMask (seed : List Byte) (kappa : Nat) : List Poly :=
  (List.range 5).map fun r => unpackBelow 20 524288 (shake256 (seed ++ seedNum 2 (kappa + r)) 640)

/-- The challenge: 49 coefficients of 1 or -1 at places that the bytes after the eight sign bytes name; a byte above the current place
is passed over. -/
def inBall (seed : List Byte) : Poly :=
  let h := shake256 seed 552
  let signs := le h 0 8
  ((h.drop 8).foldl (fun (st : Nat × Poly) b =>
    let j := b.toNat
    if 256 ≤ st.1 ∨ st.1 < j then st
    else (st.1 + 1, (st.2.set st.1 (st.2.getD j 0)).set j (if signs.testBit (st.1 - 207) then dsaQ - 1 else 1))) (207, polyZero)).2

/-! ### Rounding and hints (FIPS 204 section 7.4) -/

/-- Power2Round with d = 13: the high part. -/
def roundHigh (a : Nat) : Nat := (a + 4095) / 8192

/-- Decompose: high part 0 to 15 and low part. -/
def decompose (a : Nat) : Nat × Int :=
  let low : Int := let r := a % (2 * dsaGamma2); if dsaGamma2 < r then (r : Int) - 2 * dsaGamma2 else r
  if (a : Int) - low = dsaQ - 1 then (0, low - 1) else ((((a : Int) - low) / (2 * dsaGamma2)).toNat, low)

/-- High parts of a vector. -/
def highBits (v : List Poly) : List (List Nat) := v.map fun p => p.map fun a => (decompose a).1

/-- UseHint. -/
def useHint (h : Bool) (a : Nat) : Nat :=
  let d := decompose a
  if !h then d.1 else if 0 < d.2 then (d.1 + 1) % 16 else (d.1 + 15) % 16

/-- Every coefficient of a vector lies within a bound of 0. -/
def within (bound : Nat) (v : List Poly) : Bool := v.all fun p => p.all fun a => decide ((centred a).natAbs < bound)

/-- The packed high parts. -/
def packHigh (v : List (List Nat)) : List Byte := (v.map fun p => packBits 4 p).flatten

/-- The hint as its 61 bytes: places in ascending order, then the running counts. -/
def packHint (h : List (List Bool)) : List Byte :=
  let at' := h.map fun p => (List.range 256).filter fun i => p.getD i false
  let sums := (List.range 6).map fun i => ((at'.take (i + 1)).map List.length).sum
  fitTo 55 (at'.flatten.map fun x => BitVec.ofNat 8 x) ++ sums.map fun x => BitVec.ofNat 8 x

/-- Places ascend strictly. -/
def rising : List Nat → Bool
  | a :: b :: r => decide (a < b) && rising (b :: r)
  | _ => true

/-- The hint read back; none where its form is not canonical. -/
def unpackHint (y : List Byte) : Option (List (List Bool)) :=
  let ends := (List.range 6).map fun i => byteAt y (55 + i)
  let from' := fun (i : Nat) => if i = 0 then 0 else ends.getD (i - 1) 0
  let part := fun (i : Nat) => (List.range (ends.getD i 0 - from' i)).map fun j => byteAt y (from' i + j)
  if (List.range 6).all (fun i => decide (from' i ≤ ends.getD i 0 ∧ ends.getD i 0 ≤ 55) && rising (part i)) &&
      ((y.take 55).drop (ends.getD 5 0)).all (· == 0) then
    some ((List.range 6).map fun i => (List.range 256).map fun k => (part i).contains k)
  else none

/-! ### Keys, signatures, verification (FIPS 204 section 6) -/

/-- A key pair as the engine holds it: rho, K, tr, the secret vectors transformed, the public key. -/
structure DsaKey where
  mat : List (List Poly)
  k : List Byte
  tr : List Byte
  s1 : List Poly
  s2 : List Poly
  t0 : List Poly
  pk : List Byte

/-- ML-DSA.KeyGen_internal. -/
def dsaKeyGen (seed : List Byte) : DsaKey :=
  let h := shake256 (fitTo 32 seed ++ [6, 5]) 128
  let rho := h.take 32
  let mat := expandA rho
  let small := fun (i : Nat) => smallPoly (slice h 32 64 ++ seedNum 2 i)
  let s1 := ((List.range 5).map small).map ntt
  let s2 := (List.range 6).map fun i => small (5 + i)
  let t := (mat.zip s2).map fun p => polyAdd (invNtt (rowDot p.1 s1)) p.2
  let pk := rho ++ (t.map fun p => packBits 10 (p.map roundHigh)).flatten
  { mat := mat, k := slice h 96 32, tr := shake256 pk 64, s1 := s1, s2 := s2.map ntt,
    t0 := (t.map fun p => p.map fun (a : Nat) => modQ (a - 8192 * (roundHigh a : Int))).map ntt, pk := pk }

/-- One pass of the signing loop: the signature, or none where the pass is rejected. -/
def dsaTry (x : DsaKey) (mu mask : List Byte) (kappa : Nat) : Option (List Byte) :=
  let y := expandMask mask kappa
  let yh := y.map ntt
  let w := x.mat.map fun r => invNtt (rowDot r yh)
  let c := shake256 (mu ++ packHigh (highBits w)) 48
  let ch := ntt (inBall c)
  let z := (y.zip (scale ch x.s1)).map fun p => polyAdd p.1 p.2
  let r := (w.zip (scale ch x.s2)).map fun p => polySub p.1 p.2
  let lows := r.all fun p => p.all fun a => decide ((decompose a).2.natAbs < dsaGamma2 - 196)
  if !within (524288 - 196) z || !lows then none
  else
    let ct := scale ch x.t0
    let v := (r.zip ct).map fun p => polyAdd p.1 p.2
    let hint := (v.zip r).map fun p => (p.1.zip p.2).map fun q => (decompose q.1).1 != (decompose q.2).1
    if !within dsaGamma2 ct || decide (55 < (hint.map fun p => p.countP id).sum) then none
    else some (c ++ (z.map fun p => packBelow 20 524288 p).flatten ++ packHint hint)

/-- The signing loop: passes until one is accepted. -/
def dsaLoop (x : DsaKey) (mu mask : List Byte) : Nat → Nat → List Byte
  | 0, _ => []
  | fuel + 1, kappa => (dsaTry x mu mask kappa).getD (dsaLoop x mu mask fuel (kappa + 5))

/-- The public key of the pair from a seed. -/
@[irreducible] def dsaPublic (seed : List Byte) : List Byte := (dsaKeyGen seed).pk

/-- ML-DSA.Sign_internal with rnd of 32 zero bytes, over a message that carries its context (`pureMsg`). -/
@[irreducible] def dsaSign (seed msg : List Byte) : List Byte :=
  let x := dsaKeyGen seed
  let mu := shake256 (x.tr ++ msg) 64
  dsaLoop x mu (shake256 (x.k ++ List.replicate 32 0 ++ mu) 64) 4096 0

/-- ML-DSA.Verify_internal: public key, message with its context, signature. -/
@[irreducible] def dsaVerify (pk msg sig : List Byte) : Bool :=
  if pk.length ≠ 1952 ∨ sig.length ≠ 3309 then false
  else match unpackHint (sig.drop 3248) with
    | none => false
    | some h =>
      let c := sig.take 48
      let ch := ntt (inBall c)
      let z := (List.range 5).map fun i => unpackBelow 20 524288 (slice sig (48 + 640 * i) 640)
      let zh := z.map ntt
      let t1 := (List.range 6).map fun i => ntt ((unpackBits 10 (slice pk (32 + 320 * i) 320)).map fun a => 8192 * a % dsaQ)
      let w := (((expandA (pk.take 32)).map fun r => invNtt (rowDot r zh)).zip (scale ch t1)).map fun p => polySub p.1 p.2
      let high := (w.zip h).map fun p => (p.1.zip p.2).map fun q => useHint q.2 q.1
      let mu := shake256 (shake256 pk 64 ++ msg) 64
      within (524288 - 196) z && shake256 (mu ++ packHigh high) 48 == c

end Sys2Proof.Machine
end

