-- ==== Sys2Proof/Machine/Cipher.lean ====
section
/-! DEFINITION. AES-256 with GCM and CMAC (19 R488, R489; 11 R290; 12 R318) and the check value of an Ethernet frame (00 R11, IEEE 802.3).
The spec names them and does not restate them: their text is PRESUMED (log 5). -/
namespace Sys2Proof.Machine
open Sys2Proof

/-! ### AES-256 (FIPS 197) -/

/-- A byte times x in GF(2^8) modulo x^8 + x^4 + x^3 + x + 1. -/
def xtime (a : Nat) : Nat := if a.testBit 7 then (2 * a ^^^ 0x11B) % 256 else 2 * a

/-- A product in GF(2^8): one term for each bit of `b`, lowest first. -/
def gfMul (a b : Nat) : Nat :=
  ((List.range 8).foldl (fun (p : Nat × Nat) i => (if b.testBit i then p.1 ^^^ p.2 else p.1, xtime p.2)) (0, a)).1

/-- The inverse: the 254th power; 0 gives 0. -/
def gfInv (a : Nat) : Nat := (List.range 7).foldl (fun p _ => let q := gfMul p p; gfMul q a) 1 |> fun p => gfMul p p

/-- The substitution of a byte: inverse, then the affine map. -/
def subByte (a : Nat) : Nat :=
  let b := gfInv a
  let turn := fun (n : Nat) => (b <<< n ||| b >>> (8 - n)) % 256
  b ^^^ turn 1 ^^^ turn 2 ^^^ turn 3 ^^^ turn 4 ^^^ 0x63

/-- Bytes added. -/
def addBytes (a b : List Nat) : List Nat := (a.zip b).map fun p => p.1 ^^^ p.2

/-- The key schedule: words of four bytes, the newest first. -/
def expandKey : Nat → List (List Nat) → List (List Nat)
  | 0, w => w
  | n + 1, w =>
    let i := w.length
    let t := w.getD 0 []
    let t := if i % 8 = 0 then
        addBytes ((t.drop 1 ++ t.take 1).map subByte) [(List.range (i / 8 - 1)).foldl (fun c _ => xtime c) 1, 0, 0, 0]
      else if i % 8 = 4 then t.map subByte else t
    expandKey n (addBytes (w.getD 7 []) t :: w)

/-- The 15 round keys of a 32-byte key. -/
def roundKeys (key : List Byte) : List (List Nat) :=
  let k := fitTo 32 key
  let w0 := (List.range 8).map fun i => (List.range 4).map fun j => byteAt k (4 * i + j)
  let w := (expandKey 52 w0.reverse).reverse
  (List.range 15).map fun r => ((w.drop (4 * r)).take 4).flatten

/-- ShiftRows over a block in column order. -/
def shiftRows (s : List Nat) : List Nat := (List.range 16).map fun i => s.getD ((i + 4 * (i % 4)) % 16) 0

/-- MixColumns. -/
def mixColumns (s : List Nat) : List Nat :=
  (List.range 16).map fun i =>
    let at' := fun (k : Nat) => s.getD (i / 4 * 4 + (i + k) % 4) 0
    xtime (at' 0) ^^^ (xtime (at' 1) ^^^ at' 1) ^^^ at' 2 ^^^ at' 3

/-- One block enciphered under round keys. -/
def aesBlock (ks : List (List Nat)) (b : List Nat) : List Nat :=
  let s := addBytes b (ks.getD 0 [])
  let s := (List.range 13).foldl (fun s r => addBytes (mixColumns (shiftRows (s.map subByte))) (ks.getD (r + 1) [])) s
  addBytes (shiftRows (s.map subByte)) (ks.getD 14 [])

/-- A block as a 128-bit number, first byte most significant, and back. -/
def blockNum (b : List Nat) : Nat := b.foldl (fun n x => n * 256 + x) 0
def numBlock (n : Nat) : List Nat := (List.range 16).map fun i => n / 256 ^ (15 - i) % 256

/-- A block number enciphered. -/
def aesNum (ks : List (List Nat)) (n : Nat) : Nat := blockNum (aesBlock ks (numBlock n))

/-- The blocks of a byte string as numbers, the last filled with zeros. -/
def blocksOf (b : List Byte) : List Nat :=
  (List.range ((b.length + 15) / 16)).map fun i => blockNum ((List.range 16).map fun j => byteAt b (16 * i + j))

/-! ### GCM (SP 800-38D) -/

/-- A product in GF(2^128), bit 0 the most significant. -/
def ghMul (x y : Nat) : Nat :=
  ((List.range 128).foldl (fun (p : Nat × Nat) i =>
    (if x.testBit (127 - i) then p.1 ^^^ p.2 else p.1, if p.2 % 2 = 1 then p.2 / 2 ^^^ 0xE1 * 2 ^ 120 else p.2 / 2)) (0, y)).1

/-- GHASH over associated data, ciphertext and their lengths. -/
def ghash (h : Nat) (aad c : List Byte) : Nat :=
  (blocksOf aad ++ blocksOf c ++ [8 * aad.length * 2 ^ 64 + 8 * c.length]).foldl (fun y b => ghMul (y ^^^ b) h) 0

/-- The counter block `n` of a 12-byte IV. -/
def gcmCtr (iv : List Byte) (n : Nat) : Nat := blockNum ((fitTo 12 iv).map BitVec.toNat) * 2 ^ 32 + n % 2 ^ 32

/-- Data under the key stream from counter 2 on. -/
def gcmStream (ks : List (List Nat)) (iv d : List Byte) : List Byte :=
  let key := ((List.range ((d.length + 15) / 16)).map fun i => numBlock (aesNum ks (gcmCtr iv (2 + i)))).flatten
  (d.zip key).map fun p => p.1 ^^^ BitVec.ofNat 8 p.2

/-- The 16-byte tag. -/
def gcmTag (ks : List (List Nat)) (iv aad c : List Byte) : List Byte :=
  (numBlock (ghash (aesNum ks 0) aad c ^^^ aesNum ks (gcmCtr iv 1))).map fun x => BitVec.ofNat 8 x

/-- AES-256-GCM seal: key, IV, associated data and plaintext; ciphertext and tag. -/
@[irreducible] def gcmSeal (key iv aad d : List Byte) : List Byte × List Byte :=
  let ks := roundKeys key
  let c := gcmStream ks iv d
  (c, gcmTag ks iv aad c)

/-- AES-256-GCM open: the plaintext where the tag holds. -/
@[irreducible] def gcmOpen (key iv aad c tag : List Byte) : Option (List Byte) :=
  let ks := roundKeys key
  if gcmTag ks iv aad c = tag then some (gcmStream ks iv c) else none

/-! ### CMAC (SP 800-38B) -/

/-- A subkey: doubling in GF(2^128), bit 127 the most significant. -/
def cmacDouble (x : Nat) : Nat := if x.testBit 127 then (2 * x ^^^ 0x87) % 2 ^ 128 else 2 * x

/-- AES-CMAC: key and message, 16 bytes. -/
@[irreducible] def aesCmac (key m : List Byte) : List Byte :=
  let ks := roundKeys key
  let k1 := cmacDouble (aesNum ks 0)
  let full := m.length % 16 == 0 && m.length != 0
  let last := if full then k1 else cmacDouble k1
  let b := blocksOf (if full then m else m ++ [0x80])
  let n := b.length
  (numBlock (((b.zip (List.range n)).foldl (fun y p => aesNum ks (y ^^^ p.1 ^^^ (if p.2 + 1 = n then last else 0))) 0))).map
    fun x => BitVec.ofNat 8 x

/-! ### The frame check sequence (IEEE 802.3 clause 3.2.9) -/

/-- One bit of the reflected remainder. -/
def crcBit (c : Nat) : Nat := if c % 2 = 1 then c / 2 ^^^ 0xEDB88320 else c / 2

/-- The 32-bit check value of an octet string, lowest octet sent first. -/
@[irreducible] def crc32 (b : List Byte) : Nat :=
  (b.foldl (fun c x => (List.range 8).foldl (fun c _ => crcBit c) (c ^^^ x.toNat)) 0xFFFFFFFF) ^^^ 0xFFFFFFFF

end Sys2Proof.Machine
end

