-- ==== Sys2Proof/Config.lean ====
section
/-! DEFINITION. What the spec leaves open: constants with no body, so that nothing can be proved of their values. -/
namespace Sys2Proof.Config
open Sys2Proof

/-- Payload and sign of a NaN that a REAL32 operation produces (15 R392 leaves the pattern open). Log 10. -/
opaque nanBits : Nat → Nat → Nat

/-- A value the spec leaves open, fresh for each draw number. Log 12. -/
opaque freeValue : Nat → Nat

/-- The fused root of a life-cycle state, fixed at wafer test (19 R485). Log 5. -/
opaque root : Nat → List Byte

/-- The bucket a MAC address and VID select in the forwarding database (11 R278 names a hash and gives none). Log 5. -/
opaque fdbHash : Nat → Nat → Nat

/-- The ROM version word that MEAS[0] takes first (03 R68 gives none). Log 5. -/
opaque romVersion : Nat

/-- The manufacturer identity in bits [11:1] of IDCODE (18 R466 gives no number). Log 5. -/
opaque jtagMaker : BitVec 11

/-- How a quotient the spec leaves unrounded is rounded when it is not whole. Log 13. -/
opaque roundDiv : Nat → Nat → Nat

/-- The same for a signed quotient. Log 13. -/
opaque roundDivI : Int → Nat → Int

/-- How LEVEL is shown while the bucket holds a fraction of 1 mA·ms. Log 13. -/
opaque roundLevel : Int → Int

end Sys2Proof.Config
end

