-- ==== Sys2Proof/Machine/State.lean ====
section
/-! DEFINITION. The state of the module: every register, queue, counter and mode the spec gives it, as plain data,
and State.reset, the module right after power has been applied. -/
namespace Sys2Proof.Machine
open Sys2Proof

/-- Why a command stops the model. -/
inductive Fault where
  /-- Raised by an event row that names a unit the part does not have (an event of channel 40).
  Safe: the hardware has no such event. Log 9. -/
  | noSuchUnit
deriving DecidableEq, Repr

/-- Why a command has no meaning here. -/
inductive Refusal where
  /-- Raised by an arm of exec that has no meaning yet. Safe: nothing is claimed of it. -/
  | notModelled (mnemonic : String)
deriving DecidableEq, Repr

/-- Completion status (04 R93). -/
inductive Status where
  | ok | accepted | busy | denied | badParam | badState | roleChanged | deferred | refused | fault | timeout
  | unsupported
deriving DecidableEq, Repr

/-- The supply of the dies (03 R56, R57; 13 R346). -/
inductive Pwr where
  | off | aoOnly | starting | valid
deriving DecidableEq, Repr

/-- The reference clock chosen at the rise of the rails (02 R51). -/
inductive ClkSrc where
  | unset | clkin | xtal
deriving DecidableEq, Repr

/-- Discipline states (06 R141). -/
inductive Disc where
  | free | acquiring | locked | holdover | gm
deriving DecidableEq, Repr

/-- Commanded actions of a channel (08 R188). -/
inductive Act where
  | off | on | pwm
deriving DecidableEq, Repr

/-- Channel states (08 R188). -/
inductive ChState where
  | off | admitWait | turnOn | on | pwm | turnOff | retryWait | latched | safeHold | orphanHold | undervolt
deriving DecidableEq, Repr

/-- Held outputs of a channel in a hold (09 R235, R238). -/
inductive Held where
  | off | on | pwm
deriving DecidableEq, Repr

/-- What holds a channel in SAFE_HOLD (01 R18; 21 R522, R524; 15 R395; 09 R238). -/
inductive HoldBy where
  | src (source : Nat) | safe | keore | orphan
deriving DecidableEq, Repr

/-- Who commanded a channel or asked for admission (01 R17; 07 R180 ORIGIN). -/
inductive Origin where
  | none | halyard (h : Hdr) | sched (entry : Nat) | keore (ch : Nat) | direct (ch : Nat) | self
deriving DecidableEq, Repr

/-- Who is answered when an admission request ends (07 R164). -/
inductive Client where
  | none | chan (n : Nat) | req (h : Hdr) | op (h : Hdr) | port (p : Nat) | seg (sg : Nat) | save | fresh (key : Nat) | ddr
  | sched (entry : Nat)
deriving DecidableEq, Repr

/-- Link states of a switch port (11 R271). -/
inductive LState where
  | disabled | down | training | up | sleepReq | asleep
deriving DecidableEq, Repr

/-- n zero bytes. -/
def zeros (n : Nat) : List Byte := List.replicate n 0

/-- The all-default channel record (08 R185): VERSION 0x01, every other byte 0. -/
def chanRecDefault : List Byte := 1 :: zeros 63

/-- The 802.1AS record at reset (06 R140, 11 R293): STEPTHR 100 us, LOCKTHR 100 ns, SLEWMAX 100 ppm, HOLDTO 10 s. -/
def gptpDefault : List Byte :=
  [1, 0, 0, 0, 0, 0, 0, 0, 0xA0, 0x86, 1, 0, 100, 0, 0, 0, 100, 0, 10, 0] ++ zeros 12


/-- A two-step sync message of 802.1AS as the device sends it (06 R139, R143). -/
structure SyncMsg where
  /-- 7 bits; 06 R140. Reset: none held. -/
  domain : Nat := 0
  /-- 64 bits, ns; 06 R136 the domain's time at the transmission. Reset: none held. -/
  time : Nat := 0
  /-- 16 bits; 06 R143 number of the grandmaster's phase changes. Reset: none held. -/
  phaseCnt : Nat := 0
  /-- signed ns; 06 R143 the last phase change. Reset: none held. -/
  phaseStep : Int := 0
deriving DecidableEq, Repr

/-- Elapsed time, device time and its discipline (06 R135-R143). -/
structure Clk where
  /-- unbounded; the model's own count of elapsed fabric cycles (00 R6; 07 R170 counts deadlines on it). Reset: DESIGN CHOICE 0 (log 6). -/
  cyc : Nat := 0
  /-- 64 bits of ns and 32 of fraction; 06 R135. Reset: 0. -/
  dt : Nat := 0
  /-- signed, 0.001 ppm; 06 R135, R159 RATE. Reset: 0. -/
  rate : Int := 0
  /-- 3 bits; 06 R141 DISC.STATE. Reset: FREE. -/
  disc : Disc := .free
  /-- 32 bits signed; 06 R159 OFFSET. Reset: 0. -/
  offset : Int := 0
  /-- 8 bits saturating; 06 R160 STEPCNT. Reset: 0. -/
  stepCnt : Nat := 0
  /-- 32 bytes; 06 R140, 11 R293. Reset: the defaults of R140; VERSION 0x01; other bytes 0. -/
  gptp : List Byte := gptpDefault
  /-- 64 bits; 11 R296 object 0x0038. Reset: DESIGN CHOICE 0 (log 6). -/
  gmIdentity : Nat := 0
  /-- 8 bits; 11 R296 object 0x0038. Reset: DESIGN CHOICE 0xFF, none (log 6). -/
  slavePort : Nat := 0xFF
  /-- 64 bits, ns; 11 R296 object 0x0038. Reset: DESIGN CHOICE 0 (log 6). -/
  lastSync : Nat := 0
  /-- cycles; 06 R141 three sync intervals. Reset: DESIGN CHOICE 0 (log 6). -/
  lastSyncCyc : Nat := 0
  /-- 0 to 8; 06 R141 eight consecutive receptions. Reset: DESIGN CHOICE 0 (log 6). -/
  goodSyncs : Nat := 0
  /-- cycles; 06 R141 HOLDTO counts from entry to HOLDOVER. Reset: DESIGN CHOICE 0 (log 6). -/
  holdCyc : Nat := 0
  /-- count; 06 R139 two-step sync messages sent in GM. Reset: DESIGN CHOICE 0 (log 6). -/
  syncTx : Nat := 0
  /-- cycle of the last sync message sent in DOMAIN (0) and DOMAIN2 (1); 06 R139 sync interval. Reset: none sent. -/
  syncAt : Tab Nat := []
  /-- the last sync message sent in DOMAIN (0) and DOMAIN2 (1); 06 R139, R143. Reset: none sent. -/
  syncMsg : Tab SyncMsg := []
  /-- 16 bits wrapping; 06 R143 phase changes made as grandmaster. Reset: DESIGN CHOICE 0 (log 6). -/
  phaseCnt : Nat := 0
  /-- signed ns; 06 R143 the last of them. Reset: DESIGN CHOICE 0 (log 6). -/
  phaseStep : Int := 0
  /-- 1 bit; 06 R139 grandmaster of DOMAIN2. Reset: DESIGN CHOICE 0 (log 6). -/
  gm2 : Bool := false
  /-- 64 bits; 06 R139 grandmaster of DOMAIN2. Reset: DESIGN CHOICE 0 (log 6). -/
  gmIdentity2 : Nat := 0
  /-- 8 bits; 06 R139 slave port of DOMAIN2. Reset: DESIGN CHOICE 0xFF, none (log 6). -/
  slavePort2 : Nat := 0xFF
  /-- signed ns; 06 R139 time of DOMAIN2 less device time at its last sync. Reset: DESIGN CHOICE 0 (log 6). -/
  offset2 : Int := 0
  /-- 64 bits, ns; 06 R139 the last sync of DOMAIN2. Reset: DESIGN CHOICE 0 (log 6). -/
  lastSync2 : Nat := 0
  /-- 32 + 16 bits per initiator; 06 R138 DT_HI, DT_FRAC. Reset: 0. -/
  latch : Tab (Nat × Nat) := []
  /-- cycles; AOCNT is this over 400, 64 bits; 16 R406 AOCNT. Reset: DESIGN CHOICE 0 (log 6). -/
  aoCyc : Nat := 0
  /-- 32 bits; 16 R406 AOSESS. Reset: DESIGN CHOICE 0 (log 6). -/
  aoSess : Nat := 0
  /-- the MODEL's own counter that picks fresh free values; log 12. Reset: DESIGN CHOICE 0 (log 12). -/
  free : Nat := 0
deriving DecidableEq, Repr

/-- One multifunction pin GP00 to GP31 (02 R45, R46). -/
structure Pin where
  /-- 2 bits; 02 R45, R46. Reset: F0. -/
  func : Nat := 0
  /-- 2 bits; 02 R48, 05 R118 PULL. Reset: 1, 50 kOhm pull-down (R48). -/
  pull : Nat := 1
  /-- count; 02 R46 the first pin bound to an instance. Reset: DESIGN CHOICE 0 (log 6). -/
  order : Nat := 0
deriving DecidableEq, Repr

/-- Power, reset, boot, life cycle, profile and pins (02, 03). -/
structure Sys where
  /-- 4 bits; 00 R2 DEVID.VARIANT. Reset: DESIGN CHOICE 0x1, VZ484-N (log 6). -/
  variant : Nat := 1
  /-- 128 bits; 03 R77 UID, fixed at wafer test. Reset: DESIGN CHOICE 0 (log 6). -/
  uid : List Byte := zeros 16
  /-- 2 bits; 03 R56, R57 the rails. Reset: DESIGN CHOICE rails 2 to 5 starting (log 2). -/
  pwr : Pwr := .starting
  /-- 4 bits; 03 R72 BOOTSTAT.STEP. Reset: 0. -/
  boot : Nat := 0
  /-- 2 bits; 02 R51 reference clock chosen at the rise of the rails. Reset: DESIGN CHOICE none chosen yet (log 6). -/
  clkSrc : ClkSrc := .unset
  /-- 4 bits; 03 R63 RSTCAUSE.CAUSE. Reset: 0x1. -/
  cause : Nat := 1
  /-- 1 bit; 03 R63 RSTCAUSE.FULL. Reset: 1. -/
  full : Bool := true
  /-- 16 bits saturating; 03 R63 RSTCAUSE.COUNT. Reset: 0. -/
  starts : Nat := 0
  /-- 32 bits; 03 R64 STARTID. Reset: From eMRAM, incremented at each C-die start; DESIGN CHOICE 0 until the first (log 6). -/
  startId : Nat := 0
  /-- 4 bits; 03 R63 cause of the start in preparation. Reset: DESIGN CHOICE 0x1, as CAUSE (log 6). -/
  nextCause : Nat := 1
  /-- 1 bit; 03 R63 the start in preparation follows a full reset. Reset: DESIGN CHOICE 1, as FULL (log 6). -/
  nextFull : Bool := true
  /-- 2 bits; 03 R72 PATCH. Reset: 0. -/
  patch : Nat := 0
  /-- 2 bits; 03 R72 BCR. Reset: 0. -/
  bcr : Nat := 0
  /-- 2 bits; 03 R72 KEORE. Reset: 0. -/
  keoreB : Nat := 0
  /-- 2 bits; 03 R72 RTSEC. Reset: 0. -/
  rtsec : Nat := 0
  /-- 2 bits; 03 R72 RTX. Reset: 0. -/
  rtx : Nat := 0
  /-- 2 bits; 03 R72 APPL. Reset: 0. -/
  appl : Nat := 0
  /-- 1 bit; 03 R72 WARM. Reset: 0. -/
  warm : Bool := false
  /-- 5 x 32 bits; 03 R74 fuse word of each state MANUF to RETIRED. Reset: DESIGN CHOICE 0, BLANK (log 7). -/
  lcWord : Tab Nat := []
  /-- 4 bits; 03 R77 LCSTATE.CUR. Reset: from fuses: BLANK (log 7). -/
  lcCur : Nat := 0
  /-- 4 x 32 bytes; 03 R76 owner key hashes, empty when not fused. Reset: DESIGN CHOICE none fused (log 7). -/
  keyHash : Tab (List Byte) := []
  /-- 32 bytes; 03 R76 Thenuvex key hash. Reset: DESIGN CHOICE 0 (log 7). -/
  thHash : List Byte := zeros 32
  /-- 4 bits; 03 R76 revocation bit per owner key. Reset: DESIGN CHOICE 0 (log 7). -/
  revoked : Tab Bool := []
  /-- 6 x 0 to 31; 03 R76 security version counters of TYPE 1 to 6. Reset: DESIGN CHOICE 0 (log 7). -/
  svn : Tab Nat := []
  /-- SVN of each accepted stage, index TYPE x 4 + copy, bank or pair; 03 R76. Reset: none accepted. -/
  accSvn : Tab Nat := []
  /-- 8 x 64 bytes; 03 R68 MEAS. Reset: 0. -/
  meas : Tab (List Byte) := []
  /-- 16 bits saturating; 19 R495 EXT7. Reset: 0. -/
  ext7 : Nat := 0
  /-- 2 bits; 01 R29 PROFILE.CUR. Reset: 0 LATENCY. -/
  prof : Nat := 0
  /-- 2 bits; 01 R29 PROFILE.TARGET. Reset: 0. -/
  profTarget : Nat := 0
  /-- 1 bit; 01 R29 PROFILE.BUSY. Reset: 0. -/
  profBusy : Bool := false
  /-- 1 bit; 01 R26, R28 cores may be in the high-performance state. Reset: DESIGN CHOICE 1, profile LATENCY (log 6). -/
  hperf : Bool := true
  /-- 32 pins; 02 R45. Reset: R48. -/
  pins : Tab Pin := []
  /-- count; 02 R46 binding order. Reset: DESIGN CHOICE 0 (log 6). -/
  pinSeq : Nat := 0
  /-- real-time pairs held in reset; 03 R69 t8, R70; 21 R522 RT. Reset: all, until boot instant t8 releases them. -/
  rtHeld : List Nat := [0, 1, 2]
  /-- 3 x 4 bits; 18 R451, R473 tag of RT1, RT2 in force. Reset: 0. -/
  rtTag : Tab Nat := []
  /-- 1 bit, application cluster held in reset; 03 R69 t8, R70. Reset: 1, until boot instant t8 releases it. -/
  appHeld : Bool := true
  /-- 1 bit; 03 R69 t8, R71 LPDDR5 trained. Reset: DESIGN CHOICE 0 (log 6). -/
  ddrOk : Bool := false
  /-- real-time pairs whose stage failed from both sources; 03 R70. Reset: none. -/
  rtBad : List Nat := []
  /-- cycles of the latest reset; 03 R63 two sources in one cycle. Reset: DESIGN CHOICE 0 (log 6). -/
  resetAt : Nat := 0
  /-- 16 bits, 0x10000 none; request or grant of LPDDR5 training; 07 R164 DDRT. Reset: none. -/
  ddrH : Nat := 0x10000
  /-- 16 bits, 0x10000 none; grant of the high-performance state that SYS.PROFILE holds; 07 R164 HPERF. Reset: none. -/
  profH : Nat := 0x10000
  /-- SYS.PROFILE in progress; 01 R27. Reset: none. -/
  profCmd : Option Hdr := none
  /-- (unit, SYS.RESET) that waits for its unit to leave reset: 0 to 2 a real-time pair, 3 the application cluster; 03 R59. Reset: none. -/
  rstWait : List (Nat × Hdr) := []
  /-- MT/s; 03 R67, R71 data rate of LPDDR5. Reset: 3200, the rate without a BCR (R71). -/
  ddrRate : Nat := 3200
  /-- 2 x MHz of 8D-8D-8D, 0 for 1S-1S-1S at 50 MHz; 03 R67, R71 xSPI operating setting. Reset: 0 (R71). -/
  xspi : Tab Nat := []
  /-- bytes; 01 R30 fitted LPDDR5. Reset: DESIGN CHOICE 4 GiB (log 6). -/
  ddrSize : Nat := 0x100000000
deriving DecidableEq, Repr

/-- One Halyard command ring (04 R80-R88, R107-R110). -/
structure Ring where
  /-- 1 bit; 04 R82, R109 ENABLED. Reset: 1 for rings 0 and 1, else 0. -/
  enabled : Bool := false
  /-- 2 bits; 04 R109 STAT.STATE. Reset: DETACHED. -/
  st : Nat := 0
  /-- 4 bits; 04 R109 STAT.SIZE. Reset: 0. -/
  size : Nat := 0
  /-- 4 bits; 04 R109 STAT.ERR. Reset: 0. -/
  err : Nat := 0
  /-- 32 bits; 04 R107 ATTACH_BASE as last written. Reset: DESIGN CHOICE 0, write-only (log 6). -/
  baseLo : Nat := 0
  /-- 40 bits; 04 R107 BASE_LO, BASE_HI. Reset: 0. -/
  base : Nat := 0
  /-- 32 bits; 04 R85. Reset: 0. -/
  cmdHead : Nat := 0
  /-- 32 bits; 04 R85. Reset: 0. -/
  cmdTail : Nat := 0
  /-- 32 bits; 04 R85. Reset: 0. -/
  cplHead : Nat := 0
  /-- 32 bits; 04 R85. Reset: 0. -/
  cplTail : Nat := 0
  /-- 10 bits; 04 R100, R110. Reset: 48. -/
  quota : Nat := 48
  /-- 8 bits; 04 R100, R110. Reset: 8. -/
  fwQuota : Nat := 8
  /-- 16 bits; 04 R88, 05 R128 completion event line. Reset: 0xFFFF none (R88). -/
  line : Nat := 0xFFFF
  /-- 32 bits saturating; 04 R107. Reset: 0. -/
  rejCnt : Nat := 0
  /-- 32 bits saturating; 04 R107. Reset: 0. -/
  busyCnt : Nat := 0
  /-- 1 bit; 04 R109 fetching stopped by a memory error. Reset: 0. -/
  stopped : Bool := false
deriving DecidableEq, Repr

/-- A completion that has fallen due (04 R92). -/
structure Cpl where
  /-- 4 bits; 04 R92. Reset: none held. -/
  ring : Nat := 0
  /-- 16 bits; 04 R92. Reset: none held. -/
  ctag : Nat := 0
  /-- 8 bits; 04 R93. Reset: none held. -/
  status : Status := .ok
  /-- 8 bits; 04 R93. Reset: none held. -/
  detail : Nat := 0
  /-- 64 bits; 04 R92 RESULT. Reset: none held. -/
  result : Nat := 0
  /-- 32 bits; 04 R92 TIME. Reset: none held. -/
  time : Nat := 0
  /-- 1 bit; 04 R90. Reset: none held. -/
  irq : Bool := false
  /-- 1 bit; 04 R93. Reset: none held. -/
  final : Bool := true
  /-- 1 bit; 04 R94 completion of a command refused for its duplicate CTAG. Reset: none held. -/
  dup : Bool := false
deriving DecidableEq, Repr

/-- One entry of the in-flight table (04 R100, R101). -/
structure InFl where
  /-- 4 bits; 04 R101. Reset: none held. -/
  ring : Nat := 0
  /-- 16 bits; 04 R101. Reset: none held. -/
  ctag : Nat := 0
  /-- 16 bits; 04 R101. Reset: none held. -/
  opcode : Nat := 0
  /-- 8 bits; 04 R101 STATE. Reset: none held. -/
  st : Nat := 1
  /-- 1 bit; 04 R101 FLAGS. Reset: none held. -/
  interim : Bool := false
  /-- 32 bits; 04 R101 FETCHED. Reset: none held. -/
  fetched : Nat := 0
  /-- 32 bits; 04 R101 INDEX. Reset: none held. -/
  index : Nat := 0
  /-- 1 bit; 04 R90. Reset: none held. -/
  irq : Bool := false
  /-- 1 bit; 04 R95. Reset: none held. -/
  fw : Bool := false
  /-- 1 bit; 04 R94, R100 the entry of a command refused for its duplicate CTAG. Reset: none held. -/
  dup : Bool := false
  /-- 64 bytes; 04 R89 the packet as fetched. Reset: none held. -/
  pkt : List Byte := []
deriving DecidableEq, Repr

/-- An operation whose final completion is still to come (04 R98). -/
structure Op where
  /-- ring, CTAG, IRQ, EPOCH; 04 R98. Reset: none held. -/
  h : Hdr := {}
  /-- the command; 04 R98, the opcode's chapter. Reset: none held. -/
  cmd : Instr := .keoreStartComplete
  /-- the data the device read for it; 04 R91. Reset: none held. -/
  data : List Byte := []
  /-- 16 bits, 0x10000 none; 07 R179 its request or grant. Reset: none held. -/
  handle : Nat := 0x10000
  /-- 1 bit; 04 R98 its grant has come. Reset: none held. -/
  running : Bool := false
  /-- cycles; 04 R98 when it was applied. Reset: none held. -/
  since : Nat := 0
  /-- bytes; 19 R487, R496 its own copy of the key, or the Hallmark body captured at its start. Reset: none held. -/
  key : List Byte := []
  /-- 64 bits; 19 R496 capture instant. Reset: none held. -/
  t : Nat := 0
  /-- cycles; 19 R493, R496 the fabric cycle it started in. Reset: none held. -/
  began : Nat := 0
deriving DecidableEq, Repr

/-- The Halyard transport (04). -/
structure Hal where
  /-- 16 rings; 04 R80. Reset: as each ring. -/
  rings : Tab Ring := []
  /-- up to 768; 04 R100. Reset: empty. -/
  inflight : List InFl := []
  /-- list; 04 R88 completions waiting for a slot. Reset: empty. -/
  due : List Cpl := []
  /-- up to 128 of (ring, CTAG); 04 R102. Reset: empty. -/
  mpq : List (Nat × Nat) := []
  /-- list; 04 R98. Reset: empty. -/
  ops : List Op := []
  /-- 4 bits; 04 R94 ring of the last fetch turn. Reset: DESIGN CHOICE 15, so ring 0 is first (log 6). -/
  rr : Nat := 15
  /-- 1 bit; 04 R102 the next MP turn is ring 0's. Reset: DESIGN CHOICE ring 0 first (log 6). -/
  mpZero : Bool := true
  /-- 4 bits; 04 R102 last other ring served. Reset: DESIGN CHOICE 15 (log 6). -/
  mpRr : Nat := 15
  /-- 1 bit; 04 R103 the MP stopped by a fault. Reset: 0 (R111 MPUP follows boot). -/
  mpFault : Bool := false
deriving DecidableEq, Repr

/-- One admission budget (07 R161-R163, R181). -/
structure Budget where
  /-- 32 bits; 07 R161. Reset: 100 000 mA; 6000 mW for budget 4. -/
  limit : Nat := 100000
  /-- 32 bits; 07 R161. Reset: 20 000 mA; 0 for budget 4. -/
  reserve : Nat := 20000
  /-- 32 bits; 07 R161. Reset: 200 000 mA ms; 0 for budget 4. -/
  cap : Nat := 200000
  /-- signed, 1/10000 mA ms; 07 R163 LEVEL. Reset: CAP. -/
  level : Int := 2000000000
  /-- 16 bits saturating; 07 R171, R182. Reset: 0. -/
  overCnt : Nat := 0
  /-- 4 bits; 07 R174 tag of the previous grant. Reset: DESIGN CHOICE 15, so tag 0 is first (log 6). -/
  lastTag : Nat := 15
  /-- 16 bits, 0x10000 none; 07 R175 handle that holds the budget. Reset: none. -/
  hold : Nat := 0x10000
deriving DecidableEq, Repr

/-- One entry of the admission table (07 R179, R180). -/
structure AdmEnt where
  /-- 2 bits; 07 R180 STATE. Reset: 0 empty. -/
  st : Nat := 0
  /-- 8 bits; 07 R179 reuse count. Reset: DESIGN CHOICE 0 (log 6). -/
  count : Nat := 0
  /-- 8 bits; 05 R117. Reset: 0. -/
  typ : Nat := 0
  /-- 8 bits; 07 R180. Reset: 0. -/
  bud : Nat := 0
  /-- 32 bits; 07 R180. Reset: 0. -/
  amount : Nat := 0
  /-- 32 bits; 07 R180. Reset: 0. -/
  charge : Nat := 0
  /-- 32 bits, 0xFFFFFFFF until the operation ends; 07 R180. Reset: 0. -/
  dur : Nat := 0
  /-- cycles; 07 R170 deadline on elapsed time, once it is fixed. Reset: none held. -/
  deadCyc : Nat := 0
  /-- 64 bits; 07 R170 trigger of a scheduler action that device time has not reached: the deadline is counted from it. Reset: none. -/
  trig : Option Nat := none
  /-- 24 bits, us; 07 R170 the deadline's length. Reset: none held. -/
  dl : Nat := 0
  /-- cycles; 07 R170, R175 arrival. Reset: none held. -/
  arrCyc : Nat := 0
  /-- cycles, 0 until the operation ends; 07 R166 end of DURATION. Reset: none held. -/
  endCyc : Nat := 0
  /-- 32 bits; 07 R180 DEADLINE. Reset: 0. -/
  deadDt : Nat := 0
  /-- 32 bits; 07 R180 ARRIVAL. Reset: 0. -/
  arrDt : Nat := 0
  /-- 8 bits; 07 R180 REASON. Reset: 0. -/
  reason : Nat := 0
  /-- 1 bit; 07 R180 FLAGS bit 0. Reset: 0. -/
  prio : Bool := false
  /-- 8 bits; 07 R180 ORIGIN. Reset: 0. -/
  origin : Nat := 0
  /-- 4 bits; 07 R180 requesting tag. Reset: 0. -/
  tag : Nat := 0
  /-- count; 07 R174 order of arrival. Reset: none held. -/
  seq : Nat := 0
  /-- who is answered; 07 R164 origins. Reset: none held. -/
  client : Client := .none
deriving DecidableEq, Repr

/-- A PRIORITY grant outside the table (07 R179). -/
structure PrioOut where
  /-- 3 bits; 07 R179. Reset: none held. -/
  bud : Nat := 0
  /-- 32 bits; 07 R179. Reset: none held. -/
  amount : Nat := 0
  /-- 6 bits; 07 R179 its channel. Reset: none held. -/
  ch : Nat := 0
  /-- cycles; 07 R166. Reset: none held. -/
  endCyc : Nat := 0
deriving DecidableEq, Repr

/-- The admission controller (07). -/
structure Adm where
  /-- 5 budgets; 07 R161. Reset: as each budget. -/
  bud : Tab Budget := []
  /-- 256 entries; 07 R179. Reset: empty. -/
  tab : Tab AdmEnt := []
  /-- list; 07 R179. Reset: empty. -/
  outside : List PrioOut := []
  /-- 1 bit; 07 R182 WINCTL. Reset: 0. -/
  winEn : Bool := false
  /-- 32 bits; 07 R182. Reset: 0. -/
  frame : Nat := 0
  /-- 32 bits; 07 R182. Reset: 0. -/
  phase : Nat := 0
  /-- 32 bits; 07 R182. Reset: 0. -/
  length : Nat := 0
  /-- 64 bits; 07 R182. Reset: 0. -/
  start : Nat := 0
  /-- 32 bits saturating; 07 R182. Reset: 0. -/
  defCnt : Nat := 0
  /-- 32 bits saturating; 07 R182. Reset: 0. -/
  refCnt : Nat := 0
  /-- count; 07 R174 next arrival number. Reset: DESIGN CHOICE 0 (log 6). -/
  seq : Nat := 0
  /-- cycles of the last refill; 07 R163 every 10 us. Reset: DESIGN CHOICE 0 (log 6). -/
  refillAt : Nat := 0
  /-- budgets whose grant ended in this cycle; 07 R173. Reset: none. -/
  ended : List Nat := []
deriving DecidableEq, Repr

/-- A pending CHAN.CAPTURE (08 R207). -/
structure Capture where
  /-- 4 bits; 08 R207, 20 R507. Reset: none held. -/
  tag : Nat := 0
  /-- 16 bits; 08 R207. Reset: none held. -/
  ctag : Nat := 0
  /-- 1 bit; 04 R90. Reset: none held. -/
  irq : Bool := false
  /-- 40 bits; 08 R207 OUT. Reset: none held. -/
  addr : Nat := 0
  /-- 1 bit; 08 R207. Reset: none held. -/
  kind : Nat := 0
  /-- 12 bits; 08 R207. Reset: none held. -/
  count : Nat := 0
  /-- 1 bit; 08 R207 triggered, or at the interval boundary. Reset: none held. -/
  started : Bool := false
  /-- 1 bit; 08 R207 the trigger was a protective shutdown. Reset: none held. -/
  shut : Bool := false
  /-- (device time, whether a shutdown); 08 R207 the trigger event has come. Reset: none. -/
  trig : Option (Nat × Bool) := none
  /-- bytes; 20 R507 record bytes written so far. Reset: none held. -/
  done : Nat := 0
  /-- record bytes; 08 R207 KIND 0 records taken and not yet read. Reset: none held. -/
  buf : List Byte := []
  /-- 13 bits; 08 R207 KIND 0 records taken. Reset: none held. -/
  taken : Nat := 0
  /-- 64 bits; 08 R207 START. Reset: none held. -/
  start : Nat := 0
  /-- far address of the next record; 20 R507. Reset: none held. -/
  far : Nat := 0
  /-- 1 bit; 08 R207 FLAGS bit 0. Reset: none held. -/
  satF : Bool := false
deriving DecidableEq, Repr

/-- One load channel CH00 to CH39 (08, 09). -/
structure Chan where
  /-- 64 bytes; 08 R185. Reset: VERSION 0x01, rest 0. -/
  cfg : List Byte := chanRecDefault
  /-- 4 bits; 08 R188. Reset: OFF. -/
  st : ChState := .off
  /-- 2 bits; 08 R188, R208 DUTY [17:16]. Reset: OFF. -/
  act : Act := .off
  /-- 10 bits; 08 R208 DUTY. Reset: 0. -/
  duty : Nat := 0
  /-- cycle of the last command applied; 01 R18 one per fabric cycle. Reset: none. -/
  cmdAt : Option Nat := none
  /-- 1 bit; 08 R210 OUT. Reset: 0. -/
  out : Bool := false
  /-- 2 bits; 09 R235 held output. Reset: DESIGN CHOICE Off (log 6). -/
  held : Held := .off
  /-- list; 01 R18, 21 R522 what holds the channel. Reset: none. -/
  holds : List HoldBy := []
  /-- 1 bit; 09 R230 HOLDTRIP. Reset: 0. -/
  trip : Bool := false
  /-- 1 bit; 09 R235 a shutdown has switched the output off during the present hold. Reset: DESIGN CHOICE 0 (log 6). -/
  holdShut : Bool := false
  /-- 8 bits saturating; 09 R219. Reset: 0. -/
  retry : Nat := 0
  /-- 3 bits; 09 R230 CAUSE. Reset: 0. -/
  cause : Nat := 0
  /-- 1 bit; 09 R230. Reset: 0. -/
  stb : Bool := false
  /-- 1 bit; 09 R230. Reset: 0. -/
  olOff : Bool := false
  /-- 1 bit; 09 R230. Reset: 0. -/
  olOn : Bool := false
  /-- 1 bit; 09 R230 LIMIT. Reset: 0. -/
  limit : Bool := false
  /-- cycles; 09 R214 limiting time accumulated. Reset: DESIGN CHOICE 0 (log 6). -/
  limCyc : Nat := 0
  /-- cycles; 09 R214 start of the limiting in progress. Reset: DESIGN CHOICE 0 (log 6). -/
  limAt : Nat := 0
  /-- cycles; 09 R214 SC start of limiting with low VOUT. Reset: DESIGN CHOICE 0 (log 6). -/
  scAt : Nat := 0
  /-- cycles; 09 R214 SC limiting time accumulated in PWM. Reset: DESIGN CHOICE 0 (log 6). -/
  scCyc : Nat := 0
  /-- cycles; 08 R196 start of the running period. Reset: DESIGN CHOICE 0 (log 6). -/
  perAt : Nat := 0
  /-- cycles; 08 R196 on-time of the running period, fixed at its start. Reset: DESIGN CHOICE 0 (log 6). -/
  perOn : Nat := 0
  /-- signed; 08 R197 number of the running period on the grid. Reset: DESIGN CHOICE 0 (log 6). -/
  per : Int := 0
  /-- mA; 08 R194, 09 R215 current that the load draws, or would draw without the limit. Reset: DESIGN CHOICE 0 (log 6). -/
  load : Nat := 0
  /-- mV; 09 R214 VOUT while the current is limited. Reset: DESIGN CHOICE 0 (log 6). -/
  limV : Nat := 0
  /-- 1 bit; 09 R214 limiting seen in the running period. Reset: DESIGN CHOICE 0 (log 6). -/
  limPer : Bool := false
  /-- 1 bit; 09 R214 SC limiting with VOUT below 40 % now. Reset: DESIGN CHOICE 0 (log 6). -/
  scOn : Bool := false
  /-- 32 bits saturating; 08 R208 REFCNT. Reset: 0. -/
  refCnt : Nat := 0
  /-- 4 bits; 08 R211 DCRES.OUTCOME. Reset: 0. -/
  dcOut : Nat := 0
  /-- 4 bits; 08 R211 DCRES.STATE. Reset: 0. -/
  dcSt : Nat := 0
  /-- 64 bits; 08 R208 TCHG. Reset: 0. -/
  tchg : Nat := 0
  /-- 32 bits signed, 0.1 mA; 08 R206 CUR. Reset: 0. -/
  cur : Int := 0
  /-- 1 bit; 08 R206 CUR restarts from the first sample. Reset: DESIGN CHOICE 1 (log 6). -/
  curFresh : Bool := true
  /-- 32 bits; 08 R206 CURPK. Reset: 0. -/
  curPk : Nat := 0
  /-- 16 bits signed, 2 mV; 08 R208 VOUT. Reset: 0. -/
  vout : Int := 0
  /-- signed, 0.1 mA; 08 R204 latest current sample. Reset: DESIGN CHOICE 0 (log 6). -/
  smp : Int := 0
  /-- 1 bit; 08 R210 FINE. Reset: 0. -/
  fine : Bool := false
  /-- 1 bit; 08 R210 SAT. Reset: 0. -/
  sat : Bool := false
  /-- 8 bits; 08 R210 TEMP. Reset: Measured; DESIGN CHOICE 25 C (log 6). -/
  tj : Int := 25
  /-- sum of samples; 08 R206 PWMSYNC mean of the on-time samples. Reset: DESIGN CHOICE 0 (log 6). -/
  onSum : Int := 0
  /-- count; 08 R206 PWMSYNC samples in the on-time. Reset: DESIGN CHOICE 0 (log 6). -/
  onN : Nat := 0
  /-- 8 bits; 08 R199 lowest member of its Bunting, 0xFF none. Reset: none. -/
  bunt : Nat := 0xFF
  /-- 16 bits; 04 R104. Reset: 0. -/
  epoch : Nat := 0
  /-- cycles; 08 R193, R194 t0 of the last turn-on. Reset: DESIGN CHOICE 0 (log 6). -/
  t0 : Nat := 0
  /-- 1 bit; 08 R186, R206 the turn-on asked for is one from OFF. Reset: DESIGN CHOICE 0 (log 6). -/
  fromOff : Bool := false
  /-- tenths; 08 R186 BOOST in force since the last turn-on from OFF. Reset: DESIGN CHOICE 0 (log 6). -/
  boost : Nat := 0
  /-- ms; 08 R186 BWIN in force since the last turn-on from OFF. Reset: DESIGN CHOICE 0 (log 6). -/
  bwin : Nat := 0
  /-- cycles; 08 R193 end of the boost window. Reset: DESIGN CHOICE 0 (log 6). -/
  bwinEnd : Nat := 0
  /-- 64 bits, ns; 08 R197 first period start. Reset: DESIGN CHOICE 0 (log 6). -/
  grid : Nat := 0
  /-- 1 bit; 09 R222 a period grid is kept. Reset: DESIGN CHOICE 0 (log 6). -/
  gridOk : Bool := false
  /-- cycles; 09 R223 start of the unbroken second in ON or PWM. Reset: DESIGN CHOICE 0 (log 6). -/
  onCyc : Nat := 0
  /-- cycles; 09 R221 instant of the last shutdown. Reset: DESIGN CHOICE 0 (log 6). -/
  shutCyc : Nat := 0
  /-- 8 bits; 09 R221 counter at the last shutdown. Reset: DESIGN CHOICE 0 (log 6). -/
  shutC : Nat := 0
  /-- 3 bits; 09 R216 shutdown that waits for the clamp's end, 0 none. Reset: DESIGN CHOICE 0 (log 6). -/
  clampShut : Nat := 0
  /-- cycle the run below THR began; 09 R228 50 ms. Reset: none. -/
  olLow : Option Nat := none
  /-- cycle the run at or above 1.25 THR began; 09 R228 50 ms. Reset: none. -/
  olHigh : Option Nat := none
  /-- 2 bits; 09 R229 previous off-state reading. Reset: DESIGN CHOICE 0 (log 6). -/
  offRead : Nat := 0
  /-- cycles; 09 R229 entry to OFF. Reset: DESIGN CHOICE 0 (log 6). -/
  offAt : Nat := 0
  /-- cycles; 09 R229 the last off-state test. Reset: DESIGN CHOICE 0 (log 6). -/
  testAt : Nat := 0
  /-- cycle the run of VOUT at or above 50 % began; 09 R229 10 ms. Reset: none. -/
  stbAt : Option Nat := none
  /-- 64 bits, ns; 08 R204 end of the interval in progress. Reset: DESIGN CHOICE 20 000, the first multiple (log 6). -/
  smpNext : Nat := 20000
  /-- 64 bits, ns; 08 R204 timestamp of the latest sample, the end of its interval. Reset: DESIGN CHOICE 0 (log 6). -/
  smpT : Nat := 0
  /-- cycles; 08 R204 end of the latest sample's interval. Reset: DESIGN CHOICE 0 (log 6). -/
  smpAt : Nat := 0
  /-- cycles; 08 R204 span of the latest sample. Reset: DESIGN CHOICE 0 (log 6). -/
  span : Nat := 0
  /-- 4 bits; 09 R238 state held before ORPHAN_HOLD. Reset: DESIGN CHOICE OFF (log 6). -/
  orphanSt : ChState := .off
  /-- cycles; 09 R238 end of OHOLD. Reset: DESIGN CHOICE 0 (log 6). -/
  orphanEnd : Nat := 0
  /-- 1 bit; 09 R239 an orphaned SAFE_HOLD. Reset: DESIGN CHOICE 0 (log 6). -/
  orphaned : Bool := false
  /-- 1 bit; 09 R239 the held output has been reached. Reset: DESIGN CHOICE 1 (log 6). -/
  held0 : Bool := true
  /-- 16 bits, 0x10000 none; 07 R166 its request or grant. Reset: none. -/
  handle : Nat := 0x10000
  /-- 1 bit; 07 R166 that handle is a grant. Reset: none. -/
  granted : Bool := false
  /-- the origin waiting for admission; 07 R172. Reset: none. -/
  via : Origin := .none
  /-- one capture; 08 R207. Reset: none. -/
  cap : Option Capture := none
deriving DecidableEq, Repr

/-- The Bunting position of lowest member n (08 R198-R203, R212). -/
structure BuntPos where
  /-- 16 bits; 04 R104. Reset: 0. -/
  epoch : Nat := 0
  /-- 4 bits; 08 R212 COUNT. Reset: 0. -/
  count : Nat := 0
  /-- 1 bit; 08 R212 IMBAL. Reset: 0. -/
  imbal : Bool := false
  /-- 2 bits: 0 none, 1 beyond 40 %, 2 within 30 %; 08 R203. Reset: DESIGN CHOICE 0 (log 6). -/
  imbRun : Nat := 0
  /-- cycles; 08 R203 start of that run. Reset: DESIGN CHOICE 0 (log 6). -/
  imbAt : Nat := 0
deriving DecidableEq, Repr

/-- One supply group VB0 to VB3 (09 R232, 08 R212). -/
structure Group where
  /-- 16 bits, 2 mV; 08 R212 VB[g]. Reset: 0. -/
  mv2 : Nat := 0
  /-- 1 bit; 09 R232 below the undervoltage threshold. Reset: DESIGN CHOICE 0 (log 6). -/
  uv : Bool := false
  /-- 1 bit; 09 R232 above the overvoltage threshold. Reset: DESIGN CHOICE 0 (log 6). -/
  ov : Bool := false
  /-- 1 bit; 09 R234 driven below PGND. Reset: DESIGN CHOICE 0 (log 6). -/
  rev : Bool := false
  /-- cycle the run below 4.8 V began; 09 R232 20 us. Reset: none. -/
  uvLow : Option Nat := none
  /-- cycle the run above 5.4 V began; 09 R232 1 ms. Reset: none. -/
  uvHigh : Option Nat := none
  /-- cycle the run above the rising overvoltage threshold began; 09 R232 100 us. Reset: none. -/
  ovHigh : Option Nat := none
  /-- cycle the run below the falling overvoltage threshold began; 09 R232 1 ms. Reset: none. -/
  ovLow : Option Nat := none
deriving DecidableEq, Repr

/-- A companion die's view of the C-die (09 R237). -/
structure Die where
  /-- C; 09 R214 P-die reference sensor. Reset: DESIGN CHOICE 25 (log 6). -/
  tref : Int := 25
  /-- 1 bit; 09 R231 LCH_DIETEMP active. Reset: DESIGN CHOICE 0 (log 6). -/
  hot : Bool := false
  /-- 1 bit; 09 R237 a keep-alive has made the C-die present since power-up. Reset: 0 (R237). -/
  seen : Bool := false
  /-- 1 bit; 09 R237. Reset: 0 (R237). -/
  absent : Bool := false
  /-- cycles; 09 R238. Reset: DESIGN CHOICE 0 (log 6). -/
  absentAt : Nat := 0
  /-- 1 bit; 09 R231 an orphan period to record. Reset: DESIGN CHOICE 0 (log 6). -/
  orphan : Bool := false
  /-- cycles; 09 R237 last keep-alive. Reset: DESIGN CHOICE 0 (log 6). -/
  lastKa : Nat := 0
  /-- 64 bits of ns and 32 of fraction; 01 R21, 06 R137, 09 R237 the die's replica of device time. Reset: DESIGN CHOICE 0 (log 6). -/
  dt : Nat := 0
deriving DecidableEq, Repr

/-- A channel command that waits for its fabric cycle (01 R18). -/
structure ChWait where
  /-- 1 to 4, the order of 01 R18: scheduler, Keore, direct register, Halyard. Reset: none held. -/
  rank : Nat := 4
  /-- 6 bits; 08 R188 the channel named. Reset: none held. -/
  ch : Nat := 0
  /-- 2 bits; 08 R188. Reset: none held. -/
  act : Act := .off
  /-- 10 bits; 08 R188. Reset: none held. -/
  duty : Nat := 0
  /-- who commanded it; 01 R17. Reset: none held. -/
  o : Origin := .none
  /-- 24 bits, us; 07 R170 admission deadline. Reset: none held. -/
  dl : Nat := 0
deriving DecidableEq, Repr

/-- The load channels (08, 09). -/
structure Lch where
  /-- 40 channels; 08 R183. Reset: as each channel. -/
  chan : Tab Chan := []
  /-- 40 positions; 08 R198. Reset: as each position. -/
  bunt : Tab BuntPos := []
  /-- 4 groups; 02 R39. Reset: as each group. -/
  grp : Tab Group := []
  /-- 2 dies; 01 R12. Reset: as each die. -/
  pdie : Tab Die := []
  /-- list, in the order in which they are applied; 01 R18. Reset: empty. -/
  wait : List ChWait := []
deriving DecidableEq, Repr

/-- One scheduler entry (06 R146-R158). -/
structure SEnt where
  /-- 32 bytes; 06 R146. Reset: 0. -/
  rcd : List Byte := zeros 32
  /-- 2 bits; 06 R148 EMPTY WRITTEN ARMED. Reset: EMPTY. -/
  st : Nat := 0
  /-- 4 bits; 06 R157 LAST. Reset: 0. -/
  last : Nat := 0
  /-- 32 bits; 06 R158 firings since arming, missed included. Reset: 0. -/
  fired : Nat := 0
  /-- 64 bits; 06 R149 next trigger not yet dispatched. Reset: 0. -/
  next : Int := 0
  /-- 1 bit; 06 R151 the next dispatch comes later than 4 us ahead. Reset: 0. -/
  late : Bool := false
  /-- 64 bits; 06 R156 trigger of a LATE firing that is to be made at once. Reset: none. -/
  owed : Option Nat := none
  /-- 16 bits; 04 R104. Reset: 0. -/
  epoch : Nat := 0
deriving DecidableEq, Repr

/-- A dispatched action not yet applied (06 R150, R155). -/
structure Disp where
  /-- 10 bits; 06 R150. Reset: none held. -/
  ent : Nat := 0
  /-- 64 bits; 06 R150 trigger instant. Reset: none held. -/
  trig : Nat := 0
  /-- 1 bit; 06 R151. Reset: none held. -/
  late : Bool := false
  /-- 1 bit; 06 R153 its admission request is queued. Reset: none held. -/
  wait : Bool := false
  /-- cycles; 06 R153 the action reached its channel, where it waits for its leave. Reset: none held. -/
  trigCyc : Nat := 0
  /-- 1 bit; 06 R150 a position entry's action. Reset: none held. -/
  pos : Bool := false
  /-- 16 bits, 0x10000 none; 06 R153 its leave, asked at dispatch. Reset: none held. -/
  handle : Nat := 0x10000
  /-- 2 bits: 0 none asked, 1 queued, 2 granted; 06 R153. Reset: none held. -/
  leave : Nat := 0
  /-- 4 bits; 06 R152 outcome of the checks at dispatch: 0 passed, else the refusal 0x4 or 0x5. Reset: none held. -/
  ok : Nat := 0
deriving DecidableEq, Repr

/-- The time-base scheduler (06). -/
structure Sch where
  /-- 1024 entries; 06 R146. Reset: EMPTY. -/
  ent : Tab SEnt := []
  /-- list; 06 R150. Reset: empty. -/
  disp : List Disp := []
  /-- cycle of the last dispatch; 06 R151 four entries per cycle. Reset: none. -/
  dispAt : Option Nat := none
  /-- 3 bits; 06 R151 entries dispatched in that cycle. Reset: DESIGN CHOICE 0 (log 6). -/
  dispN : Nat := 0
  /-- 32 bits saturating; 06 R159. Reset: 0. -/
  lateCnt : Nat := 0
  /-- 32 bits saturating; 06 R159. Reset: 0. -/
  missCnt : Nat := 0
  /-- 32 bits saturating; 06 R159. Reset: 0. -/
  refCnt : Nat := 0
deriving DecidableEq, Repr

/-- One switch input SW00 to SW47 (17 R423-R430). -/
structure Sw where
  /-- 1 bit; 17 R447 configured. Reset: 0. -/
  conf : Bool := false
  /-- 8 bits; 17 R447 WET. Reset: 0. -/
  wet : Nat := 0
  /-- 8 bits; 17 R447 DEB. Reset: 0. -/
  deb : Nat := 0
  /-- 1 bit; 17 R447 wake source. Reset: 0. -/
  wake : Bool := false
  /-- 1 bit; 17 R447 active low. Reset: 0. -/
  low : Bool := false
  /-- 32 bits; 17 R447 MAXACT. Reset: 0. -/
  maxAct : Nat := 0
  /-- 16 bits; 17 R447 CHATTER. Reset: 0. -/
  chat : Nat := 0
  /-- 16 bits; 17 R447 WINDOW. Reset: 0. -/
  win : Nat := 0
  /-- debounced state; 17 R422, R424. Reset: none. -/
  filt : Option Bool := none
  /-- 1 bit; 17 R447 VALUE. Reset: 0. -/
  value : Bool := false
  /-- 1 bit; 17 R447 RAW. Reset: 0. -/
  raw : Bool := false
  /-- 1 bit; 17 R447 STUCK. Reset: 0. -/
  stuck : Bool := false
  /-- 1 bit; 17 R447 CHATTER flag. Reset: 0. -/
  chatF : Bool := false
  /-- 1 bit; 17 R447 UNSET. Reset: 0. -/
  unset : Bool := false
  /-- 1 bit; 17 R447 SMP. Reset: 0. -/
  smp : Bool := false
  /-- 32 bits; 17 R447 TSMP. Reset: 0. -/
  tsmp : Nat := 0
  /-- 64 bits; 17 R447 TEDGE. Reset: 0. -/
  tedge : Nat := 0
  /-- 32 bits wrapping; 17 R447 EDGECNT. Reset: 0. -/
  edges : Nat := 0
  /-- count; 17 R426 changes in the current window. Reset: DESIGN CHOICE 0 (log 6). -/
  winCnt : Nat := 0
  /-- count; 17 R428 last complete window since CHATTER was set. Reset: DESIGN CHOICE none (log 6). -/
  lastWin : Option Nat := none
  /-- cycles; 17 R425 start of the MAXACT count. Reset: DESIGN CHOICE 0 (log 6). -/
  actAt : Nat := 0
  /-- cycles; 17 R426 start of the current window. Reset: DESIGN CHOICE 0 (log 6). -/
  winAt : Nat := 0
  /-- cycles; 17 R422 restart of the run count: the last accepted level or INPUT.SW. Reset: DESIGN CHOICE 0 (log 6). -/
  filtAt : Nat := 0
  /-- 1 bit; 17 R430 an effective wake source at t0 of the last WAKE.MODULE. Reset: DESIGN CHOICE 0 (log 6). -/
  armed : Bool := false
  /-- 1 bit; 17 R430 reference level at WAKE.MODULE. Reset: DESIGN CHOICE 0 (log 6). -/
  ref : Bool := false
  /-- 0 to 2; 17 R430 consecutive differing sleep samples. Reset: DESIGN CHOICE 0 (log 6). -/
  diff : Nat := 0
deriving DecidableEq, Repr

/-- One analogue input AN00 to AN23 (17 R431-R433). -/
structure An where
  /-- 2 bits; 17 R447 assigned, converter. Reset: not assigned. -/
  conv : Option Nat := none
  /-- 8 bits; 17 R447 DEB. Reset: 0. -/
  deb : Nat := 0
  /-- 12 bits; 17 R447 VALUE. Reset: 0. -/
  value : Nat := 0
  /-- 1 bit; 17 R447 VALID. Reset: 0. -/
  valid : Bool := false
  /-- 1 bit; 17 R447 SAT. Reset: 0. -/
  sat : Bool := false
  /-- 12 bits and present; 17 R447 TRIGVAL. Reset: 0. -/
  trig : Option Nat := none
  /-- 32 bits; 17 R447 TTRIG. Reset: 0. -/
  ttrig : Nat := 0
  /-- (cycle, code) within TDEB; 17 R432. Reset: empty. -/
  hist : List (Nat × Nat) := []
deriving DecidableEq, Repr

/-- One analogue converter (17 R431, R433). -/
structure Conv where
  /-- 1 bit; 17 R431. Reset: 0. -/
  conf : Bool := false
  /-- 32 bits saturating; 17 R447 TRIGLATE. Reset: 0. -/
  trigLate : Nat := 0
  /-- cycles; 17 R433 instant the converter is free for the next trigger. Reset: DESIGN CHOICE 0 (log 6). -/
  free : Nat := 0
  /-- 5 bits; 17 R431 last input of the scan. Reset: DESIGN CHOICE none (log 6). -/
  last : Option Nat := none
  /-- cycles; 17 R431 earliest next conversion of the scan. Reset: DESIGN CHOICE 0 (log 6). -/
  scanAt : Nat := 0
deriving DecidableEq, Repr

/-- One position counter PC0 to PC3 (17 R434, R435; 06 R144). -/
structure Pc where
  /-- 1 bit; 17 R447 VALID. Reset: 0. -/
  conf : Bool := false
  /-- 2 bits; 17 R447 MODE. Reset: 0. -/
  mode : Nat := 0
  /-- 8 bits; 17 R447 DEB. Reset: 0. -/
  deb : Nat := 0
  /-- 1 bit; 17 R447 Z preset on. Reset: 0. -/
  zpre : Bool := false
  /-- 32 bits signed; 17 R447 PRESET. Reset: 0. -/
  preset : Int := 0
  /-- 32 bits signed; 17 R447 COUNT, 06 R159 POS. Reset: 0. -/
  count : Int := 0
  /-- filtered level; 17 R447 A. Reset: 0. -/
  a : Option Bool := none
  /-- filtered level; 17 R447 B. Reset: 0. -/
  b : Option Bool := none
  /-- filtered level; 17 R447 Z. Reset: 0. -/
  z : Option Bool := none
  /-- 16 bits saturating; 17 R447 ZCNT. Reset: 0. -/
  zcnt : Nat := 0
  /-- 16 bits saturating; 17 R447 ERRCNT. Reset: 0. -/
  errCnt : Nat := 0
  /-- cycles; 17 R422, R434 last accepted level of A, or the first INPUT.PC. Reset: DESIGN CHOICE 0 (log 6). -/
  aAt : Nat := 0
  /-- the same for B. Reset: DESIGN CHOICE 0 (log 6). -/
  bAt : Nat := 0
  /-- the same for Z. Reset: DESIGN CHOICE 0 (log 6). -/
  zAt : Nat := 0
deriving DecidableEq, Repr

/-- Switch, analogue and position inputs (17). -/
structure Inp where
  /-- 48 inputs; 17 R423. Reset: as each input. -/
  sw : Tab Sw := []
  /-- 24 inputs; 17 R431. Reset: as each input. -/
  an : Tab An := []
  /-- 2 converters; 17 R431. Reset: as each converter. -/
  conv : Tab Conv := []
  /-- 4 counters; 17 R434. Reset: as each counter. -/
  pc : Tab Pc := []
  /-- 48 bits; 17 R430 inputs that woke the module. Reset: 0. -/
  wakeSw : List Nat := []
  /-- 48 bits; 17 R447 WAKESW copied at the last C-die start. Reset: 0. -/
  wakeSwC : List Nat := []
deriving DecidableEq, Repr

/-- One isolated channel ISO00 to ISO15 (17 R436-R445). -/
structure IsoCh where
  /-- 2 bits; 17 R448 MODE. Reset: 3 not configured. -/
  mode : Nat := 3
  /-- 8 bits; 17 R448 DEB. Reset: 0. -/
  deb : Nat := 0
  /-- 1 bit; 17 R448 commanded value. Reset: 0. -/
  cmd : Bool := false
  /-- filtered level; 17 R448 VALUE. Reset: 0. -/
  filt : Option Bool := none
  /-- 1 bit; 17 R448 settled by R427. Reset: 0. -/
  unset : Bool := false
  /-- 1 bit; 17 R448 SMP. Reset: 0. -/
  smp : Bool := false
  /-- 32 bits; 17 R448 TSMP. Reset: 0. -/
  tsmp : Nat := 0
  /-- 64 bits; 17 R448 TEDGE. Reset: 0. -/
  tedge : Nat := 0
  /-- 1 bit; 17 R448 MISMATCH. Reset: 0. -/
  mism : Bool := false
  /-- 4 bits; 17 R448 CAUSE. Reset: 0. -/
  cause : Nat := 0
  /-- 32 bits saturating; 17 R448 MMCNT. Reset: 0. -/
  mmCnt : Nat := 0
  /-- 1 bit; 17 R448 HOLD. Reset: 0. -/
  hold : Bool := false
  /-- cycle the blanking ends; 17 R441. Reset: none. -/
  blank : Option Nat := none
  /-- (ring, CTAG, IRQ, TIME) of ISO.SET waiting for the blanking; 17 R440. Reset: none. -/
  wait : List (Nat × Nat × Bool × Nat) := []
  /-- 1 bit; 17 R442 junction not yet below 155 C. Reset: DESIGN CHOICE 0 (log 6). -/
  hot : Bool := false
  /-- cycles; 17 R422 restart of the run count: the last accepted level or ISO.CFG. Reset: DESIGN CHOICE 0 (log 6). -/
  filtAt : Nat := 0
  /-- cycles; 17 R441 end of the last blanking. Reset: DESIGN CHOICE 0 (log 6). -/
  blankAt : Nat := 0
deriving DecidableEq, Repr

/-- A write to an isolated output that waits for its turn in its fabric cycle (17 R440). -/
structure IsoWr where
  /-- 4 bits; 17 R440. Reset: none held. -/
  ch : Nat := 0
  /-- 1 bit; 17 R440 VALUE. Reset: none held. -/
  v : Bool := false
  /-- the ISO.SET, none for a Keore write; 17 R440. Reset: none held. -/
  h : Option Hdr := none
deriving DecidableEq, Repr

/-- The isolated I/O bank (17). -/
structure Iso where
  /-- 16 channels; 17 R436. Reset: as each channel. -/
  ch : Tab IsoCh := []
  /-- 1 bit; 17 R448 VFOK. Reset: 0. -/
  vfok : Bool := false
  /-- 16 bits, 10 mV; 17 R448 VFIELD. Reset: 0. -/
  vfield : Nat := 0
  /-- 1 bit; 17 R448 LINKOK. Reset: 0. -/
  linkok : Bool := false
  /-- the I-die; 17 R445. Reset: as each die. -/
  die : Die := {}
  /-- cycle since which VFIELD has been at or above 16 V; 17 R443. Reset: none. -/
  okRun : Option Nat := none
  /-- cycle since which VFIELD has been below 14 V; 17 R443. Reset: none. -/
  lowRun : Option Nat := none
  /-- writes of this fabric cycle that wait for their turn; 17 R440. Reset: none. -/
  wr : List IsoWr := []
deriving DecidableEq, Repr

/-- One gate control list (11 R283). -/
structure Gcl where
  /-- up to 256 of (GATES, INTERVAL); 11 R283. Reset: none: all gates open. -/
  ents : List (Nat × Nat) := []
  /-- 64 bits; 11 R283 base time. Reset: none. -/
  base : Nat := 0
  /-- 32 bits; 11 R283 CYCLE. Reset: none. -/
  cycle : Nat := 0
  /-- 64 bits; 11 R283 start instant S. Reset: none. -/
  start : Nat := 0
deriving DecidableEq, Repr

/-- A frame in transmission or preempted at an egress MAC (11 R281, R288). -/
structure Tx where
  /-- frame number; 11 R281. Reset: none held. -/
  frame : Nat := 0
  /-- 3 bits; 11 R281. Reset: none held. -/
  cls : Nat := 0
  /-- bytes; 11 R288 frame bytes already sent. Reset: none held. -/
  sent : Nat := 0
  /-- 1 bit; 10 R264 an express-lane frame. Reset: none held. -/
  express : Bool := false
  /-- 1 bit; 10 R261, R264 to be ended with an inverted FCS. Reset: none held. -/
  stomp : Bool := false
  /-- the octets put on the line, FCS included; 11 R277, R287, R290. Reset: none held. -/
  bytes : List Byte := []
  /-- cycles of the start of the preamble of this fragment; 11 R281, R288. Reset: none held. -/
  at_ : Nat := 0
  /-- bytes of this fragment after which it is due to end; 11 R288. Reset: none held. -/
  cutAt : Option Nat := none
deriving DecidableEq, Repr

/-- One switch port SP00 to SP19 (11). -/
structure Port where
  /-- 64 bytes; 11 R274. Reset: the reset values of R274. -/
  rcd : List Byte := []
  /-- 3 bits; 11 R271 LSTATE. Reset: DISABLED; UP for SP16 to SP19, enabled at reset. -/
  lst : LState := .disabled
  /-- 16 x 32 bits; 11 R295 CNT. Reset: 0. -/
  cnt : Tab Nat := []
  /-- 1 bit; 11 R295 PVERIFIED. Reset: 0. -/
  pver : Bool := false
  /-- list in force; 11 R283. Reset: none. -/
  gcl : Gcl := {}
  /-- 8 bits; 11 R295 current gate list entry. Reset: 0. -/
  gclIdx : Nat := 0
  /-- 8 bits; 11 R295 TSTAT gate states. Reset: 0xFF. -/
  gates : Nat := 0xFF
  /-- list waiting for its start instant; 11 R283. Reset: none. -/
  gclNew : Option Gcl := none
  /-- 8 x 32 bits; 11 R283 IDLESLOPE. Reset: DESIGN CHOICE 0, shaper off (log 6). -/
  slope : Tab Nat := []
  /-- 8 x signed, 2.5 * 10^-6 bit; 11 R284 credit. Reset: DESIGN CHOICE 0 (log 6). -/
  credit : Tab Int := []
  /-- cycles; 11 R284 instant of the credits. Reset: DESIGN CHOICE 0 (log 6). -/
  credAt : Nat := 0
  /-- frame numbers per class; 10 R250 ready frames. Reset: empty. -/
  ready : Tab (List Nat) := []
  /-- frame on the line; 11 R281. Reset: none. -/
  tx : Option Tx := none
  /-- preempted frame; 11 R288. Reset: none. -/
  pre : Option Tx := none
  /-- 2 bits; 11 R291 transmit AN in use. Reset: none. -/
  txSa : Option Nat := none
  /-- 1 bit; 11 R291 an SA has been enabled. Reset: 0. -/
  saEver : Bool := false
  /-- 16 bits, 0x10000 none; 11 R272 LINK request or grant. Reset: none. -/
  handle : Nat := 0x10000
  /-- cycles; 11 R272 start of training. Reset: DESIGN CHOICE 0 (log 6). -/
  trainAt : Nat := 0
  /-- cycle of the next LINK request; 11 R272. Reset: none. -/
  retryAt : Option Nat := none
  /-- cycles; 11 R292 sleep request sent. Reset: DESIGN CHOICE 0 (log 6). -/
  sleepAt : Nat := 0
  /-- 16 bits; 11 R273 in-band word received. Reset: DESIGN CHOICE 0 (log 6). -/
  word : Nat := 0
  /-- 1 bit; 11 R273 the in-band exchange has ended. Reset: DESIGN CHOICE 0 (log 6). -/
  exch : Bool := false
  /-- 1 bit; 11 R271 external PHY link status. Reset: DESIGN CHOICE 0 (log 6). -/
  mdioUp : Bool := false
  /-- 1 bit; 11 R271 USXGMII block lock. Reset: DESIGN CHOICE 0 (log 6). -/
  lock : Bool := false
  /-- 1 bit; 11 R290 a receive SA has been enabled. Reset: 0. -/
  rxEver : Bool := false
  /-- the octets last put on the line; 11 R277, R287, R288, R290. Reset: DESIGN CHOICE none (log 6). -/
  last : List Byte := []
  /-- 16 bits; 11 R273 in-band word sent. Reset: bit 0 set. -/
  txWord : Nat := 1
  /-- 64 bits; 01 R22 egress timestamp of the latest frame. Reset: DESIGN CHOICE 0 (log 6). -/
  txTime : Nat := 0
deriving DecidableEq, Repr

/-- One VLAN (11 R277). -/
structure Vlan where
  /-- 20 bits; 11 R277. Reset: DESIGN CHOICE 0, not configured (log 6). -/
  member : Nat := 0
  /-- 20 bits; 11 R277. Reset: DESIGN CHOICE 0 (log 6). -/
  untag : Nat := 0
deriving DecidableEq, Repr

/-- One forwarding entry (11 R278). -/
structure Fdb where
  /-- 1 bit; 11 R296. Reset: 0. -/
  valid : Bool := false
  /-- 1 bit; 11 R296. Reset: 0. -/
  static : Bool := false
  /-- 48 bits; 11 R296. Reset: 0. -/
  mac : Nat := 0
  /-- 12 bits; 11 R296. Reset: 0. -/
  vid : Nat := 0
  /-- 20 bits; 11 R296. Reset: 0. -/
  mask : Nat := 0
  /-- cycles; 11 R278 last refresh. Reset: none held. -/
  since : Nat := 0
deriving DecidableEq, Repr

/-- One stream filter (11 R285, R286). -/
structure Filt where
  /-- 24 bytes; 11 R285. Reset: DESIGN CHOICE 0, not enabled (log 6). -/
  rcd : List Byte := zeros 24
  /-- 32 bits; 11 R296 DROP. Reset: DESIGN CHOICE 0 (log 6). -/
  drop : Nat := 0
  /-- bits x 400 000; 11 R286 meter bucket. Reset: DESIGN CHOICE 0 (log 6). -/
  bucket : Nat := 0
  /-- cycles; 11 R286 last fill. Reset: DESIGN CHOICE 0 (log 6). -/
  since : Nat := 0
deriving DecidableEq, Repr

/-- One 802.1CB stream (11 R287). -/
structure Cb where
  /-- 16 bytes; 11 R287. Reset: DESIGN CHOICE 0, not enabled (log 6). -/
  rcd : List Byte := zeros 16
  /-- 16 bits; 11 R287 next sequence number generated. Reset: DESIGN CHOICE 0 (log 6). -/
  seq : Nat := 0
  /-- 16 bits; 11 R287 last accepted number; none takes any. Reset: DESIGN CHOICE none (log 6). -/
  rcv : Option Nat := none
  /-- accepted numbers in the window; 11 R287. Reset: empty. -/
  hist : List Nat := []
  /-- 32 bits; 11 R296. Reset: DESIGN CHOICE 0 (log 6). -/
  passed : Nat := 0
  /-- 32 bits; 11 R296. Reset: DESIGN CHOICE 0 (log 6). -/
  dups : Nat := 0
  /-- 32 bits; 11 R296. Reset: DESIGN CHOICE 0 (log 6). -/
  oow : Nat := 0
  /-- cycles; 11 R287 last frame passed. Reset: DESIGN CHOICE 0 (log 6). -/
  since : Nat := 0
deriving DecidableEq, Repr

/-- One MACsec SA, index port x 8 + DIR x 4 + AN (11 R290, R291). -/
structure Sa where
  /-- 2 bits; 11 R291 EMPTY INSTALLED IN_USE. Reset: EMPTY. -/
  st : Nat := 0
  /-- 8 bits; 11 R296. Reset: DESIGN CHOICE 0 (log 6). -/
  locket : Nat := 0
  /-- 44 bytes; 19 R490 SAK and salt copied at install. Reset: none held. -/
  key : List Byte := []
  /-- 64 bits; 11 R296 next or lowest acceptable PN. Reset: DESIGN CHOICE 0 (log 6). -/
  pn : Nat := 0
  /-- 64 bits; 11 R296. Reset: DESIGN CHOICE 0 (log 6). -/
  sci : Nat := 0
  /-- 32 bits; 11 R296. Reset: DESIGN CHOICE 0 (log 6). -/
  ssci : Nat := 0
  /-- 32 bits; 11 R296. Reset: DESIGN CHOICE 0 (log 6). -/
  count : Nat := 0
  /-- 1 bit; 11 R291 stopped at its last PN. Reset: DESIGN CHOICE 0 (log 6). -/
  stop : Bool := false
deriving DecidableEq, Repr

/-- The switch ports (11). -/
structure Net where
  /-- 20 ports; 11 R270. Reset: as each port. -/
  port : Tab Port := []
  /-- 4094 VLANs; 11 R277. Reset: not configured. -/
  vlan : Tab Vlan := []
  /-- 8192 entries; 11 R278. Reset: empty. -/
  fdb : Tab Fdb := []
  /-- 1024 filters; 11 R285. Reset: as each filter. -/
  filt : Tab Filt := []
  /-- 256 streams; 11 R287. Reset: as each stream. -/
  cb : Tab Cb := []
  /-- 48 SAs; 11 R290. Reset: EMPTY. -/
  sa : Tab Sa := []
  /-- (port, command, cycle of its DEADLINE) of NET.WAKE in progress; 11 R292. Reset: none. -/
  wakeOps : List (Nat × Hdr × Nat) := []
deriving DecidableEq, Repr

/-- A frame inside the switch (10 R242, R243). -/
structure Frame where
  /-- the frame bytes, FCS included; 10 R242. Reset: none held. -/
  bytes : List Byte := []
  /-- 64 bits; 10 R243 TSIN. Reset: none held. -/
  tsin : Nat := 0
  /-- 12 bits; 10 R243 LEN. Reset: none held. -/
  len : Nat := 0
  /-- 5 bits; 10 R243 IN. Reset: none held. -/
  inp : Nat := 0
  /-- 3 bits; 10 R243 CLASS. Reset: none held. -/
  cls : Nat := 0
  /-- 12 bits; 10 R243 VID. Reset: none held. -/
  vid : Nat := 0
  /-- 4 bits, PCP and DEI; 10 R243. Reset: none held. -/
  pcp : Nat := 0
  /-- 11 bits; 10 R243 STREAM. Reset: none held. -/
  stream : Nat := 0x7FF
  /-- 16 bits; 11 R287 R-TAG sequence number. Reset: none held. -/
  rtag : Option Nat := none
  /-- 1 bit; 10 R244 ERR. Reset: none held. -/
  err : Bool := false
  /-- 5 bits; 10 R255 MAXC at its admission. Reset: none held. -/
  maxc : Nat := 0
  /-- copies still inside; 10 R247. Reset: none held. -/
  refs : Nat := 0
deriving DecidableEq, Repr

/-- A frame that asks the fabric for its outputs (10 R258, R262). -/
structure FReq where
  /-- 5 bits, ingress port; 10 R258. Reset: none held. -/
  inp : Nat := 0
  /-- the frame; 10 R242. Reset: none held. -/
  frame : Frame := {}
  /-- egress ports in ascending order; 10 R247, R262. Reset: none held. -/
  outs : List Nat := []
  /-- 1 bit, replicated by 802.1CB; 10 R262. Reset: none held. -/
  repl : Bool := false
  /-- 1 bit, matches a filter with a flow meter; 10 R262. Reset: none held. -/
  metered : Bool := false
deriving DecidableEq, Repr

/-- A cell in use, index bank x 1024 + cell, with its descriptor (10 R244). -/
structure Cell where
  /-- frame number; 10 R242 the data of the cell. Reset: none held. -/
  frame : Nat := 0
  /-- 5 bits; 10 R242 cell number in the frame. Reset: none held. -/
  j : Nat := 0
  /-- 5 bits; 10 R243 OUT. Reset: none held. -/
  out : Nat := 0
  /-- 12 bits; 10 R244 SEQ. Reset: none held. -/
  seq : Nat := 0
  /-- 5 bits; 10 R244 IN. Reset: none held. -/
  inp : Nat := 0
  /-- 3 bits; 10 R244 CLASS. Reset: none held. -/
  cls : Nat := 0
  /-- 1 bit; 10 R244 FIRST. Reset: none held. -/
  first : Bool := false
  /-- 1 bit; 10 R244 LAST. Reset: none held. -/
  last : Bool := false
  /-- 1 bit; 10 R244 ERR. Reset: none held. -/
  err : Bool := false
  /-- 1 bit; 10 R244 DISC. Reset: none held. -/
  disc : Bool := false
  /-- 7 bits; 10 R244 VALID. Reset: none held. -/
  valid : Nat := 0
  /-- slot from which it may be read; 10 R248. Reset: none held. -/
  rd : Nat := 0
deriving DecidableEq, Repr

/-- One buffer bank (10 R241, R248, R259). -/
structure Bank where
  /-- free list, head first; none is cells 0 to 1023 in order; 10 R248. Reset: 1024 free cells. -/
  free : Option (List Nat) := none
  /-- 160 queue lists, index o x 8 + c; 10 R248. Reset: empty. -/
  q : Tab (List Nat) := []
  /-- (cell, o x 8 + c, slot it was written in); 10 R248. Reset: empty. -/
  pw : List (Nat × Nat × Nat) := []
  /-- (cell, slot of return); 10 R248. Reset: empty. -/
  pr : List (Nat × Nat) := []
  /-- 8 bits signed; 10 R260 LEAK. Reset: 0. -/
  leak : Int := 0
  /-- 1 bit; 10 R268 LOOP. Reset: 0. -/
  loop : Bool := false
  /-- 1024 bits; 10 R259 mark of each cell. Reset: 0. -/
  mark : Nat := 0
deriving DecidableEq, Repr

/-- A frame of an ingress FIFO being written into the banks (10 R247). -/
structure Copy where
  /-- frame number; 10 R247. Reset: none held. -/
  frame : Nat := 0
  /-- admitted egress ports, ascending; 10 R247. Reset: none held. -/
  outs : List Nat := []
  /-- next cell; 10 R247. Reset: none held. -/
  j : Nat := 0
  /-- next copy of that cell; 10 R247. Reset: none held. -/
  k : Nat := 0
deriving DecidableEq, Repr

/-- One lane, index (o x 20 + i) x 8 + c (10 R251-R254). -/
structure Lane where
  /-- 12 bits; 10 R251 EXP. Reset: 0. -/
  exp : Nat := 0
  /-- 12 bits; 10 R251 sequence counter. Reset: 0. -/
  nextSeq : Nat := 0
  /-- held cells, (SEQ, cell); 10 R252. Reset: empty. -/
  held : List (Nat × Cell) := []
  /-- released cells of the frame in progress; 10 R253. Reset: empty. -/
  cur : List Cell := []
  /-- 1 bit; 10 R253 discarding until the next FIRST. Reset: 0. -/
  skip : Bool := false
  /-- cycles; 10 R254 wait timer. Reset: 0. -/
  timer : Nat := 0
  /-- 64 bits; 10 R267 OLDSTART. Reset: 0. -/
  waitDt : Nat := 0
deriving DecidableEq, Repr

/-- The switch fabric (10). -/
structure Fab where
  /-- slots since the last initialisation; 10 R246. Reset: 0. -/
  slot : Nat := 0
  /-- 2 bits, cycle within the slot; 10 R241. Reset: 0. -/
  phase : Nat := 0
  /-- 20 banks; 10 R241. Reset: as each bank. -/
  bank : Tab Bank := []
  /-- 20 480 descriptors; 10 R244. Reset: none used. -/
  cells : Tab Cell := []
  /-- frames inside the switch; 10 R242. Reset: none. -/
  frames : Tab Frame := []
  /-- next frame number, the model's own; 10 R242. Reset: DESIGN CHOICE 0 (log 6). -/
  nextFrame : Nat := 0
  /-- 20 ingress FIFOs; 10 R247. Reset: empty. -/
  inq : Tab (List Copy) := []
  /-- 3200 lanes; 10 R251. Reset: 0. -/
  lane : Tab Lane := []
  /-- egress store cells, index o x 8 + c; 10 R250, R267 STOREC. Reset: 0. -/
  store : Tab Nat := []
  /-- QCNT, index o x 8 + c; 10 R255. Reset: 0. -/
  qcnt : Tab Nat := []
  /-- index o x 8 + c; 10 R258 step 2. Reset: 0. -/
  dropQ : Tab Nat := []
  /-- index o x 8 + c; 10 R258 step 3. Reset: 0. -/
  dropP : Tab Nat := []
  /-- index o x 8 + c; 10 R258 step 4. Reset: 0. -/
  dropG : Tab Nat := []
  /-- per output; 10 R254 GAPS. Reset: 0. -/
  gaps : Tab Nat := []
  /-- per output; 10 R252 LATE. Reset: 0. -/
  late : Tab Nat := []
  /-- per output; 10 R253 RSQDISC. Reset: 0. -/
  rsqDisc : Tab Nat := []
  /-- per output; 10 R249, R258 DROPLINK. Reset: 0. -/
  dropLink : Tab Nat := []
  /-- 2 bits: 0 none, 1 from t0, 2 from t1, 3 from t2; 10 R261. Reset: 0. -/
  init : Nat := 0
  /-- cycles of the latest instant of it; 10 R261. Reset: DESIGN CHOICE 0 (log 6). -/
  initAt : Nat := 0
  /-- slot after the one an input last used; 10 R246. Reset: 0. -/
  wSlot : Tab Nat := []
  /-- slot after the one a bank last read in; 10 R246. Reset: 0. -/
  rSlot : Tab Nat := []
  /-- cycles of the start of the latest audit pass; 10 R259. Reset: DESIGN CHOICE 0 (log 6). -/
  auditCyc : Nat := 0
  /-- banks the pass in progress has audited, 0 without one; 10 R259, R269. Reset: 0. -/
  auditK : Nat := 0
  /-- 1 bit; 10 R259 parity of the pass. Reset: DESIGN CHOICE 0 (log 6, 59). -/
  pass : Bool := false
  /-- frames whose first cell is complete in this fabric cycle and that wait for their admission; 10 R258, R263. Reset: none. -/
  req : List FReq := []
  /-- per output, the input whose express frame it took last; 10 R263. Reset: DESIGN CHOICE 19, so that input 0 is first (log 6). -/
  expLast : Tab Nat := []
  /-- 1 bit; 21 R524 admission stopped until FAULT.RECOVER. Reset: 0. -/
  initHold : Bool := false
  /-- 32 bits; 10 R268. Reset: 0. -/
  auditCnt : Nat := 0
  /-- 64 bits; 10 R268 AUDITEND. Reset: DESIGN CHOICE 0 (log 6). -/
  auditEnd : Nat := 0
  /-- 16 bits saturating; 10 R269 REINITCNT. Reset: 0. -/
  reinit : Nat := 0
  /-- 32 bits saturating; 10 R269. Reset: 0. -/
  reinitCells : Nat := 0
  /-- 32 bits saturating; 10 R269. Reset: 0. -/
  initDrop : Nat := 0
  /-- 32 bits saturating; 10 R269. Reset: 0. -/
  expFrm : Nat := 0
  /-- 32 bits saturating; 10 R269 STOMPCNT. Reset: 0. -/
  stomp : Nat := 0
  /-- 32 bits saturating; 10 R269. Reset: 0. -/
  inOvf : Nat := 0
  /-- 32 bits saturating; 10 R269. Reset: 0. -/
  bankSkip : Nat := 0
  /-- 32 bits saturating; 10 R269. Reset: 0. -/
  eccCor : Nat := 0
  /-- 32 bits saturating; 10 R269. Reset: 0. -/
  eccUnc : Nat := 0
deriving DecidableEq, Repr

/-- The setting of one fault source (21 R519, R520). -/
structure SrcCfg where
  /-- 2 bits; 21 R519, R520. Reset: default of R519. -/
  sev : Nat := 0
  /-- 1 bit; 21 R520 event enable. Reset: 0. -/
  ev : Bool := false
  /-- 9 bits; 21 R520 event line. Reset: DESIGN CHOICE 0 (log 6). -/
  line : Nat := 0
deriving DecidableEq, Repr

/-- One fault log entry, oldest first (21 R530). -/
structure LogEnt where
  /-- 8 bits; 21 R530 SOURCE. Reset: none held. -/
  src : Nat := 0
  /-- 2 bits; 21 R530 SEV. Reset: none held. -/
  sev : Nat := 0
  /-- 1 bit; 21 R530 INJECTED. Reset: none held. -/
  inj : Bool := false
  /-- 1 bit; 21 R530 RESTORED. Reset: none held. -/
  restored : Bool := false
  /-- 1 bit; 21 R530 REACTION PENDING. Reset: none held. -/
  pending : Bool := false
  /-- 1 bit; 21 R530 REACTION DONE. Reset: none held. -/
  done : Bool := false
  /-- 1 bit; 21 R530 PREEMPTED. Reset: none held. -/
  preempted : Bool := false
  /-- 16 bits saturating; 21 R530 COUNT. Reset: none held. -/
  count : Nat := 1
  /-- 64 bits; 21 R530 TFIRST. Reset: none held. -/
  tfirst : Nat := 0
  /-- 32 bits; 21 R530 TLAST. Reset: none held. -/
  tlast : Nat := 0
  /-- 32 bits; 21 R530 INFO. Reset: none held. -/
  info : Nat := 0
  /-- 32 bits; 21 R530 SEQ. Reset: none held. -/
  seq : Nat := 0
  /-- 16 bits; 21 R530 STARTS. Reset: none held. -/
  starts : Nat := 0
  /-- cycle of the first raise plus 1, 0 for a restored entry; 21 R528, the model's own. Reset: none held. -/
  at_ : Nat := 0
deriving DecidableEq, Repr

/-- One event line EV000 to EV511 (21 R540). -/
structure EvLine where
  /-- 32 bits; 21 R540 CFG. Reset: 0. -/
  cfg : Nat := 0
  /-- 1 bit; 21 R540 PEND. Reset: 0. -/
  pend : Bool := false
  /-- 32 bits wrapping; 21 R540 CNT. Reset: 0. -/
  cnt : Nat := 0
  /-- cycle plus 1 of the last pulse that drove its pin (KIND 4); 21 R540. Reset: DESIGN CHOICE 0, none (log 6). -/
  drove : Nat := 0
deriving DecidableEq, Repr

/-- The fault collector and the event router (21). -/
structure Flt where
  /-- 256 sources; 21 R520. Reset: defaults of R519. -/
  cfg : Tab SrcCfg := []
  /-- (source, INFO) of active condition sources; 21 R518, R542 SRCACT. Reset: none. -/
  active : List (Nat × Nat) := []
  /-- up to 64; 21 R530. Reset: empty. -/
  log : List LogEnt := []
  /-- 32 bits; 21 R530, R542 LOGSEQ. Reset: DESIGN CHOICE 0, empty mirror (log 6). -/
  seq : Nat := 0
  /-- 32 bits saturating; 21 R532 LOSTCNT. Reset: DESIGN CHOICE 0, empty mirror (log 6). -/
  lost : Nat := 0
  /-- 1 bit; 21 R533 a change not yet in the mirror. Reset: DESIGN CHOICE 0 (log 6). -/
  dirty : Bool := false
  /-- (source, INFO) of S2 holds of CH and CAN; 21 R522, R523. Reset: none. -/
  holds : List (Nat × Nat) := []
  /-- (source, INFO) of reactions waiting; 21 R529. Reset: none. -/
  waiting : List (Nat × Nat) := []
  /-- cycle plus 1 of the latest raise; 21 R518, R528. Reset: DESIGN CHOICE 0 (log 6). -/
  nowAt : Nat := 0
  /-- sources raised in that cycle; 21 R518, R538. Reset: none. -/
  nowSrc : List Nat := []
  /-- reactions of that cycle, the last of those waiting; 21 R528. Reset: DESIGN CHOICE 0 (log 6). -/
  nowWait : Nat := 0
  /-- reaction in progress; 21 R529, R542 REACTQ. Reset: none. -/
  cur : Option (Nat × Nat) := none
  /-- cycles of its start; 21 R522. Reset: DESIGN CHOICE 0 (log 6). -/
  curAt : Nat := 0
  /-- 1 bit; 21 R521 FSTAT.DEGR. Reset: 0. -/
  degr : Bool := false
  /-- 1 bit; 21 R524 device safe state holds. Reset: 0. -/
  safe : Bool := false
  /-- 1 bit; 21 R526 SAFE latch. Reset: 0. -/
  latch : Bool := false
  /-- 1 bit; 21 R524 the SAFE line is to be driven in the next cycle. Reset: DESIGN CHOICE 0 (log 6). -/
  safeReq : Bool := false
  /-- 8 bits; 21 R542 FSTAT.SAFESRC. Reset: 0. -/
  safeSrc : Nat := 0
  /-- cycle plus 1 of the demand that SAFESRC names; 21 R528. Reset: DESIGN CHOICE 0 (log 6). -/
  safeAt : Nat := 0
  /-- cycle of the reset demand; 21 R525 RSTPEND. Reset: 0. -/
  rst : Option Nat := none
  /-- 1 bit; 21 R536 SAFE_IN active. Reset: DESIGN CHOICE 0 (log 6). -/
  safeLow : Bool := false
  /-- 1 bit; 21 R522 FAB reaction demanded. Reset: 0. -/
  initReq : Bool := false
  /-- 1 bit; 21 R537 armed and locked. Reset: 0. -/
  wdi : Bool := false
  /-- 32 bits; 21 R537 TMAX. Reset: 0. -/
  wdiMax : Nat := 0
  /-- 32 bits; 21 R537 TMIN. Reset: 0. -/
  wdiMin : Nat := 0
  /-- cycles; 21 R537 previous toggle, arming or interval end. Reset: DESIGN CHOICE 0 (log 6). -/
  wdiAt : Nat := 0
  /-- cycle of the previous toggle; 21 R537. Reset: none. -/
  wdiPrev : Option Nat := none
  /-- 512 lines; 21 R540. Reset: 0. -/
  line : Tab EvLine := []
  /-- lines whose producers acted, not yet pulsed; 21 R541. Reset: none. -/
  pulses : List Nat := []
  /-- 32 bits saturating; 21 R540 EVREJ. Reset: 0. -/
  evRej : Nat := 0
  /-- 32 bits saturating; 21 R541 EVMERGE. Reset: 0. -/
  evMerge : Nat := 0
deriving DecidableEq, Repr

/-- One Bezel range (18 R452). -/
structure Bezel where
  /-- 4 bits; 18 R452. Reset: 0. -/
  tag : Nat := 0
  /-- 1 bit; 18 R452 ENABLE. Reset: 0. -/
  en : Bool := false
  /-- 1 bit; 18 R452. Reset: 0. -/
  r : Bool := false
  /-- 1 bit; 18 R452. Reset: 0. -/
  w : Bool := false
  /-- 1 bit; 18 R452. Reset: 0. -/
  x : Bool := false
  /-- 28 bits, 4 KiB pages; 18 R452. Reset: 0. -/
  base : Nat := 0
  /-- 32 bits, 4 KiB pages; 18 R452. Reset: 0. -/
  size : Nat := 0
  /-- 1 bit; 18 R455 FILL. Reset: 0. -/
  fill : Bool := false
deriving DecidableEq, Repr

/-- One Clasp message (18 R460). -/
structure Msg where
  /-- 32 bytes; 18 R460 MESSAGE. Reset: none held. -/
  bytes : List Byte := []
  /-- 64 bits; 18 R460 TPOST. Reset: none held. -/
  t : Nat := 0
  /-- 4 bits; 18 R460 SENDER. Reset: none held. -/
  sender : Nat := 0
  /-- 16 bits; 18 R460 SEQ. Reset: none held. -/
  seq : Nat := 0
deriving DecidableEq, Repr

/-- One Clasp (18 R459). -/
structure Clasp where
  /-- 1 bit; 18 R472 exists. Reset: 0. -/
  ex : Bool := false
  /-- 4 bits; 18 R459. Reset: 0. -/
  tagA : Nat := 0
  /-- 4 bits; 18 R459. Reset: 0. -/
  tagB : Nat := 0
  /-- 16 bits; 18 R459. Reset: 0. -/
  evA : Nat := 0
  /-- 16 bits; 18 R459. Reset: 0. -/
  evB : Nat := 0
  /-- up to 64, oldest first; 18 R459. Reset: empty. -/
  ab : List Msg := []
  /-- up to 64, oldest first; 18 R459. Reset: empty. -/
  ba : List Msg := []
  /-- 16 bits wrapping; 18 R472 POSTS. Reset: 0. -/
  postsAB : Nat := 0
  /-- 16 bits wrapping; 18 R472 POSTS. Reset: 0. -/
  postsBA : Nat := 0
  /-- 16 bits; 04 R104. Reset: 0. -/
  epoch : Nat := 0
deriving DecidableEq, Repr

/-- One clock or power gate (18 R463-R465). -/
structure Gate where
  /-- 1 bit; 18 R472. Reset: 0. -/
  cut : Bool := false
  /-- CUT commands pending; 18 R464, R465. Reset: none. -/
  pend : List Hdr := []
  /-- use count per tag, 0 to 15; 18 R465. Reset: 0. -/
  count : Tab Nat := []
deriving DecidableEq, Repr

/-- One DMA channel (01 R12, 18 R454, R456). -/
structure Dma where
  /-- 1 bit; 18 R456 enabled. Reset: DESIGN CHOICE 0 (log 6). -/
  en : Bool := false
  /-- 1 bit; 18 R454 transfer ended with an error. Reset: DESIGN CHOICE 0 (log 6). -/
  err : Bool := false
deriving DecidableEq, Repr

/-- The TEN.BEZEL in its zero fill (18 R455). -/
structure BezFill where
  /-- the command; 18 R455. Reset: none held. -/
  h : Hdr := {}
  /-- 5 bits; 18 R455. Reset: none held. -/
  range : Nat := 0
  /-- the new range; 18 R455. Reset: none held. -/
  bez : Bezel := {}
deriving DecidableEq, Repr

/-- Tenancy (18). -/
structure Ten where
  /-- owner tag of KIND x 65536 + unit; 01 R24, 18 R458. Reset: 0, tag 0 (R458). -/
  own : Tab Nat := []
  /-- 32 ranges; 18 R452. Reset: none enabled. -/
  bez : Tab Bezel := []
  /-- fill in progress; 18 R455. Reset: none. -/
  fill : Option BezFill := none
  /-- TEN.BEZEL commands queued behind it; 18 R455. Reset: none. -/
  bezQ : List (Hdr × Nat × Bezel) := []
  /-- 32 Clasps; 18 R459. Reset: absent. -/
  clasp : Tab Clasp := []
  /-- the gates of R463; 18 R463. Reset: on, counts 0. -/
  gate : Tab Gate := []
  /-- 64 channels; 01 R12. Reset: as each channel. -/
  dma : Tab Dma := []
  /-- 16 x 32 bits saturating; 18 R472 VIOL. Reset: 0. -/
  viol : Tab Nat := []
  /-- 40 bits; 18 R472 LASTV_LO, LASTV_HI. Reset: 0. -/
  lastAddr : Nat := 0
  /-- 32 bits; 18 R472 LASTV_INFO. Reset: 0. -/
  lastInfo : Nat := 0
  /-- 1 bit; 18 R472 TSTAT.DIRTY. Reset: 0. -/
  dirty : Bool := false
  /-- 1 bit; 18 R472 TSTAT bit 0. Reset: 0. -/
  applied : Bool := false
  /-- the saved table: owners; 18 R458; 03 R78 tag 0 firmware data. Reset: DESIGN CHOICE 0, tag 0 (log 6). -/
  svOwn : Tab Nat := []
  /-- the saved table: 32 Bezel ranges; 18 R458. Reset: DESIGN CHOICE none (log 6). -/
  svBez : Tab Bezel := []
  /-- the saved table: ends and event lines of the Clasps; 18 R458. Reset: DESIGN CHOICE absent (log 6). -/
  svClasp : Tab Clasp := []
  /-- the saved table: write permissions of Lockets; 18 R458; 19 R484. Reset: DESIGN CHOICE 0 (log 6). -/
  svPermit : Tab Bool := []
  /-- cycles; the next save attempt; 18 R458 repeated after 100 ms. Reset: DESIGN CHOICE 0 (log 6). -/
  saveAt : Nat := 0
  /-- 16 bits, 0x10000 none; handle of the save's request or grant; 18 R458. Reset: none. -/
  saveH : Nat := 0x10000
  /-- 6 x 4 bits, CSR MTAG; 18 R450. Reset: 0. -/
  mtag : Tab Nat := []
  /-- 6 x 4 bits, tag presented below machine mode; 18 R450. Reset: 0. -/
  mtagNow : Tab Nat := []
  /-- cores outside machine mode; 18 R450. Reset: DESIGN CHOICE none, all in machine mode (log 6). -/
  low : List Nat := []
deriving DecidableEq, Repr

/-- Debug (18 R466-R473). -/
structure Dbg where
  /-- 16 bits, non-invasive enables; 18 R467, R473. Reset: 0xFFFF in BLANK. -/
  ni : Nat := 0xFFFF
  /-- 16 bits, invasive enables; 18 R467, R473. Reset: 0xFFFF in BLANK. -/
  inv : Nat := 0xFFFF
  /-- 16 bits, sources enabled; 18 R471, R473. Reset: 0. -/
  trace : Nat := 0
  /-- 1 bit; 18 R473. Reset: 0. -/
  extest : Bool := false
  /-- unit codes halted; 18 R468, R473. Reset: none. -/
  halted : List Nat := []
  /-- (tag, unit code, address) of breakpoints; 18 R468. Reset: none. -/
  brk : List (Nat × Nat × Nat) := []
  /-- the last trace packet sent; 18 R471. Reset: DESIGN CHOICE none (log 6). -/
  out : List Byte := []
  /-- cycles of the last sync packet; 18 R471. Reset: DESIGN CHOICE 0 (log 6). -/
  syncAt : Nat := 0
  /-- 6 x 64 bits, ns; 18 R471 start of a traced core's period under another tag. Reset: DESIGN CHOICE none (log 6). -/
  gap : Tab Nat := []
deriving DecidableEq, Repr

/-- The response the last bus access ended with (01 R31, 18 R454). -/
structure Bus where
  /-- 1 bit bus error; 01 R31. Reset: DESIGN CHOICE 0 (log 6). -/
  err : Bool := false
  /-- data returned; 18 R453. Reset: DESIGN CHOICE empty (log 6). -/
  data : List Byte := []
deriving DecidableEq, Repr

/-- One segment: 0 to 7 CAN0-7, 8 to 15 LIN0-7, 16 to 21 SP10-15 (13). -/
structure Seg where
  /-- 2 bits: 0 Normal, 1 Listen-only, 2 Standby, 3 Sleep; 13 R330, R348. Reset: 2 Standby. -/
  xst : Nat := 2
  /-- cycle at which Standby becomes Sleep; 13 R330 TSTBY. Reset: none. -/
  sleepAt : Option Nat := none
  /-- 4 bits: 0 idle, 1 INDICATING, 2 COMMITTED, 3 waiting TRETRY; 13 R348 PSTATE. Reset: 0. -/
  pst : Nat := 0
  /-- 8 bits; 13 R340 SEQ. Reset: DESIGN CHOICE 0 (log 6). -/
  seq : Nat := 0
  /-- 16 bits; 13 R349 READY received. Reset: 0. -/
  ready : Nat := 0
  /-- 4 bits; 13 R349 attempts used. Reset: 0. -/
  tries : Nat := 0
  /-- cycle the READY window ends; 13 R342. Reset: none. -/
  winAt : Option Nat := none
  /-- 64 bits; 13 R349 commit point of the last COMMIT. Reset: 0. -/
  commit : Nat := 0
  /-- cycle of the commit point; 13 R342. Reset: none. -/
  commitAt : Option Nat := none
  /-- cycle TRETRY ends; 13 R342. Reset: none. -/
  retryAt : Option Nat := none
  /-- 1 bit, an ABORT after COMMIT has not ended; 13 R344. Reset: DESIGN CHOICE 0 (log 6). -/
  abort : Bool := false
  /-- 1 bit, a wake counts as after the commit point; 13 R344. Reset: DESIGN CHOICE 0 (log 6). -/
  woken : Bool := false
  /-- 1 bit; 13 R338 SEGLATCH. Reset: 0. -/
  latch : Bool := false
  /-- 16 bits, 0x10000 none; 13 R331 LINK request. Reset: none. -/
  handle : Nat := 0x10000
  /-- cycle the LINK request is repeated; 13 R331. Reset: none. -/
  retryLink : Option Nat := none
  /-- WAKE.XCVR to Normal that wait for the LINK grant; 05 R122. Reset: none. -/
  xh : List Hdr := []
  /-- 0 to 32; 13 R337 frame errors of the wake-up frame decoder. Reset: DESIGN CHOICE 0 (log 6). -/
  wufErr : Nat := 0
  /-- 1 bit, a segment of SP10 to SP15 had its link before Listen-only; 13 R330. Reset: DESIGN CHOICE 0 (log 6). -/
  lup : Bool := false
deriving DecidableEq, Repr

/-- One WAKE.INDICATE in progress (13 R343). -/
structure Ind where
  /-- the command; 13 R343. Reset: none held. -/
  h : Hdr := {}
  /-- 22 bits; 13 R343. Reset: none held. -/
  mask : Nat := 0
  /-- cycles; 13 R343 DEADLINE. Reset: none held. -/
  dead : Nat := 0
  /-- 4 bits; 13 R343. Reset: none held. -/
  attempts : Nat := 1
  /-- 1 bit, TIMEOUT decided, a commit point awaited; 13 R343. Reset: none held. -/
  past : Bool := false
deriving DecidableEq, Repr

/-- A T1 PHY on the M-die (02 R47; 03 R60; 11 R274, R292). -/
structure Phy where
  /-- 1 bit; 11 R292 in TC10 sleep. Reset: 0. -/
  asleep : Bool := false
  /-- 1 bit; 11 R271 link established. Reset: 0, no link. -/
  link : Bool := false
  /-- 8 bits; 11 R274 MODE configured. Reset: 0. -/
  mode : Nat := 0
  /-- 8 bits; 11 R274 ROLE configured. Reset: 0. -/
  role : Nat := 0
deriving DecidableEq, Repr

/-- Sleep and wake (13). -/
structure Wake where
  /-- 720 bytes; 13 R335. Reset: VERSION 0x01, rest 0. -/
  rcd : List Byte := 1 :: zeros 719
  /-- 22 segments; 13 R330. Reset: as each segment. -/
  seg : Tab Seg := []
  /-- 4 bits; 13 R334 LEVEL. Reset: 0b1111. -/
  level : Nat := 0xF
  /-- 1 bit, every INH released in module sleep; 13 R346. Reset: DESIGN CHOICE 0 (log 6). -/
  inhOff : Bool := false
  /-- 14 bits; 13 R348 MODLATCH. Reset: 0. -/
  modLatch : Nat := 0
  /-- 22 bits; 13 R348 CAUSE_SEG. Reset: 0. -/
  causeSeg : Nat := 0
  /-- 14 bits; 13 R348 CAUSE_MOD. Reset: 0. -/
  causeMod : Nat := 0
  /-- 32 bits saturating; 13 R348. Reset: 0. -/
  abortCnt : Nat := 0
  /-- 32 bits saturating; 13 R348. Reset: 0. -/
  wakeCnt : Nat := 0
  /-- list; 13 R343. Reset: none. -/
  ind : List Ind := []
  /-- 2 bits: 0 awake, 1 from t0, 2 from t1, 3 asleep; 13 R346. Reset: 0. -/
  phase : Nat := 0
  /-- WAKE.MODULE in progress; 13 R346. Reset: none. -/
  h : List Hdr := []
  /-- cycles of the phase's start; 13 R346. Reset: DESIGN CHOICE 0 (log 6). -/
  at_ : Nat := 0
  /-- cycles of the next wetting pulse in module sleep; 17 R430. Reset: DESIGN CHOICE 0 (log 6). -/
  pulseAt : Nat := 0
  /-- SP02 to SP09: the state of each PHY on the M-die, asleep or with a link; 02 R47, 03 R60. Reset: no link. -/
  phy : Tab Phy := []
deriving DecidableEq, Repr

/-- One entry of the bridge error log, oldest first (20 R513). -/
structure FbEnt where
  /-- 32 bits; 20 R513 ADDR. Reset: none held. -/
  addr : Nat := 0
  /-- 32 bits; 20 R513 TIME. Reset: none held. -/
  time : Nat := 0
  /-- 2 bits; 20 R513 DIE. Reset: none held. -/
  die : Nat := 0
  /-- 2 bits; 20 R513 CODE. Reset: none held. -/
  code : Nat := 0
  /-- 8 bits; 20 R513 INITIATOR. Reset: none held. -/
  ini : Nat := 0
  /-- 3 bits; 20 R513 KIND. Reset: none held. -/
  kind : Nat := 0
  /-- 4 bits; 20 R513 presented tag. Reset: none held. -/
  tag : Nat := 0
deriving DecidableEq, Repr

/-- The field bridge (20). -/
structure Fb where
  /-- 4 x 2 bits; 20 R512, R516 FBLINK. Reset: 0 not yet up. -/
  link : Tab Nat := []
  /-- 4 x count; 20 R512 consecutive polls failed for good. Reset: DESIGN CHOICE 0 (log 6). -/
  missed : Tab Nat := []
  /-- 4 x 2 bits; 20 R509, R511 how transfers to the die now end: 0 confirmed, 2 CRC, 3 no answer. Reset: DESIGN CHOICE 0 (log 6). -/
  bad : Tab Nat := []
  /-- 5 bits; 20 R508, R516 FBCTL. Reset: 2, 1 us. -/
  poll : Nat := 2
  /-- SYS.FBPOLL waiting for the next poll; 20 R508. Reset: none. -/
  pollNew : List (Hdr × Nat) := []
  /-- 4 x cycles of the last poll of a die; 20 R508. Reset: DESIGN CHOICE none (log 6). -/
  pollAt : Tab Nat := []
  /-- up to 16; 20 R513. Reset: empty. -/
  log : List FbEnt := []
  /-- 16 bits saturating; 20 R516 FBLOG.LOST. Reset: 0. -/
  lost : Nat := 0
  /-- 32 bits saturating; 20 R516 FBSIZE. Reset: 0. -/
  size : Nat := 0
  /-- 32 bits saturating; 20 R516 FBRETRY. Reset: 0. -/
  retry : Nat := 0
  /-- 32 bits saturating; 20 R516 FBPOSTERR. Reset: 0. -/
  postErr : Nat := 0
  /-- shadow of the LCH windows; 20 R503, R506. Reset: as each channel. -/
  shChan : Tab Chan := []
  /-- shadow of BUNT; 20 R503, R506. Reset: as each position. -/
  shBunt : Tab BuntPos := []
  /-- shadow of VB; 20 R503, R506. Reset: as each group. -/
  shGrp : Tab Group := []
  /-- shadow of the ISO window; 20 R503, R506. Reset: as iso. -/
  shIso : Iso := {}
  /-- shadow of the WAKE window; 20 R503, R506. Reset: as wake. -/
  shWake : Wake := {}
deriving DecidableEq, Repr

/-- One Keore task (15 R371, R375-R377, R387, R397). -/
structure KTask where
  /-- 2 bits: 0 idle, 1 released waiting, 2 running, 3 pre-empted; 15 R397 TSTAT. Reset: 0. -/
  st : Nat := 0
  /-- 1 bit; 15 R392 OVF. Reset: 0. -/
  ovf : Bool := false
  /-- 1 bit; 15 R392 DIVZ. Reset: 0. -/
  divz : Bool := false
  /-- 1 bit; 15 R392 INV. Reset: 0. -/
  inv : Bool := false
  /-- 32 bits saturating; 15 R397 RELCNT. Reset: 0. -/
  relCnt : Nat := 0
  /-- 32 bits saturating; 15 R397 LASTCYC. Reset: 0. -/
  lastCyc : Nat := 0
  /-- 32 bits saturating; 15 R397 MAXCYC. Reset: 0. -/
  maxCyc : Nat := 0
  /-- 64 bits; 15 R397 RELT, R391 NOW. Reset: 0. -/
  relT : Nat := 0
  /-- 64 bits, next grid instant; 15 R375. Reset: DESIGN CHOICE 0 (log 6). -/
  relNext : Nat := 0
  /-- ns; PERIOD of a RELMODE 0 task of the started image, else 0; 15 R375. Reset: DESIGN CHOICE 0 (log 6). -/
  per : Nat := 0
  /-- ns; OFFSET of that task; 15 R375. Reset: DESIGN CHOICE 0 (log 6). -/
  off : Nat := 0
  /-- engine cycles since the release; 15 R377. Reset: DESIGN CHOICE 0 (log 6). -/
  used : Nat := 0
  /-- W0 to W15, 64 bits each; 15 R387. Reset: 0 at each start (R405). -/
  w : List W64 := List.replicate 16 0
  /-- byte offset in instance SRAM; 15 R369, R387. Reset: DESIGN CHOICE 0 (log 6). -/
  ib : Nat := 0
  /-- word index; 15 R387. Reset: DESIGN CHOICE 0 (log 6). -/
  pc : Nat := 0
  /-- up to 16 of (return index, IB), top first; 15 R387, R391. Reset: empty. -/
  stack : List (Nat × Nat) := []
  /-- (offset, length) stored since the task's previous end; 16 R402. Reset: none. -/
  dirty : List (Nat × Nat) := []
deriving DecidableEq, Repr

/-- One force slot (16 R413, R417). -/
structure Force where
  /-- 32 bits; 16 R417. Reset: none held. -/
  vartag : Nat := 0
  /-- 3 bits; 16 R417. Reset: none held. -/
  typ : Nat := 0
  /-- 2 bits; 16 R417. Reset: none held. -/
  area : Nat := 0
  /-- 32 bits; 16 R417. Reset: none held. -/
  addr : Nat := 0
  /-- 64 bits; 16 R417. Reset: none held. -/
  value : Nat := 0
  /-- 32 bits saturating; 16 R413 DISCARD. Reset: none held. -/
  discard : Nat := 0
  /-- 32 bits; 16 R417. Reset: none held. -/
  t : Nat := 0
deriving DecidableEq, Repr

/-- What the latch reads for one input entry (15 R381). -/
structure LatchCap where
  /-- the value's bits, none where the source is not valid; 15 R381. Reset: none held. -/
  v : Option Nat := none
  /-- key and epoch of what the entry names, where it has an epoch; 15 R386. Reset: none held. -/
  ep : Option (Nat × Nat) := none
deriving DecidableEq, Repr

/-- A task release that arrived during a swap (16 R410). -/
structure HeldRel where
  /-- 3 bits; 15 R371 TASK. Reset: none held. -/
  task : Nat := 0
  /-- 64 bits; 15 R381 release instant. Reset: none held. -/
  relT : Nat := 0
  /-- one for each input entry of the task; 16 R410. Reset: none held. -/
  caps : List LatchCap := []
deriving DecidableEq, Repr

/-- The on-line exchange (16 R408-R412). -/
structure Xchg where
  /-- 2 bits: 0 none, 1 preparing, 2 waiting for the commit instant, 3 swapping; 16 R418 XSTAT. Reset: 0. -/
  st : Nat := 0
  /-- the command; 16 R408. Reset: none held. -/
  h : Hdr := {}
  /-- 40 bits; 16 R408 OUT. Reset: none held. -/
  out : Nat := 0
  /-- cycles; 16 R409 DEADLINE. Reset: none held. -/
  dead : Nat := 0
  /-- cycles of acceptance, then of the commit instant; 16 R408, R410. Reset: none held. -/
  since : Nat := 0
  /-- released forces (VARTAG, TYPE, REASON, DISCARD); 16 R416. Reset: none. -/
  rel : List (Nat × Nat × Nat × Nat) := []
  /-- 16 bits; 16 R418 XSTAT instances initialised. Reset: 0. -/
  inits : Nat := 0
  /-- 8 bits; 16 R418 XSTAT forces released. Reset: 0. -/
  relN : Nat := 0
  /-- 32 bits saturating; 16 R418 XCNT. Reset: 0. -/
  cnt : Nat := 0
  /-- 64 bits; 16 R418 XTIME. Reset: 0. -/
  time : Nat := 0
  /-- tasks released during the swap, with their instants and latches; 16 R410. Reset: none. -/
  held : List HeldRel := []
  /-- the new data built in the shadow of instance SRAM; 16 R410. Reset: none. -/
  shadow : List Byte := []
  /-- the forces that survive, at their new addresses; 16 R416. Reset: none. -/
  force : Tab Force := []
  /-- force and stop commands that take effect after the swap; 16 R410, R412. Reset: none. -/
  later : List Instr := []
deriving DecidableEq, Repr

/-- The Keore engine (15, 16). -/
structure Keo where
  /-- 2 bits: 0 STOPPED, 1 STARTING, 2 RUNNING, 3 HALTED; 15 R367. Reset: 0. -/
  st : Nat := 0
  /-- 4 bits; 15 R394 HCAUSE. Reset: 0. -/
  hcause : Nat := 0
  /-- 3 bits; 15 R394 HTASK. Reset: 0. -/
  htask : Nat := 0
  /-- 32 bits; 15 R397 HALTPC. Reset: 0. -/
  haltPc : Nat := 0
  /-- 64 bits; 15 R397 HALTT. Reset: 0. -/
  haltT : Nat := 0
  /-- 1 bit; 15 R397 active bank. Reset: 0. -/
  bank : Nat := 0
  /-- payload of the verified image of bank 0 and 1; 15 R368, R370; 01 R30. Reset: none verified. -/
  img : Tab (List Byte) := []
  /-- stage header of that image; 16 R411, 03 R65. Reset: none verified. -/
  hdr : Tab (List Byte) := []
  /-- payload the engine runs: its code store, tables and map; 15 R367, R369. Reset: none. -/
  run : List Byte := []
  /-- 32 bits saturating; 15 R397 WREFCNT. Reset: 0. -/
  wref : Nat := 0
  /-- 8 tasks; 15 R375. Reset: as each task. -/
  task : Tab KTask := []
  /-- running task; 15 R376. Reset: none. -/
  cur : Option Nat := none
  /-- KEORE.START in progress; none at boot; 15 R367. Reset: none. -/
  startH : Option Hdr := none
  /-- KEORE.STOP commands that wait for the end of the start; 15 R367. Reset: none. -/
  stopH : List Hdr := []
  /-- 1 bit, the start in progress is warm; 16 R405. Reset: DESIGN CHOICE 0 (log 6). -/
  startWarm : Bool := false
  /-- cycles of the last start; 15 R381 no frame since the engine start. Reset: DESIGN CHOICE 0 (log 6). -/
  startT : Nat := 0
  /-- 2 bits; 16 R418 RSTAT last start. Reset: 0. -/
  lastStart : Nat := 0
  /-- epoch recorded for KIND x 4096 + unit of R379; 15 R386. Reset: none recorded. -/
  epochs : Tab Nat := []
  /-- transmit data buffers, per object; 15 R384. Reset: 0. -/
  buf : Tab (List Byte) := []
  /-- a signal bit of the object changed in this output phase; 15 R384 SENDMODE 1. Reset: 0. -/
  sig : Tab Bool := []
  /-- 256 slots; 16 R413. Reset: none held. -/
  force : Tab Force := []
  /-- commit image: RT area and retained instance slots; 16 R402. Reset: DESIGN CHOICE empty (log 6). -/
  cimg : List Byte := []
  /-- commit image: 40 retained command words; 16 R385, R402. Reset: DESIGN CHOICE empty (log 6). -/
  ccmd : List Nat := []
  /-- pending buffer for handovers during a pass; 16 R402. Reset: DESIGN CHOICE empty (log 6). -/
  pimg : List Byte := []
  /-- pending retained commands; 16 R402. Reset: DESIGN CHOICE empty (log 6). -/
  pcmd : List Nat := []
  /-- 1 bit, a handover waits for a pass; 16 R402. Reset: 0. -/
  handed : Bool := false
  /-- pass in progress, its target copy; 16 R402, R418. Reset: 0. -/
  pass : Option Nat := none
  /-- 64 bits, TCOMMIT; 16 R400. Reset: DESIGN CHOICE 0 (log 6). -/
  passT : Nat := 0
  /-- 64 bits, AOCNT at the same instant; 16 R400. Reset: DESIGN CHOICE 0 (log 6). -/
  passAo : Nat := 0
  /-- 32 bits saturating; 16 R418 PASSCNT. Reset: 0. -/
  passCnt : Nat := 0
  /-- copy the next pass targets after a failed one; 16 R403. Reset: none. -/
  retry : Option Nat := none
  /-- the exchange; 16 R408. Reset: none. -/
  x : Xchg := {}
  /-- channels mapped as outputs of the loaded image; 09 R239, 15 R380. Reset: none. -/
  outs : List Nat := []
deriving DecidableEq, Repr

/-- A role change of a transmit object that waits for its frame's end (12 R312): a CAN.OBJ, or a TEN.ASSIGN to `owner`. -/
structure RoleReq where
  /-- the command; 12 R312. Reset: none held. -/
  h : Hdr := {}
  /-- 2 bits; 12 R306 FMT. Reset: none held. -/
  fmt : Nat := 0
  /-- 32 bits; 12 R306 ID. Reset: none held. -/
  id : Nat := 0
  /-- 5 bits; 12 R306 controller. Reset: none held. -/
  ctrl : Nat := 0
  /-- 1 bit; 12 R306 ENABLE. Reset: none held. -/
  en : Bool := false
  /-- 4 bits; 05 R129 TAG. Reset: none held. -/
  owner : Option Nat := none
deriving DecidableEq, Repr

/-- One CAN or LIN object, receive 0 to 2047, transmit 2048 to 2559 (12 R306-R312). -/
structure CObj where
  /-- 1 bit; 12 R306, R311 configured, its identifier held. Reset: DESIGN CHOICE 0, not configured (log 6). -/
  conf : Bool := false
  /-- 1 bit; 12 R306 ENABLE. Reset: DESIGN CHOICE 0 (log 6). -/
  en : Bool := false
  /-- 32 bits; 12 R306 ID. Reset: DESIGN CHOICE 0 (log 6). -/
  id : Nat := 0
  /-- 5 bits; 12 R306 controller, 12 to 19 LIN. Reset: DESIGN CHOICE 0 (log 6). -/
  ctrl : Nat := 0
  /-- 2 bits; 12 R306 FMT. Reset: DESIGN CHOICE 0 (log 6). -/
  fmt : Nat := 0
  /-- 16 bits; 04 R104. Reset: 0. -/
  epoch : Nat := 0
  /-- up to 2048 bytes; 12 R308, R310. Reset: 0. -/
  data : List Byte := []
  /-- 16 bits; 12 R308 LEN. Reset: 0. -/
  len : Nat := 0
  /-- 8 bytes; 12 R308, R310 XL fields. Reset: 0. -/
  xl : List Byte := zeros 8
  /-- 1 bit; 12 R308 NEW. Reset: 0. -/
  new : Bool := false
  /-- 1 bit; 12 R308 LOST. Reset: 0. -/
  lost : Bool := false
  /-- 1 bit; 12 R319 AUTH. Reset: 0. -/
  auth : Bool := false
  /-- 1 bit; 12 R308 TRUNC. Reset: 0. -/
  trunc : Bool := false
  /-- 1 bit; 12 R308 BRS. Reset: 0. -/
  brs : Bool := false
  /-- 1 bit; 12 R308 ESI. Reset: 0. -/
  esi : Bool := false
  /-- 16 bits wrapping; 12 R308 RXCNT, R329 TXCNT. Reset: 0. -/
  cnt : Nat := 0
  /-- 64 bits; 12 R308 RXTIME, R329 start of frame. Reset: 0. -/
  time : Nat := 0
  /-- 2 bits: 0 IDLE, 1 PENDING, 2 ACTIVE; 12 R310. Reset: IDLE. -/
  st : Nat := 0
  /-- the CAN.TX that waits; 12 R310. Reset: none. -/
  h : Option Hdr := none
  /-- 16 bits; 12 R310 retransmissions. Reset: none held. -/
  retr : Nat := 0
  /-- command, data and XL fields that wait behind an ACTIVE frame; 12 R310. Reset: none. -/
  later : Option (Option Hdr × List Byte × List Byte) := none
  /-- role changes that wait for the frame's end; 12 R312. Reset: none. -/
  role : List RoleReq := []
  /-- 1 bit; 12 R323 data of a CAN.TX not yet sent in a 0x3C slot. Reset: 0. -/
  unsent : Bool := false
  /-- cycles; 14 R360 when the data were written. Reset: DESIGN CHOICE 0 (log 6). -/
  at_ : Nat := 0
  /-- up to 2048 bytes; 12 R329 the last data sent. Reset: 0. -/
  sdata : List Byte := []
  /-- 8 bytes; 12 R329 the last XL fields sent. Reset: 0. -/
  sxl : List Byte := zeros 8
  /-- a frame; 12 R318 the protected frame built for the pending data. Reset: none. -/
  built : Option CanFrame := none
deriving DecidableEq, Repr

/-- A routed copy on its way to a destination (14 R356-R360). -/
structure Rtd where
  /-- 12 bits; 14 R356. Reset: none held. -/
  entry : Nat := 0
  /-- 16 bits; 14 R356 the stamp. Reset: none held. -/
  epoch : Nat := 0
  /-- 64 bits; 14 R356 source time. Reset: none held. -/
  src : Nat := 0
  /-- a frame; 14 R357. Reset: none held. -/
  frame : CanFrame := {}
  /-- 1 bit; 14 R363 held under a wake list. Reset: none held. -/
  held : Bool := false
  /-- cycles; 14 R360 when it came. Reset: none held. -/
  at_ : Nat := 0
deriving DecidableEq, Repr

/-- The frame a controller is sending (12 R310, 14 R358). -/
structure CTx where
  /-- 0 reference, 1 Pennant, 2 object, 3 routed; 14 R358. Reset: none held. -/
  kind : Nat := 0
  /-- 12 bits; 12 R310 its object. Reset: none held. -/
  obj : Nat := 0
  /-- its routed copy; 14 R358. Reset: none held. -/
  rtd : Rtd := {}
  /-- as sent; 12 R310. Reset: none held. -/
  frame : CanFrame := {}
  /-- 64 bits; 12 R310 start of frame. Reset: none held. -/
  sof : Nat := 0
  /-- cycles; 12 R314 trigger of its reference message. Reset: none held. -/
  trig : Nat := 0
deriving DecidableEq, Repr

/-- One CAN controller CAN0 to CAN11 (12 R297-R305, R326). -/
structure Ctl where
  /-- 64 bytes; 12 R300. Reset: 0. -/
  rcd : List Byte := zeros 64
  /-- 3 bits; 12 R302 MODE. Reset: 0 configuration. -/
  mode : Nat := 0
  /-- mode on its way; 12 R302. Reset: none. -/
  want : Option Nat := none
  /-- CAN.MODE commands that wait for it; 12 R302. Reset: none. -/
  wantH : List Hdr := []
  /-- mode held on entry to the hold by a fault reaction; 12 R304. Reset: none. -/
  back : Option Nat := none
  /-- 1 bit, bus integration to come; 12 R302, 13 R331. Reset: 0. -/
  integ : Bool := false
  /-- 2 bits: 0 active, 1 passive, 2 bus-off; 12 R303, R326. Reset: 0. -/
  err : Nat := 0
  /-- 8 bits, above 255 in bus-off; 12 R303 TEC. Reset: 0. -/
  tec : Nat := 0
  /-- 8 bits; 12 R303 REC. Reset: 0. -/
  recv : Nat := 0
  /-- cycles; 12 R303 BOFFREC counts from bus-off. Reset: DESIGN CHOICE 0 (log 6). -/
  boffAt : Nat := 0
  /-- 1 bit; 12 R303, R326 recovery running. Reset: 0. -/
  recov : Bool := false
  /-- 4 bits; 12 R326 last error. Reset: 0. -/
  last : Nat := 0
  /-- 32 bits wrapping; 12 R326. Reset: 0. -/
  rxfrm : Nat := 0
  /-- 32 bits wrapping; 12 R326. Reset: 0. -/
  txfrm : Nat := 0
  /-- 16 bits saturating: 1 bit, 2 stuff, 3 form, 4 ACK, 5 CRC, 6 bus-off entries; 12 R326 ERR1-ERR3. Reset: 0. -/
  errs : Tab Nat := []
  /-- 16 bits saturating; 12 R307. Reset: 0. -/
  fmtMiss : Nat := 0
  /-- 16 bits saturating; 12 R308 LOSTCNT. Reset: 0. -/
  lost : Nat := 0
  /-- 16 bits saturating; 12 R314. Reset: 0. -/
  refMiss : Nat := 0
  /-- 16 bits saturating; 12 R319. Reset: 0. -/
  authFail : Nat := 0
  /-- 32 bits saturating; 12 R305 D2DERR. Reset: 0. -/
  d2d : Nat := 0
  /-- 8 bits; 12 R326 measured transmitter delay. Reset: 0. -/
  tdc : Nat := 0
  /-- 1 bit; 12 R314 time master. Reset: 0. -/
  tm : Bool := false
  /-- 10 bits; 12 R314 ENTRY. Reset: DESIGN CHOICE 0 (log 6). -/
  tmEnt : Nat := 0
  /-- 32 bits; 12 R314 ID. Reset: DESIGN CHOICE 0 (log 6). -/
  tmId : Nat := 0
  /-- 6 bits; 12 R315 cycle count. Reset: 0. -/
  refCyc : Nat := 0
  /-- cycle of the trigger of a queued reference message; 12 R314. Reset: none. -/
  refQ : Option Nat := none
  /-- 1 bit, that message has started before; 12 R314. Reset: DESIGN CHOICE 0 (log 6). -/
  refBeg : Bool := false
  /-- the frame on the bus; 12 R310. Reset: none. -/
  tx : Option CTx := none
  /-- up to 64; 14 R358. Reset: empty. -/
  routed : List Rtd := []
  /-- Pennant frames waiting to be sent; 13 R340. Reset: empty. -/
  pen : List (List Byte) := []
deriving DecidableEq, Repr

/-- One protected identifier (12 R316, R317). -/
structure Prot where
  /-- 4 bits; 12 R316. Reset: none held. -/
  ctrl : Nat := 0
  /-- 32 bits; 12 R316. Reset: none held. -/
  id : Nat := 0
  /-- 7 bits; 12 R316. Reset: none held. -/
  locket : Nat := 0
  /-- 32 bytes, copied at CAN.AUTH; 19 R490. Reset: none held. -/
  key : List Byte := []
  /-- 4 to 16; 12 R316. Reset: none held. -/
  maclen : Nat := 4
  /-- 32 bits; 12 R317 transmit counter. Reset: none held. -/
  txc : Nat := 0
  /-- 32 bits; 12 R317 last accepted receive value. Reset: none held. -/
  rxc : Nat := 0
  /-- 32 bits; 12 R317 last saved. Reset: none held. -/
  savedT : Nat := 0
  /-- 32 bits; 12 R317 last saved. Reset: none held. -/
  savedR : Nat := 0
  /-- 1 bit, a save is due or incomplete; 12 R317. Reset: none held. -/
  due : Bool := false
  /-- 1 bit, its NVM request was made; 12 R317. Reset: none held. -/
  asked : Bool := false
  /-- 16 bits, 0x10000 none; 07 R179. Reset: none held. -/
  handle : Nat := 0x10000
  /-- 1 bit; 12 R317. Reset: none held. -/
  granted : Bool := false
deriving DecidableEq, Repr

/-- One LIN commander LIN0 to LIN7 (12 R320-R325, R327). -/
structure Lin where
  /-- the LIN record; 12 R321. Reset: DESIGN CHOICE none written (log 6). -/
  rcd : List Byte := []
  /-- 1 bit; 12 R327 RUNNING. Reset: 0. -/
  run : Bool := false
  /-- 3 bits; 12 R327 table in force. Reset: 0. -/
  tab : Nat := 0
  /-- 8 bits; 12 R327 current slot. Reset: 0. -/
  slot : Nat := 0
  /-- 8 bits, the slot that starts next; 12 R322. Reset: DESIGN CHOICE 0 (log 6). -/
  next : Nat := 0
  /-- 64 bits; 12 R329 device time of the start of the current slot. Reset: 0. -/
  start : Nat := 0
  /-- 64 bits; 12 R322 start of the next slot. Reset: DESIGN CHOICE 0 (log 6). -/
  nextAt : Nat := 0
  /-- 1 bit, a table that has taken over has not started its slot 0; 12 R322. Reset: DESIGN CHOICE 0 (log 6). -/
  fresh : Bool := false
  /-- cycles of the end of a dominant pulse on the bus; 13 R344. Reset: DESIGN CHOICE 0 (log 6). -/
  pulse : Nat := 0
  /-- table that follows the one in force, 0xFF stop; 12 R322 WHEN 1. Reset: none. -/
  chg : Option Nat := none
  /-- collision table in progress; 12 R323, R327. Reset: none. -/
  coll : Option Nat := none
  /-- 8 bits, slot that resumes after it; 12 R323. Reset: DESIGN CHOICE 0 (log 6). -/
  ret : Nat := 0
  /-- frame definition whose response is awaited; 12 R323. Reset: none. -/
  wait : Option Nat := none
  /-- 1 bit, a 0x3C frame sent and no 0x3D response since; 12 R323. Reset: DESIGN CHOICE 0 (log 6). -/
  sent3c : Bool := false
  /-- 1 bit; 12 R327 PUBSUPP. Reset: 0. -/
  hold : Bool := false
  /-- 16 bits saturating; 12 R327. Reset: 0. -/
  noresp : Nat := 0
  /-- 16 bits saturating; 12 R327. Reset: 0. -/
  csum : Nat := 0
  /-- 16 bits saturating; 12 R327. Reset: 0. -/
  bitErr : Nat := 0
  /-- 16 bits saturating; 12 R327. Reset: 0. -/
  colls : Nat := 0
  /-- 16 bits saturating; 12 R327. Reset: 0. -/
  skipped : Nat := 0
  /-- 32 bits wrapping; 12 R327 HDRCNT. Reset: 0. -/
  hdr : Nat := 0
  /-- one routed buffer per FID; 14 R360. Reset: empty. -/
  buf : Tab Rtd := []
deriving DecidableEq, Repr

/-- CAN and LIN controllers (12). -/
structure Can where
  /-- 12 controllers; 12 R297. Reset: as each controller. -/
  ctl : Tab Ctl := []
  /-- 2560 objects; 12 R306. Reset: as each object. -/
  obj : Tab CObj := []
  /-- up to 256; 12 R316. Reset: none. -/
  prot : List Prot := []
  /-- saved freshness counters by controller x 2^32 + identifier; 12 R317; 03 R78 tag 0 firmware data. Reset: none saved. -/
  saved : Tab (Nat × Nat) := []
  /-- 8 commanders; 12 R320. Reset: as each commander. -/
  lin : Tab Lin := []
deriving DecidableEq, Repr

/-- One frame bridge entry (14 R351, R365). -/
structure Route where
  /-- 48 bytes; 14 R351. Reset: 0. -/
  rcd : List Byte := zeros 48
  /-- 1 bit; 14 R365 FSTAT. Reset: 0. -/
  written : Bool := false
  /-- 16 bits; 04 R104. Reset: 0. -/
  epoch : Nat := 0
  /-- tokens x 4*10^8, one token per 10^9 ns; 14 R356 rate bucket. Reset: DESIGN CHOICE 0 (log 6). -/
  tokens : Nat := 0
  /-- cycles of the last refill; 14 R356. Reset: DESIGN CHOICE 0 (log 6). -/
  fillAt : Nat := 0
  /-- 32 bits; 14 R365 RFWD. Reset: 0. -/
  fwd : Nat := 0
  /-- 32 bits saturating; 14 R365 RDROP. Reset: 0. -/
  drop : Nat := 0
  /-- 8 bits; 14 R361 sequence_num. Reset: DESIGN CHOICE 0 (log 6). -/
  seq : Nat := 0
deriving DecidableEq, Repr

/-- A frame offered to the bridge (14 R355, R362). -/
structure InF where
  /-- CAN FMT, or 0 ACF CAN and 1 ACF LIN; 14 R351 SFMT. Reset: none held. -/
  fmt : Nat := 0
  /-- a frame; 14 R355. Reset: none held. -/
  frame : CanFrame := {}
  /-- 64 bits; 14 R356 source time. Reset: none held. -/
  time : Nat := 0
  /-- 5 bits; 14 R351 BUSID. Reset: none held. -/
  bus : Nat := 0
  /-- 16 bits; 14 R351 UID. Reset: none held. -/
  uid : Nat := 0
  /-- 12 bits; 14 R351 VIDPCP. Reset: none held. -/
  vid : Nat := 0
deriving DecidableEq, Repr

/-- The frame bridge (14). -/
structure Brg where
  /-- 4096 entries; 14 R351. Reset: as each entry. -/
  route : Tab Route := []
  /-- 21 ingress queues of 32; 14 R356. Reset: empty. -/
  inq : Tab (List InF) := []
  /-- 5 bits; 14 R356 queue looked up last. Reset: DESIGN CHOICE 20, so queue 0 is first (log 6). -/
  rr : Nat := 20
  /-- cycle of the last lookup; 14 R356. Reset: none. -/
  lookAt : Option Nat := none
  /-- 16 wake lists of up to 16 entries; 14 R363. Reset: empty. -/
  wake : Tab (List Nat) := []
  /-- 32 bits wrapping; 14 R365 FWD. Reset: 0. -/
  fwd : Nat := 0
  /-- 32 bits saturating: DROPRATE to ACFOVER by register offset / 4; 14 R365. Reset: 0. -/
  cnt : Tab Nat := []
  /-- frames handed to SP19 ingress, with the route owner's tag; 14 R361. Reset: none. -/
  eth : List (Nat × List Byte) := []
deriving DecidableEq, Repr

/-- The key store and attestation (19). -/
structure Key where
  /-- 1 bit; 19 R499 KSTAT.SCAN. Reset: 0. -/
  scan : Bool := false
  /-- 4 bits; 19 R480 state the store was last written in. Reset: DESIGN CHOICE 0, BLANK (log 6). -/
  lastLc : Nat := 0
  /-- 128 bits; 19 R484. Reset: 0. -/
  permit : Tab Bool := []
  /-- slots whose KEY_BAD was raised since the start; 19 R479. Reset: none. -/
  raised : List Nat := []
  /-- 1 bit; 19 R499 attestation key generated. Reset: 0. -/
  idKey : Bool := false
  /-- 32 bits saturating; 19 R499. Reset: 0. -/
  signCnt : Nat := 0
  /-- 32 bits saturating; 19 R499. Reset: 0. -/
  verCnt : Nat := 0
  /-- 32 bits saturating; 19 R499. Reset: 0. -/
  aeadFail : Nat := 0
  /-- 32 bits saturating; 19 R499. Reset: 0. -/
  badCnt : Nat := 0
deriving DecidableEq, Repr

/-- The whole module. -/
structure State where
  /-- see clk; 06. Reset: as its fields. -/
  clk : Clk := {}
  /-- see sys; 02, 03. Reset: as its fields. -/
  sys : Sys := {}
  /-- see hal; 04. Reset: as its fields. -/
  hal : Hal := {}
  /-- see adm; 07. Reset: as its fields. -/
  adm : Adm := {}
  /-- see lch; 08, 09. Reset: as its fields. -/
  lch : Lch := {}
  /-- see sch; 06. Reset: as its fields. -/
  sch : Sch := {}
  /-- see inp; 17. Reset: as its fields. -/
  inp : Inp := {}
  /-- see iso; 17. Reset: as its fields. -/
  iso : Iso := {}
  /-- see net; 11. Reset: as its fields. -/
  net : Net := {}
  /-- see fab; 10. Reset: as its fields. -/
  fab : Fab := {}
  /-- see flt; 21. Reset: as its fields. -/
  flt : Flt := {}
  /-- see ten; 18. Reset: as its fields. -/
  ten : Ten := {}
  /-- see dbg; 18. Reset: as its fields. -/
  dbg : Dbg := {}
  /-- see fb; 20. Reset: as its fields. -/
  fb : Fb := {}
  /-- see can; 12. Reset: as its fields. -/
  can : Can := {}
  /-- see wake; 13. Reset: as its fields. -/
  wake : Wake := {}
  /-- see brg; 14. Reset: as its fields. -/
  brg : Brg := {}
  /-- see key; 19. Reset: as its fields. -/
  key : Key := {}
  /-- see keo; 15, 16. Reset: as its fields. -/
  keo : Keo := {}
  /-- see bus; 01, 18. Reset: as its fields. -/
  bus : Bus := {}
  /-- bytes by 40-bit address; 01 R30. Reset: nothing listed; an unlisted byte reads 0, DESIGN CHOICE (log 3). -/
  mem : List Host.Cell := []
  /-- per aligned 64-bit word: 1 correctable, 2 uncorrectable error; 01 R563. Reset: none. -/
  ecc : Tab Nat := []
  /-- list, first in first out; the model's queue of commands waiting. Reset: empty. -/
  pending : List Instr := []
deriving DecidableEq, Repr

/-- The module right after VBAT_LOGIC has risen (03 R57): every field at its reset value. Log 2, 6, 7. -/
def State.reset : State := {}

end Sys2Proof.Machine
end

