-- ==== Sys2Proof/Machine/Faults.lean ====
section
/-! DEFINITION. Time, ownership, event pulses, and raising a fault source (06, 18, 21). -/
namespace Sys2Proof.Machine
open Sys2Proof

/-- What a meaning answers. -/
abbrev Out := Host.Outcome State Fault Refusal

/-- Device time in ns (06 R135): the counter keeps 32 bits of fraction. -/
def State.now (s : State) : Nat := (s.clk.dt / 2 ^ 32) % 2 ^ 64

/-- Bits [31:0] of device time, as short timestamps show them (06 R136). -/
def State.now32 (s : State) : Nat := s.now % 2 ^ 32

/-- Elapsed fabric cycles of 2.5 ns (00 R6). -/
def State.cyc (s : State) : Nat := s.clk.cyc

/-- Fabric cycles in `n` microseconds. -/
def usCyc (n : Nat) : Nat := n * 400

/-- Fabric cycles in `n` milliseconds. -/
def msCyc (n : Nat) : Nat := n * 400000

/-- The C-die runs: its boot has begun (03 R72 STEP 2 and on). -/
def State.live (s : State) : Bool := decide (2 ≤ s.sys.boot)

/-- A fresh free value, and the state with the model's draw counter advanced (log 12). -/
def State.draw (s : State) : Nat × State :=
  (Config.freeValue s.clk.free, { s with clk := { s.clk with free := s.clk.free + 1 } })

/-- Key of a unit in the owner table. -/
def ownKey (kind i : Nat) : Nat := kind * 65536 + i

/-- Owner tag of a unit of KIND (01 R24, 05 R129); tag 0 until assigned (18 R458). -/
def State.owner (s : State) (kind i : Nat) : Nat := look (fun _ => 0) s.ten.own (ownKey kind i)

/-- The owner of a unit changed. -/
def State.setOwner (s : State) (kind i tag : Nat) : State :=
  { s with ten := { s.ten with own := put s.ten.own (ownKey kind i) tag } }

/-- A producer acts on event line `n` (21 R539); the pulse comes in the next fabric cycle (R541). Lines above 511 name none. -/
def State.pulse (s : State) (n : Nat) : State :=
  if n < 512 then { s with flt := { s.flt with pulses := s.flt.pulses ++ [n] } } else s

/-- S2 reaction classes (21 R522). -/
inductive SrcClass where
  | none | home | ch | can | iso | fab | rt
deriving DecidableEq, Repr

/-- The fault sources of 21 R519: number, default and minimum severity, whether a condition source, class. -/
def srcTable : List (Nat × Nat × Nat × Bool × SrcClass) :=
  [(0x00, 3, 3, false, .none), (0x01, 3, 3, false, .none), (0x02, 3, 3, true, .none), (0x03, 3, 3, true, .none),
   (0x04, 3, 3, false, .none), (0x05, 3, 3, false, .none), (0x06, 2, 2, false, .rt), (0x07, 3, 3, true, .none),
   (0x08, 0, 0, false, .none), (0x09, 3, 3, false, .none), (0x10, 0, 0, false, .home), (0x11, 1, 1, false, .home),
   (0x12, 2, 2, false, .home), (0x13, 1, 1, false, .home), (0x14, 2, 2, false, .home), (0x15, 3, 3, false, .none),
   (0x16, 2, 2, false, .home), (0x20, 0, 0, false, .none), (0x21, 1, 1, false, .none), (0x22, 0, 0, false, .none),
   (0x23, 2, 2, false, .home)] ++
  [(0x24, 0, 0, true, .none), (0x25, 1, 0, true, .none), (0x26, 0, 0, false, .none), (0x27, 1, 0, false, .none),
   (0x30, 0, 0, false, .ch), (0x31, 1, 0, false, .ch), (0x32, 0, 0, false, .ch), (0x33, 1, 0, false, .ch),
   (0x34, 1, 0, true, .ch), (0x35, 1, 0, true, .ch), (0x36, 1, 0, false, .ch), (0x37, 1, 0, true, .ch),
   (0x38, 0, 0, false, .ch), (0x39, 1, 0, true, .ch), (0x40, 0, 0, false, .fab), (0x41, 1, 0, false, .fab),
   (0x42, 2, 2, false, .fab), (0x43, 1, 0, false, .fab), (0x44, 1, 0, false, .fab), (0x45, 0, 0, false, .fab)] ++
  [(0x50, 0, 0, true, .can), (0x51, 1, 0, true, .can), (0x52, 0, 0, false, .can), (0x53, 1, 0, false, .can),
   (0x54, 0, 0, false, .can), (0x60, 2, 2, false, .home), (0x61, 2, 2, false, .home), (0x62, 1, 0, false, .none),
   (0x70, 0, 0, false, .none), (0x71, 0, 0, false, .none), (0x72, 0, 0, false, .none), (0x73, 1, 0, false, .iso),
   (0x74, 1, 0, true, .iso), (0x75, 2, 2, true, .home), (0x80, 1, 0, false, .none), (0x90, 0, 0, false, .none),
   (0x91, 3, 3, true, .none)]

/-- The row of a source; none for a reserved number. -/
def srcRow (n : Nat) : Option (Nat × Nat × Bool × SrcClass) := look? srcTable n

/-- The setting of a source in force: its default until FAULT.CFG (21 R520). -/
def State.srcCfg (s : State) (n : Nat) : SrcCfg :=
  look (fun k => { sev := ((srcRow k).map (·.1)).getD 0 }) s.flt.cfg n

/-- A switch source (21 R524): 0x40 to 0x45. -/
def isSwitchSrc (n : Nat) : Bool := decide (0x40 ≤ n) && decide (n ≤ 0x45)

/-- Place of a raise among those of one fabric cycle (21 R528): severity downwards, then source and INFO upwards. -/
def raiseRank (sev src info : Nat) : Nat := (3 - sev) * 2 ^ 40 + src * 2 ^ 32 + info

/-- Insertion by rank, behind those of the same rank. -/
def rankIns {α : Type} (f : α → Nat) (p : α) : List α → List α
  | [] => [p]
  | q :: r => if f p < f q then p :: q :: r else q :: rankIns f p r

/-- The rank of a source's raise under its setting in force. -/
def State.rankOf (s : State) (p : Nat × Nat) : Nat := raiseRank (s.srcCfg p.1).sev p.1 p.2

/-- A new entry at the end of the log, in its place among those of its fabric cycle (21 R528): sequence numbers follow that order. -/
def logPlace (log : List LogEnt) (e : LogEnt) : List LogEnt :=
  let old := log.takeWhile fun x => x.at_ != e.at_
  let new := log.drop old.length
  let placed := rankIns (fun (x : LogEnt) => raiseRank x.sev x.src x.info) e new
  old ++ (placed.zip ((new ++ [e]).map (·.seq))).map fun (p : LogEnt × Nat) => { p.1 with seq := p.2 }

/-- The log with a raise taken in (21 R531, R532): the new log, whether a new entry stands in it, what LOSTCNT rises by,
and whether LOG_OVF is raised. -/
def logRaise (log : List LogEnt) (e : LogEnt) : List LogEnt × Bool × Nat × Bool :=
  if log.any (fun x => x.src == e.src && x.info == e.info) then
    (updFirst (fun x => x.src == e.src && x.info == e.info)
      (fun x => { x with count := satAdd 16 x.count 1, tlast := e.tlast, sev := Nat.max x.sev e.sev,
                         pending := x.pending || e.pending, inj := x.inj || e.inj }) log, false, 0, false)
  else if log.length < 64 then (logPlace log e, true, 0, false)
  else if log.any (fun x => x.sev == 0) then (logPlace (dropFirst (fun x => x.sev == 0) log) e, true, 1, false)
  else if e.sev == 0 then (log, false, 1, false)
  else (log, false, 1, true)

/-- The S3 part of a raise (21 R524, R525, R529): latch, SAFESRC, demand of the line, pre-emption, reset demand.
A raise while device safe state already holds, or is demanded, makes only its reset demand and its switch effect; of several demands of
one cycle SAFESRC names the lowest source (R528). -/
def State.demandSafe (s : State) (src : Nat) : State :=
  let f := s.flt
  let fresh := !(f.safe || f.safeReq)
  let log := match f.cur with
    | some (a, b) => if fresh then updFirst (fun x => x.src == a && x.info == b) (fun x => { x with preempted := true }) f.log
                     else f.log
    | none => f.log
  let f := { f with log := log, latch := true,
                    safeReq := f.safeReq || fresh,
                    safeSrc := if fresh then src else if f.safeReq ∧ f.safeAt = s.cyc + 1 then Nat.min f.safeSrc src else f.safeSrc,
                    safeAt := if fresh then s.cyc + 1 else f.safeAt,
                    rst := if src == 1 || src == 5 then some ((f.rst).getD (s.cyc + msCyc 10)) else f.rst,
                    initReq := f.initReq || isSwitchSrc src }
  { s with flt := f, fab := if isSwitchSrc src then { s.fab with initHold := true } else s.fab }

/-- The sources raised in this fabric cycle (21 R518). -/
def State.raisedNow (s : State) : List Nat := if s.flt.nowAt = s.cyc + 1 then s.flt.nowSrc else []

/-- A reaction joins those waiting (21 R528, R529), in its place among those of its fabric cycle. -/
def State.waitReaction (s : State) (p : Nat × Nat) : State :=
  let f := s.flt
  let n := if f.nowAt = s.cyc + 1 then Nat.min f.nowWait f.waiting.length else 0
  let k := f.waiting.length - n
  { s with flt := { f with waiting := f.waiting.take k ++ rankIns s.rankOf p (f.waiting.drop k), nowWait := n + 1 } }

/-- A source has been raised in this cycle. -/
def State.noteRaise (s : State) (src : Nat) : State :=
  let now := s.raisedNow
  let f := s.flt
  { s with flt := { f with nowSrc := if now.contains src then now else now ++ [src], nowAt := s.cyc + 1,
                           nowWait := if f.nowAt = s.cyc + 1 then f.nowWait else 0 } }

/-- LOG_OVF (21 R519, R521, R532): no entry of its own. -/
def State.logOvf (s : State) : State :=
  let s := { s with flt := { s.flt with degr := true } }
  let s := if (s.srcCfg 0).ev then s.pulse (s.srcCfg 0).line else s
  (s.noteRaise 0).demandSafe 0

/-- A fault source is raised with INFO (21 R518 to R532). Before boot instant t3 the collector takes no raise (R564).
`inj` marks FAULT.INJECT (R538): INFO then names no unit. -/
def State.raise (s : State) (src info : Nat) (inj : Bool := false) : State :=
  match srcRow src with
  | none => s
  | some (_, _, _, cls) =>
    if s.sys.boot < 3 then s else
    let c := s.srcCfg src
    let seq2 := c.sev == 2 || c.sev == 3
    let sequenced := seq2 && (cls == .ch || cls == .can || cls == .iso)
    let e : LogEnt := { src := src, sev := c.sev, inj := inj, pending := sequenced, tfirst := s.now, tlast := s.now32,
                        info := info, seq := (s.flt.seq + 1) % 2 ^ 32, starts := s.sys.starts, at_ := s.cyc + 1 }
    let (log, isNew, lost, ovf) := logRaise s.flt.log e
    let f := s.flt
    let f := { f with log := log, lost := satAdd 32 f.lost lost, dirty := true,
                      seq := if isNew then (f.seq + 1) % 2 ^ 32 else f.seq,
                      degr := f.degr || decide (1 ≤ c.sev),
                      initReq := f.initReq || (seq2 && cls == .fab) }
    let s := ({ s with flt := f }).noteRaise src
    let s := if sequenced then s.waitReaction (src, info) else s
    let s := if c.ev then s.pulse c.line else s
    let s := if seq2 && cls == .rt && !inj then
        { s with sys := { s.sys with rtHeld := if s.sys.rtHeld.contains info then s.sys.rtHeld else s.sys.rtHeld ++ [info] } } else s
    let s := if c.sev == 3 then s.demandSafe src else s
    if ovf then s.logOvf else s

/-- A condition source becomes active, raised once each time it does (21 R518), or ends. -/
def State.condition (s : State) (src info : Nat) (on : Bool) : State :=
  let was := s.flt.active.contains (src, info)
  if on then
    if was then s
    else ({ s with flt := { s.flt with active := s.flt.active ++ [(src, info)] } }).raise src info
  else { s with flt := { s.flt with active := s.flt.active.filter (· != (src, info)) } }

/-- A source is active (21 R518): a condition while it lasts for some unit, an event and an injected condition (R538) in the fabric
cycle of the raise. -/
def State.srcActive (s : State) (src : Nat) : Bool := s.flt.active.any (·.1 == src) || s.raisedNow.contains src

/-- A condition source is active. -/
def State.condActive (s : State) (src : Nat) : Bool := ((srcRow src).map (·.2.2.1)).getD false && s.srcActive src

end Sys2Proof.Machine
end

