-- ==== Sys2Proof/Machine/Ops.lean ====
section
/-! DEFINITION. The named operations over memory and over completions: regions, tenancy checks, SECDED words,
loads and stores, and what a command's end writes. -/
namespace Sys2Proof.Machine
open Sys2Proof

/-! ### Memory -/

/-- What an address that memory does not list reads as (log 3). -/
def memDefault : Byte := 0

/-- The byte at an address. -/
def memGet : List Host.Cell → Nat → Byte
  | [], _ => memDefault
  | (a, v) :: r, x => if a = x then v else memGet r x

/-- Memory with byte `v` at address `x`, in canonical form. -/
def memPut : List Host.Cell → Nat → Byte → List Host.Cell
  | [], x, v => if v = memDefault then [] else [(x, v)]
  | (a, w) :: r, x, v =>
    if x < a then (if v = memDefault then (a, w) :: r else (x, v) :: (a, w) :: r)
    else if a = x then (if v = memDefault then r else (x, v) :: r)
    else (a, w) :: memPut r x v

/-- Canonical form from address `lo` on: strictly rising, no entry equal to what an unlisted address reads as. -/
def Memory.wfFrom : Nat → List Host.Cell → Bool
  | _, [] => true
  | lo, (a, v) :: r => decide (lo ≤ a) && v != memDefault && Memory.wfFrom (a + 1) r

/-- The canonical form of memory. -/
def Memory.wf (m : List Host.Cell) : Bool := Memory.wfFrom 0 m

/-- Bytes written one after the other from `x`. -/
def memPutAll (m : List Host.Cell) (x : Nat) : List Byte → List Host.Cell
  | [] => m
  | b :: bs => memPutAll (memPut m x b) (x + 1) bs

/-- `n` bytes from `x`. -/
def memRead (m : List Host.Cell) (x n : Nat) : List Byte := (List.range n).map fun i => memGet m (x + i)

/-- Memory with every byte of [lo, hi) zero. -/
def memClear (m : List Host.Cell) (lo hi : Nat) : List Host.Cell := m.filter fun c => !(decide (lo ≤ c.1) && decide (c.1 < hi))

/-- The byte of the module's memory at an address. -/
def State.byte (s : State) (a : Nat) : Byte := memGet s.mem a

/-- The regions of the C-die address map (01 R30, R32). -/
inductive Region where
  | rom | tcm (k : Nat) | sram | keoreSram | retain | bankA | bankB | emram | regs | xspi (k : Nat) | ddr | hole
deriving DecidableEq, Repr

/-- The region an address lies in (01 R30); LPDDR5 ends at its fitted size (R31). -/
def State.region (s : State) (a : Nat) : Region :=
  if a < 0x20000 then .rom
  else if a < 0x08000000 then .hole
  else if a < 0x080C0000 then .tcm ((a - 0x08000000) / 0x40000)
  else if a < 0x10000000 then .hole
  else if a < 0x11000000 then .sram
  else if a < 0x20000000 then .hole
  else if a < 0x20100000 then .keoreSram
  else if a < 0x22000000 then .hole
  else if a < 0x22080000 then .retain
  else if a < 0x22100000 then .hole
  else if a < 0x22200000 then .bankA
  else if a < 0x22300000 then .bankB
  else if a < 0x22480000 then .emram
  else if a < 0x41000000 then .hole
  else if a < 0x50000000 then .regs
  else if a < 0x60000000 then .hole
  else if a < 0x70000000 then .xspi 0
  else if a < 0x80000000 then .xspi 1
  else if a < 0x80000000 + Nat.min s.sys.ddrSize 0x100000000 then .ddr
  else .hole

/-- A Bezel range covers the byte at `a`. -/
def Bezel.covers (b : Bezel) (a : Nat) : Bool :=
  b.en && decide (b.base * 4096 ≤ a) && decide (a < (b.base + b.size) * 4096)

/-- The permission of a range for an access kind: 0 read, 1 write, 2 fetch. -/
def Bezel.perm (b : Bezel) (kind : Nat) : Bool := if kind = 0 then b.r else if kind = 1 then b.w else b.x

/-- The 32 Bezel ranges. -/
def State.bezels (s : State) : List Bezel := (List.range 32).map fun r => look (fun _ => ({} : Bezel)) s.ten.bez r

/-- Whether a zero fill keeps every tag from the byte (18 R455): it lies in the old or the new extent of the fill. -/
def State.filling (s : State) (a : Nat) : Bool :=
  match s.ten.fill with
  | none => false
  | some f => (look (fun _ => ({} : Bezel)) s.ten.bez f.range).covers a || f.bez.covers a

/-- The table of 18 R453 for one byte of system SRAM, an xSPI window or LPDDR5. Permissions of ranges of one tag add. -/
def State.bezelAllows (s : State) (tag kind a : Nat) : Bool :=
  let cov := s.bezels.filter fun b => b.covers a
  if s.filling a then false
  else if cov.isEmpty then decide (tag ≤ 1)
  else cov.any fun b => b.tag == tag && b.perm kind

/-- RV32 initiators reach addresses below 0x1_0000_0000 only (01 R30): real-time pairs, MP, Keore engine. -/
def isRv32 (ini : Nat) : Bool := decide (0x10 ≤ ini) && decide (ini ≤ 0x21)

/-- Initiator code of a DMA channel (18 R472). -/
def isDma (ini : Nat) : Bool := decide (0x30 ≤ ini) && decide (ini < 0x70)

/-- Halyard's accesses (04 R83; 18 R472). Its code 0x61 is also that of DMA channel 49, so the model keeps 0x161 for it; what is recorded is the
low byte (log 34). -/
def halyardIni : Nat := 0x161

/-- The tag of a real-time pair in force (18 R451). -/
def State.rtTagOf (s : State) (k : Nat) : Nat := if k = 0 then 0 else look (fun _ => 0) s.sys.rtTag k

/-- The gate is cut (18 R464). -/
def State.cut (s : State) (g : Nat) : Bool := (look (fun _ => ({} : Gate)) s.ten.gate g).cut

/-- The owner tag recorded in an image payload (15 R370 byte 6); 16, which no initiator presents, where there is none. -/
def payloadTag (p : Option (List Byte)) : Nat :=
  match p with
  | some l => if l.isEmpty then 16 else byteAt l 6
  | none => 16

/-- The owner of the loaded Keore image (05 R124). -/
def State.imgTag (s : State) : Nat := payloadTag (some s.keo.run)

/-- An image bank may be read by tag 0 and by the owner of the verified image it holds (01 R30). -/
def State.bankReader (s : State) (b tag : Nat) : Bool := tag == 0 || tag == payloadTag (look? s.keo.img b)

/-- Whether an access of `kind` (0 read, 1 write, 2 fetch) by initiator `ini` presenting `tag` may reach the byte
(01 R30, 18 R453). Register blocks are no memory: no ring area and no buffer lies there (04 R82, R94). -/
def State.mayReach (s : State) (ini tag kind a : Nat) : Bool :=
  if isRv32 ini && decide (0x100000000 ≤ a) then false
  else if isDma ini && kind == 2 then false
  else match s.region a with
  | .hole => false
  | .rom => ini == 0x20 && kind != 1
  | .tcm k => ini == 0x10 + k || (isDma ini && tag == s.rtTagOf k)
  | .sram => s.bezelAllows tag kind a
  | .ddr => (ini ≤ 5 || isDma ini || ini == halyardIni || ini == 0x70 || isRv32 ini) && s.bezelAllows tag kind a
  | .xspi k => !s.cut (0x10 + k) && s.bezelAllows tag kind a
  | .keoreSram => ini == 0x21 || (kind == 0 && tag == s.imgTag)
  | .retain => ini == 0x21 || (kind == 0 && tag == s.imgTag)
  | .bankA => kind == 0 && s.bankReader 0 tag
  | .bankB => kind == 0 && s.bankReader 1 tag
  | .emram => tag == 0
  | .regs => kind != 2 && ini != halyardIni

/-- A refused access (18 R454): VIOL, LASTV and TEN_VIOL. -/
def State.violate (s : State) (ini tag kind a : Nat) : State :=
  let t := s.ten
  let s := { s with ten := { t with viol := bump 32 t.viol tag, lastAddr := a % 2 ^ 40,
                                    lastInfo := tag + 256 * (kind % 4) + 65536 * (ini % 256) } }
  s.raise 0x22 (tag + 256 * (ini % 256))

/-- Whether SECDED check bits cover the byte (01 R563). -/
def State.secded (s : State) (a : Nat) : Bool := s.region a == .sram || s.region a == .emram

/-- The aligned words, as word numbers, that an access of `n` bytes touches and that hold an error. -/
def State.badWords (s : State) (a n : Nat) : List (Nat × Nat) :=
  s.ecc.filter fun p => decide (a / 8 ≤ p.1) && decide (p.1 * 8 < a + n) && s.secded (p.1 * 8)

/-- The corrected words written back, each raising MEM_COR (01 R563). -/
def State.scrub (s : State) : List (Nat × Nat) → State
  | [] => s
  | (w, k) :: r =>
    if k = 1 then (({ s with ecc := del s.ecc w }).raise 0x08 ((w * 8) % 2 ^ 32)).scrub r else s.scrub r

/-- Reads `n` bytes (01 R563): none on an uncorrectable error. `quiet` is set by a block that reports the error
through a source of its own (21 R518). -/
def State.load (s : State) (a n : Nat) (quiet : Bool := false) : Option (List Byte) × State :=
  let bad := s.badWords a n
  let s := s.scrub bad
  match bad.find? fun p => p.2 != 1 with
  | some (w, _) => (none, if quiet then s else s.raise 0x09 ((w * 8) % 2 ^ 32))
  | none => (some (memRead s.mem a n), s)

/-- Whether a write of [a, a+n) covers the whole word `w`. -/
def wholeWord (a n w : Nat) : Bool := decide (a ≤ w * 8) && decide (w * 8 + 8 ≤ a + n)

/-- Writes bytes (01 R563): false when a partial write met an uncorrectable word, whose bytes stay. -/
def State.store (s : State) (a : Nat) (bs : List Byte) : Bool × State :=
  let n := bs.length
  let bad := s.badWords a n
  let whole := bad.filter fun p => wholeWord a n p.1
  let part := bad.filter fun p => !wholeWord a n p.1
  let s := { s with ecc := s.ecc.filter fun p => !(whole.any fun q => q.1 == p.1) }
  let s := s.scrub part
  let stuck := part.filter fun p => p.2 != 1
  let old := s.mem
  let m := memPutAll s.mem a bs
  let m := stuck.foldl (fun m p => memPutAll m (p.1 * 8) (memRead old (p.1 * 8) 8)) m
  let s := { s with mem := m }
  match stuck with
  | [] => (true, s)
  | (w, _) :: _ => (false, s.raise 0x09 ((w * 8) % 2 ^ 32))

/-- Every byte of [a, a+n) may be reached; only the ends and the edges of ranges can differ, but each byte is asked. -/
def State.spanOK (s : State) (ini tag kind a n : Nat) : Bool :=
  (List.range n).all fun i => s.mayReach ini tag kind (a + i)

/-- A buffer named in parameters can take `need` bytes written under the ring tag (05 R115 detail 0x10). -/
def State.outOK (s : State) (tag out outLen need : Nat) : Bool :=
  decide (need ≤ outLen) && decide (out + outLen ≤ 2 ^ 40) && s.spanOK halyardIni tag 1 out need

/-- Bytes written by Halyard for a command (04 R91, R92). -/
def State.writeOut (s : State) (a : Nat) (bs : List Byte) : State := (s.store a bs).2

/-! ### Completions -/

/-- The ring of a tag. Rings 0 and 1 are enabled at every C-die start (04 R82). -/
def State.ring (s : State) (n : Nat) : Ring := look (fun k => { enabled := decide (k ≤ 1) }) s.hal.rings n

/-- A ring changed. -/
def State.setRing (s : State) (n : Nat) (r : Ring) : State := { s with hal := { s.hal with rings := put s.hal.rings n r } }

/-- Entries of a ring of SIZE `n` (04 R81). -/
def Ring.entries (r : Ring) : Nat := 2 ^ r.size

/-- Difference of two free-running indices (04 R85). -/
def idx (a b : Nat) : Nat := (a + 2 ^ 32 - b % 2 ^ 32) % 2 ^ 32

/-- The in-flight entry of a ring's CTAG; the entry of a command refused for its duplicate CTAG is not it (04 R94). -/
def State.inflightOf (s : State) (ring ctag : Nat) : Option InFl :=
  s.hal.inflight.find? fun e => e.ring == ring && e.ctag == ctag && !e.dup

/-- In-flight commands of a ring. -/
def State.inflightCount (s : State) (ring : Nat) : Nat := (s.hal.inflight.filter fun e => e.ring == ring).length

/-- A DRAINING ring with nothing in flight becomes DETACHED (04 R84). SIZE and the base, which the spec gives only while the ring is
attached, keep their values while it drains and then read 0; the indices stay as they are (DESIGN CHOICE, log 45). -/
def State.drained (s : State) (ring : Nat) : State :=
  let r := s.ring ring
  if r.st = 2 ∧ s.inflightCount ring = 0 then s.setRing ring { r with st := 0, size := 0, base := 0 } else s

/-- The in-flight entry of a command released (04 R100); `dup` names the entry of a command refused for its duplicate CTAG. -/
def State.release (s : State) (ring ctag : Nat) (dup : Bool := false) : State :=
  let s := { s with hal := { s.hal with
    inflight := dropFirst (fun e => e.ring == ring && e.ctag == ctag && e.dup == dup) s.hal.inflight,
    mpq := if dup then s.hal.mpq else s.hal.mpq.filter (· != (ring, ctag)) } }
  s.drained ring

/-- Free completion slots of a ring, less those its waiting completions will take (04 R87). -/
def State.freeSlots (s : State) (ring : Nat) : Nat :=
  let r := s.ring ring
  r.entries - idx r.cplTail r.cplHead - (s.hal.due.filter fun c => c.ring == ring).length

/-- A completion falls due (04 R88, R92, R93). On a DRAINING ring without a free slot it is discarded (R84).
A header with ring 16 stands for a command that has been answered already (R103). -/
def State.replyAt (s : State) (h : Hdr) (st : Status) (detail result time : Nat) (final : Bool) (dup : Bool := false) : State :=
  if 16 ≤ h.ring then s else
  let c : Cpl := { ring := h.ring, ctag := h.ctag, status := st, detail := detail, result := result, time := time % 2 ^ 32,
                   irq := h.irq, final := final, dup := dup }
  let s := if st = .busy then
      s.setRing h.ring { s.ring h.ring with busyCnt := satAdd 32 (s.ring h.ring).busyCnt 1 } else s
  if (s.ring h.ring).st = 2 ∧ s.freeSlots h.ring = 0 then
    (if final then s.release h.ring h.ctag dup else s)
  else
    { s with hal := { s.hal with
        due := s.hal.due ++ [c],
        inflight := updFirst (fun e => e.ring == h.ring && e.ctag == h.ctag && e.dup == dup)
          (fun e => if final then { e with st := 7 } else { e with interim := true }) s.hal.inflight } }

/-- A completion with TIME at this instant. -/
def State.reply (s : State) (h : Hdr) (st : Status) (detail result : Nat) (final : Bool := true) : State :=
  s.replyAt h st detail result s.now final

/-- OK with a RESULT. -/
def State.ok (s : State) (h : Hdr) (result : Nat := 0) : State := s.reply h .ok 0 result

/-- A final completion that refuses the command. -/
def State.fail (s : State) (h : Hdr) (st : Status) (detail : Nat) (result : Nat := 0) : State := s.reply h st detail result

/-- The interim ACCEPTED (04 R98). -/
def State.accepted (s : State) (h : Hdr) (detail : Nat) : State := s.reply h .accepted detail 0 (final := false)

/-- The in-flight STATE of a command (04 R101). -/
def State.inflightState (s : State) (h : Hdr) (st : Nat) : State :=
  let l := updFirst (fun e => e.ring == h.ring && e.ctag == h.ctag && !e.dup) (fun e => { e with st := st }) s.hal.inflight
  { s with hal := { s.hal with inflight := l } }

/-- A firmware command that cannot finish at the instant it is applied (04 R98): the interim ACCEPTED, and the MP executes it (R101). -/
def State.waits (s : State) (h : Hdr) : State := (s.accepted h 0x01).inflightState h 4

/-- One check of 04 R96: whether it fails, and the completion it then gives. -/
abbrev Chk := Bool × Status × Nat × Nat

/-- BAD_PARAM with a detail. -/
def bp (c : Bool) (d : Nat) : Chk := (c, .badParam, d, 0)
/-- DENIED with a detail. -/
def den (c : Bool) (d : Nat) : Chk := (c, .denied, d, 0)
/-- BAD_STATE with a detail. -/
def bst (c : Bool) (d : Nat) : Chk := (c, .badState, d, 0)
/-- FAULT with a detail. -/
def flc (c : Bool) (d : Nat) : Chk := (c, .fault, d, 0)
/-- ROLE_CHANGED: the packet's epoch against the unit's (04 R106). -/
def role (h : Hdr) (e : Nat) : Chk := (decide (h.epoch ≠ e), .roleChanged, 0, e)
/-- An opcode without E carries EPOCH 0 (05 R114). -/
def noEpoch (h : Hdr) : Chk := bp (decide (h.epoch ≠ 0)) 0x01

/-- The first check that fails (04 R96). -/
def firstBad : List Chk → Option (Status × Nat × Nat)
  | [] => none
  | (c, r) :: rest => if c then some r else firstBad rest

/-- The checks in order; the first that fails completes the command, else it has its effect. -/
def State.guarded (s : State) (h : Hdr) (cs : List Chk) (effect : State) : State :=
  match firstBad cs with
  | some (st, d, r) => s.fail h st d r
  | none => effect

/-- The MP serves firmware commands (04 R103, R111; 18 R469): from boot instant t4, no MP fault, not halted. -/
def State.mpUp (s : State) : Bool := decide (4 ≤ s.sys.boot) && !s.hal.mpFault && !s.dbg.halted.contains 0x20

/-- A hardware-decoded command (04 R95): it has its effect while the C-die runs (log 4). -/
def hwCmd (s : State) (effect : State) : Out := .next (if s.live then effect else s)

/-- A firmware-interpreted command (04 R95): with the MP not serving it completes with BUSY at fetch (R94, R103);
a command already fetched waits. -/
def fwCmd (h : Hdr) (s : State) (effect : State) : Out :=
  .next (if !s.live then s
         else if s.mpUp then effect
         else if (s.inflightOf h.ring h.ctag).isSome then s
         else s.fail h .busy 0x02)

/-- The state an outcome leads to; a stop leaves the state. -/
def Out.orElse (o : Out) (s : State) : State := match o with
  | .next t => t
  | _ => s

/-- A mask with bit `i` at `v`. -/
def maskSet (m i : Nat) (v : Bool) : Nat := if bit m i == v then m else if v then m + 2 ^ i else m - 2 ^ i

/-- An event row that names a unit the part does not have stops the model (log 9). -/
def unitEvent (ok : Bool) (effect : State) : Out := if ok then .next effect else .fault .noSuchUnit

/-- A command with a descriptor (04 R91, R94 step 5, R96): an unreachable byte gives detail 0x03, and the access that is refused when the
command is applied is recorded with Halyard's code (R83); the check at the fetch makes no access (log 53). Then the
checks `pre` of index, owner and epoch; then the length, 1 to 0x0020_0000 and as the record has it, detail 0x05;
then the device reads the buffer once, and an uncorrectable error gives FAULT 0x03. -/
def State.withDesc (s : State) (h : Hdr) (addr len : Nat) (pre : List Chk) (lenOk : Bool)
    (k : List Byte → State → State) : State :=
  if s.spanOK halyardIni h.ring 0 addr len = false then (s.violate halyardIni h.ring 0 addr).fail h .badParam 0x03
  else s.guarded h (pre ++ [bp (decide (len = 0 ∨ 0x00200000 < len) || !lenOk) 0x05])
    (match s.load addr len with
     | (none, s) => s.fail h .fault 0x03
     | (some bs, s) => k bs s)

/-- An operation whose final completion is still to come (04 R98). -/
def State.addOp (s : State) (o : Op) : State := { s with hal := { s.hal with ops := s.hal.ops ++ [o] } }

/-- The operation of a command. -/
def State.opOf (s : State) (h : Hdr) : Option Op := s.hal.ops.find? fun o => o.h.ring == h.ring && o.h.ctag == h.ctag

/-- The operation of a command dropped. -/
def State.dropOp (s : State) (h : Hdr) : State :=
  { s with hal := { s.hal with ops := dropFirst (fun o => o.h.ring == h.ring && o.h.ctag == h.ctag) s.hal.ops } }

end Sys2Proof.Machine
end

