-- ==== Sys2Proof/Machine/AdmTable.lean ====
section
/-! DEFINITION. The admission table: budgets, the sums of a budget, when a request fits, and the outcome of a
scheduler firing (07 R161 to R179; 06 R157). -/
namespace Sys2Proof.Machine
open Sys2Proof

/-- A quotient: exact when whole, else rounded in a way the spec leaves open (log 13). -/
def divR (a b : Nat) : Nat := if a % b = 0 then a / b else Config.roundDiv a b

/-- Gate `g` (18 R463). -/
def State.gate (s : State) (g : Nat) : Gate := look (fun _ => {}) s.ten.gate g

/-- A gate is cut, or its CUT is pending: a firmware opcode that needs the block does not start (18 R465). -/
def State.shutGate (s : State) (g : Nat) : Bool := (s.gate g).cut || !(s.gate g).pend.isEmpty

/-- A firmware command that needs a block whose gate is cut or about to be (18 R464, R465, R474). -/
def State.gated (s : State) (g : Nat) : Chk := bst (s.shutGate g) 0x1F

/-- Gate of controller `c`, 0 to 11 CAN and 12 to 19 LIN (18 R463). -/
def ctlGate (c : Nat) : Nat := if c < 12 then 0x20 + c else 0x30 + (c - 12)

/-- No handle. -/
def noHandle : Nat := 0x10000

/-- A PRIORITY grant outside the table, which software sees as handle 0xFFFF (07 R179). The model keeps a number that no entry's handle
takes, since entry 255 has the handle 0xFFFF when its count is 255. -/
def outsideHandle : Nat := 0x1FFFF

/-- Budget `k` at reset (07 R161): LEVEL equals CAP. -/
def budgetReset (k : Nat) : Budget :=
  if k < 4 then {} else { limit := 6000, reserve := 0, cap := 0, level := 0 }

/-- Budget `k`. -/
def State.budget (s : State) (k : Nat) : Budget := look budgetReset s.adm.bud k

/-- Budget `k` changed. -/
def State.setBudget (s : State) (k : Nat) (b : Budget) : State := { s with adm := { s.adm with bud := put s.adm.bud k b } }

/-- Table entry `i` (07 R179). -/
def State.admEnt (s : State) (i : Nat) : AdmEnt := look (fun _ => {}) s.adm.tab i

/-- Table entry `i` changed. -/
def State.setAdmEnt (s : State) (i : Nat) (e : AdmEnt) : State := { s with adm := { s.adm with tab := put s.adm.tab i e } }

/-- The entries in use. -/
def State.admUsed (s : State) : List (Nat × AdmEnt) := s.adm.tab.filter fun p => p.2.st != 0

/-- The lowest free entry. -/
def State.admFree (s : State) : Option Nat := (List.range 256).find? fun i => (s.admEnt i).st == 0

/-- Handle of entry `i` (07 R179). -/
def State.handleOf (s : State) (i : Nat) : Nat := i + 256 * (s.admEnt i).count

/-- The entry a handle names, if it is in use and the reuse count matches. -/
def State.handleIdx (s : State) (hd : Nat) : Option Nat :=
  if hd < 0x10000 ∧ (s.admEnt (hd % 256)).st ≠ 0 ∧ (s.admEnt (hd % 256)).count = hd / 256 then some (hd % 256) else none

/-- USED of a budget (07 R167). -/
def State.used (s : State) (k : Nat) : Nat :=
  ((s.adm.tab.filter fun p => p.2.st == 2 && p.2.bud == k).map (·.2.amount)).sum +
    ((s.adm.outside.filter fun p => p.bud == k).map (·.amount)).sum

/-- PRI of a budget (07 R167). -/
def State.pri (s : State) (k : Nat) : Nat :=
  ((s.adm.tab.filter fun p => p.2.st == 2 && p.2.bud == k && p.2.prio).map (·.2.amount)).sum +
    ((s.adm.outside.filter fun p => p.bud == k).map (·.amount)).sum

/-- GEN of a budget (07 R167). -/
def State.gen (s : State) (k : Nat) : Nat := s.used k - Nat.min (s.pri k) (s.budget k).reserve

/-- Offset of device time in the frame of the window, in ns (07 R176). -/
def State.winOff (s : State) : Nat := (s.now - s.adm.start) % (s.adm.frame * 1000)

/-- The window is open (07 R176). -/
def State.winOpen (s : State) : Bool :=
  s.adm.winEn && decide (s.adm.start ≤ s.now) && decide (s.adm.phase * 1000 ≤ s.winOff) &&
    decide (s.winOff < (s.adm.phase + s.adm.length) * 1000)

/-- A request the window can hold: TURNON or SLEW, not PRIORITY (07 R176). -/
def AdmEnt.windowed (e : AdmEnt) : Bool := (e.typ == 1 || e.typ == 2) && !e.prio

/-- Why a queued request does not fit (07 R167, R169): 0 when it fits, else 1 current, 2 charge, 3 window. -/
def State.holdReason (s : State) (e : AdmEnt) : Nat :=
  let b := s.budget e.bud
  if e.bud = 4 then (if s.used 4 + e.amount ≤ b.limit then 0 else 1)
  else if !(decide (s.gen e.bud + e.amount + b.reserve ≤ b.limit)) then 1
  else if (b.level - (e.charge : Int) * 10000) * (b.limit : Int) < (b.cap * b.reserve : Nat) * 10000 then 2
  else if s.adm.winEn && e.windowed &&
      !(s.winOpen && decide (s.winOff + e.dur * 1000 ≤ (s.adm.phase + s.adm.length) * 1000)) then 3
  else 0

/-- Why a request can never fit the budget as configured (07 R169): 0 when it can. -/
def State.neverReason (s : State) (e : AdmEnt) : Nat :=
  let b := s.budget e.bud
  if e.bud = 4 then (if b.limit < e.amount then 1 else 0)
  else if b.limit < e.amount + b.reserve then 1
  else if b.cap * b.limit < e.charge * b.limit + b.cap * b.reserve then 2
  else if s.adm.winEn && e.windowed && decide (s.adm.length < e.dur) then 4
  else 0

/-- A live grant or a queued request leaves the table (07 R166, R179): its entry is empty and its reuse count rises.
A grant's end makes its budget evaluate (R173). -/
def State.freeEntry (s : State) (i : Nat) : State :=
  let e := s.admEnt i
  let hd := s.handleOf i
  let b := s.budget e.bud
  let s := if b.hold = hd then s.setBudget e.bud { b with hold := noHandle } else s
  let s := s.setAdmEnt i { count := (e.count + 1) % 256 }
  if e.st = 2 then { s with adm := { s.adm with ended := s.adm.ended ++ [e.bud] } } else s

/-- The request or grant of a handle ends. -/
def State.freeHandle (s : State) (hd : Nat) : State :=
  match s.handleIdx hd with
  | some i => s.freeEntry i
  | none => s

/-- The PRIORITY grant a channel holds outside the table ends (07 R179). -/
def State.freeOutside (s : State) (ch : Nat) : State :=
  match s.adm.outside.find? fun p => p.ch == ch with
  | none => s
  | some p => { s with adm := { s.adm with outside := dropFirst (fun q => q.ch == ch) s.adm.outside, ended := s.adm.ended ++ [p.bud] } }

/-- Entry `i` granted (07 R163, R166): LEVEL falls by the charge; DURATION starts. -/
def State.grantEntry (s : State) (i : Nat) : State :=
  let e := s.admEnt i
  let b := s.budget e.bud
  let b := { b with level := if e.bud = 4 then b.level else b.level - (e.charge : Int) * 10000, lastTag := e.tag,
                    hold := if b.hold = s.handleOf i then noHandle else b.hold }
  (s.setBudget e.bud b).setAdmEnt i
    { e with st := 2, reason := 0, endCyc := if e.dur = 0xFFFFFFFF ∧ e.endCyc = 0 then 0 else s.cyc + usCyc e.dur }

/-! ### The outcome of a scheduler firing -/

/-- Scheduler entry `n`. -/
def State.sent (s : State) (n : Nat) : SEnt := look (fun _ => {}) s.sch.ent n

/-- Scheduler entry `n` changed. -/
def State.setSent (s : State) (n : Nat) (e : SEnt) : State := { s with sch := { s.sch with ent := put s.sch.ent n e } }

/-- REPEAT of an entry record (06 R146). -/
def SEnt.repeats (e : SEnt) : Bool := bit (byteAt e.rcd 2) 1

/-- COUNT of an entry record (06 R146). -/
def SEnt.limit (e : SEnt) : Nat := le e.rcd 24 2

/-- A due point passes (06 R148, R156): the count rises; a one-shot entry, or a repeating one at its COUNT-th due
point, returns to WRITTEN. -/
def SEnt.duePoint (e : SEnt) : SEnt :=
  let f := e.fired + 1
  let done := !e.repeats || (e.limit != 0 && decide (e.limit ≤ f))
  { e with fired := f, st := if done then 1 else e.st, next := if done then 0 else e.next, owed := if done then none else e.owed }

/-- The outcome of a firing (06 R157): LAST, its device counter, and the EVENT line. -/
def State.schedOutcome (s : State) (n code : Nat) : State :=
  let e := s.sent n
  let s := s.setSent n { e with last := code }
  let c := s.sch
  let c := if code = 2 then { c with lateCnt := satAdd 32 c.lateCnt 1 }
           else if code = 3 then { c with missCnt := satAdd 32 c.missCnt 1 }
           else if 4 ≤ code then { c with refCnt := satAdd 32 c.refCnt 1 } else c
  let s := { s with sch := c }
  if 2 ≤ code ∨ bit (byteAt e.rcd 2) 4 then s.pulse (le e.rcd 28 2) else s

/-- A firing of entry `n` ends (06 R149, R157): its due point passes and its outcome is recorded. -/
def State.firingEnds (s : State) (n code : Nat) : State := (s.setSent n (s.sent n).duePoint).schedOutcome n code

end Sys2Proof.Machine
end

