-- ==== Sys2Proof/Machine/Channels.lean ====
section
/-! DEFINITION. A load channel: its record, its Bunting, the report of a command's end to its origin, and the
transitions that need no admission (08 R183 to R202, 09 R214 to R236). -/
namespace Sys2Proof.Machine
open Sys2Proof

/-! ### Records and figures -/

/-- Class of a channel (08 R183): 0 heavy, 1 medium, 2 light. -/
def chClass (n : Nat) : Nat := if n % 20 < 4 then 0 else if n % 20 < 12 then 1 else 2

/-- P-die of a channel (01 R12). -/
def chDie (n : Nat) : Nat := n / 20

/-- Supply group of a channel (02 R39). -/
def chGroup (n : Nat) : Nat :=
  let k := n % 20
  let second := (decide (2 ≤ k) && decide (k < 4)) || (decide (8 ≤ k) && decide (k < 12)) || decide (16 ≤ k)
  2 * (n / 20) + b2n second

/-- Channel `n`. -/
def State.chan (s : State) (n : Nat) : Chan := look (fun _ => {}) s.lch.chan n

/-- Channel `n` changed. -/
def State.setChan (s : State) (n : Nat) (c : Chan) : State := { s with lch := { s.lch with chan := put s.lch.chan n c } }

/-- Bunting position `n`. -/
def State.bunt (s : State) (n : Nat) : BuntPos := look (fun _ => {}) s.lch.bunt n

/-- Bunting position `n` changed. -/
def State.setBunt (s : State) (n : Nat) (b : BuntPos) : State := { s with lch := { s.lch with bunt := put s.lch.bunt n b } }

/-- Supply group `g`. -/
def State.grp (s : State) (g : Nat) : Group := look (fun _ => {}) s.lch.grp g

/-- P-die `d`. -/
def State.pdie (s : State) (d : Nat) : Die := look (fun _ => {}) s.lch.pdie d

/-- P-die `d` changed. -/
def State.setPdie (s : State) (d : Nat) (x : Die) : State := { s with lch := { s.lch with pdie := put s.lch.pdie d x } }

/-- Supply group `g` changed. -/
def State.setGrp (s : State) (g : Nat) (x : Group) : State := { s with lch := { s.lch with grp := put s.lch.grp g x } }

/-- The channel is a member of a Bunting. -/
def State.bonded (s : State) (n : Nat) : Bool := decide ((s.chan n).bunt < 40)

/-- The channel whose state governs: the lowest member of the Bunting, or the channel itself (08 R199, R200). -/
def State.lead (s : State) (n : Nat) : Nat := if s.bonded n then (s.chan n).bunt else n

/-- The members that act as one (08 R199). Every member set of R198 is a run of consecutive channels. -/
def State.members (s : State) (n : Nat) : List Nat :=
  if s.bonded n then (List.range (s.bunt (s.lead n)).count).map (· + s.lead n) else [n]

/-- The epoch that commands to the channel carry (04 R106). -/
def State.chEpoch (s : State) (n : Nat) : Nat := if s.bonded n then (s.bunt (s.lead n)).epoch else (s.chan n).epoch

/-- Every member changed alike (08 R200). -/
def State.modCh (s : State) (n : Nat) (f : Chan → Chan) : State :=
  (s.members n).foldl (fun s m => s.setChan m (f (s.chan m))) s

/-- Code of a channel state (08 R188). -/
def ChState.code : ChState → Nat
  | .off => 0 | .admitWait => 1 | .turnOn => 2 | .on => 3 | .pwm => 4 | .turnOff => 5 | .retryWait => 6 | .latched => 7
  | .safeHold => 8 | .orphanHold => 9 | .undervolt => 10

/-- Code of a commanded action (08 R208 DUTY). -/
def Act.code : Act → Nat
  | .off => 0 | .on => 1 | .pwm => 2

/-- ILIM in force in mA: the class default for 0 (08 R185). -/
def ilim (n : Nat) (rcd : List Byte) : Nat :=
  let v := le rcd 2 2
  100 * (if v ≠ 0 then v else if chClass n = 0 then 400 else if chClass n = 1 then 150 else 30)

/-- BOOST in tenths; 10 for a heavy channel, which has none (08 R185). -/
def boostOf (n : Nat) (rcd : List Byte) : Nat := if chClass n = 0 then 10 else if byteAt rcd 4 = 0 then 15 else byteAt rcd 4

/-- BWIN in ms (08 R185); 0 for a heavy channel. -/
def bwinOf (n : Nat) (rcd : List Byte) : Nat := if chClass n = 0 then 0 else if le rcd 6 2 = 0 then 2 else le rcd 6 2

/-- SLEW in 0.1 V/us (08 R185). -/
def slewOf (rcd : List Byte) : Nat := if le rcd 8 2 = 0 then 10 else le rcd 8 2

/-- PWMF in Hz (08 R185). -/
def pwmfOf (rcd : List Byte) : Nat := if le rcd 10 2 = 0 then 200 else le rcd 10 2

/-- SAFEVAL (08 R185): 0 OFF, 1 ON, 2 HOLD_LAST. -/
def safevalOf (rcd : List Byte) : Nat := byteAt rcd 26

/-- RETRIES (08 R185). -/
def retriesOf (rcd : List Byte) : Nat := if byteAt rcd 25 = 0 then 3 else byteAt rcd 25

/-- IPK in mA (07 R165, 08 R187): the boost limit, or the current limit for heavy. -/
def ipkOf (n : Nat) (rcd : List Byte) : Nat :=
  if le rcd 12 4 ≠ 0 then le rcd 12 4 else divR (ilim n rcd * boostOf n rcd) 10

/-- TINR in us (07 R165, 08 R187): the boost window, or group voltage / SLEW for heavy. `mv2` is in 2 mV. -/
def tinrOf (n mv2 : Nat) (rcd : List Byte) : Nat :=
  if le rcd 20 4 ≠ 0 then le rcd 20 4
  else if chClass n = 0 then divR (mv2 * 2) (slewOf rcd * 100) else bwinOf n rcd * 1000

/-- QINR in mA·ms (07 R165): IPK × TINR. -/
def qinrOf (n mv2 : Nat) (rcd : List Byte) : Nat :=
  if le rcd 16 4 ≠ 0 then le rcd 16 4 else divR (ipkOf n rcd * tinrOf n mv2 rcd) 1000

/-- PRIORITY of a record (08 R185). -/
def prioOf (rcd : List Byte) : Bool := bit (byteAt rcd 1) 0

/-- FINE of a record (08 R185). -/
def fineOf (rcd : List Byte) : Bool := bit (byteAt rcd 1) 1

/-- PWM period in ns (08 R196). -/
def periodNs (rcd : List Byte) : Nat := divR 1000000000 (pwmfOf rcd)

/-- PWM period in fabric cycles. -/
def periodCyc (rcd : List Byte) : Nat := divR 400000000 (pwmfOf rcd)

/-- TMIN in fabric cycles (08 R196): 10 us, or 2 × (group voltage / SLEW) and at least 50 us for heavy. -/
def tminCyc (n mv2 : Nat) (rcd : List Byte) : Nat :=
  if chClass n = 0 then Nat.max (usCyc 50) (divR (2 * mv2 * 2 * 400) (slewOf rcd * 100)) else usCyc 10

/-- Number of the period of a grid that device time `now` lies in (08 R197): the periods start at k x period after `grid`. The second
number is 0 exactly at a period start. -/
def periodIndex (rcd : List Byte) (grid now : Nat) : Int × Int :=
  let d : Int := ((now : Int) - grid) * (pwmfOf rcd : Nat)
  (d / 1000000000, d % 1000000000)

/-- On-time of a PWM period in fabric cycles (08 R196): period × DUTY / 1024, each of on-time and off-time at least
TMIN; DUTY 0 keeps the output off through the whole period. -/
def onCycles (n mv2 duty : Nat) (rcd : List Byte) : Nat :=
  let p := periodCyc rcd
  let t := divR (p * duty) 1024
  if duty = 0 then 0 else Nat.min (Nat.max t (tminCyc n mv2 rcd)) (p - tminCyc n mv2 rcd)

/-- The current limit in force in mA (09 R215): BOOST x ILIM in the boost window of a medium or light channel, ILIM at every other time. -/
def Chan.limitNow (c : Chan) (n cyc : Nat) : Nat :=
  if chClass n ≠ 0 ∧ c.boost ≠ 0 ∧ cyc < c.bwinEnd then divR (ilim n c.cfg * c.boost) 10 else ilim n c.cfg

/-! ### The P-die's time -/

/-- A die's replica of device time (01 R21; 06 R137; 09 R237): it is aligned to the C-die counter while the C-die is present, exactly so
here (log 56), and runs on by itself while it is not. -/
def State.replica (s : State) (x : Die) : Nat := if x.seen && !x.absent && s.live then s.clk.dt else x.dt

/-- Device time in ns on the P-die of channel `n`. -/
def State.chNow (s : State) (n : Nat) : Nat := (s.replica (s.pdie (chDie n)) / 2 ^ 32) % 2 ^ 64

/-- The first multiple of 20 000 ns at or after `t` (08 R204). -/
def nextSample (t : Nat) : Nat := ceilDiv t 20000 * 20000

/-- The replica of P-die `d` has jumped (08 R204; 06 R156): each channel's interval in progress ends at the first multiple of 20 000 ns on
the new time. -/
def State.realign (s : State) (d : Nat) : State :=
  let t := nextSample ((s.replica (s.pdie d) / 2 ^ 32) % 2 ^ 64)
  (List.range 20).foldl (fun s i => s.setChan (20 * d + i) { s.chan (20 * d + i) with smpNext := t }) s

/-! ### Reports -/

/-- How a command to a channel ends, or stands (08 R189, R211; 07 R169). -/
inductive Rep where
  | applied | waiting | latched | held | refused (detail : Nat) | deferred (detail : Nat) | withdrawn | withdrawnHeld
deriving DecidableEq, Repr

/-- OUTCOME of DCRES (08 R211). -/
def Rep.dcres : Rep → Nat
  | .applied => 1 | .waiting => 2 | .latched => 6 | .held => 5 | .refused _ => 7 | .deferred _ => 7 | .withdrawn => 8
  | .withdrawnHeld => 8

/-- LAST of a scheduler firing (06 R157); 0 while it waits. -/
def Rep.last (late : Bool) : Rep → Nat
  | .applied => if late then 2 else 1
  | .waiting => 0 | .latched => 5 | .held => 5 | .refused _ => 6 | .deferred _ => 6 | .withdrawn => 7 | .withdrawnHeld => 7

/-- The refused-command counter of a channel rises (01 R18, 08 R211). -/
def State.refuseCount (s : State) (n : Nat) : State :=
  s.setChan n { s.chan n with refCnt := satAdd 32 (s.chan n).refCnt 1 }

/-- DCRES of a channel (08 R211); outcomes 0x3 to 0x8 count. -/
def State.dcres (s : State) (n code : Nat) : State :=
  let c := s.chan n
  let s := s.setChan n { c with dcOut := code, dcSt := c.st.code }
  if 3 ≤ code then s.refuseCount n else s

/-- A dispatched scheduler action of an entry that waits for admission has ended (06 R153): it leaves the list. -/
def State.endWait (s : State) (n : Nat) (r : Rep) : State :=
  match s.sch.disp.find? fun d => d.ent == n && d.wait with
  | none => s
  | some d =>
    let s := { s with sch := { s.sch with disp := dropFirst (fun d => d.ent == n && d.wait) s.sch.disp } }
    let late := d.late || decide (d.trigCyc < s.cyc)
    s.firingEnds n (r.last late)

/-- The confirmation of a command on a channel brings its registers into the shadow (20 R506). -/
def State.syncCh (s : State) (n : Nat) : State :=
  let f := s.fb
  let f := (s.members n).foldl (fun f m => { f with shChan := put f.shChan m (s.chan m) }) f
  let f := if s.bonded n then { f with shBunt := put f.shBunt (s.lead n) (s.bunt (s.lead n)) } else f
  { s with fb := f }

/-- The end of a command is told to its origin: a Halyard completion with the state code, DCRES and the counter,
or the outcome of the firing. -/
def State.report (s : State) (n : Nat) (o : Origin) (r : Rep) : State :=
  match o with
  | .none => s
  | .self => s
  | .halyard h =>
    let s := s.syncCh n
    match r with
    | .applied => s.ok h (s.chan n).st.code
    | .waiting => (s.accepted h 0x02).inflightState h 5
    | .latched => s.fail h .badState 0x10
    | .held => s.fail h .fault 0x01
    | .refused d => s.fail h .refused d
    | .deferred d => s.fail h .deferred d
    | .withdrawn => s.fail h .refused 0x06
    | .withdrawnHeld => s.fail h .fault 0x01
  | .direct ch => (s.dcres ch r.dcres).syncCh n
  | .keore ch =>
    (if 3 ≤ r.dcres then
      let s := s.refuseCount ch
      { s with keo := { s.keo with wref := satAdd 32 s.keo.wref 1 } } else s).syncCh n
  | .sched e => if r = .waiting then s else (s.endWait e r).syncCh n

/-- A channel's queued request is withdrawn (07 R172) and its origin told; one that ends as REFUSED is counted (R182). -/
def State.withdraw (s : State) (n : Nat) (r : Rep) : State :=
  let m := s.lead n
  let c := s.chan m
  if c.handle = noHandle ∨ c.granted then s
  else
    let s := s.freeHandle c.handle
    let s := if r = .withdrawn then { s with adm := { s.adm with refCnt := satAdd 32 s.adm.refCnt 1 } } else s
    let s := s.modCh m fun c => { c with handle := noHandle, via := .none }
    s.report m c.via r

/-- A channel's grant ends (07 R166). -/
def State.endGrant (s : State) (n : Nat) : State :=
  let m := s.lead n
  let c := s.chan m
  if c.granted then
    let s := if c.handle = outsideHandle then s.freeOutside m else s.freeHandle c.handle
    s.modCh m fun c => { c with handle := noHandle, granted := false }
  else s

/-! ### Transitions -/

/-- A member enters a state at instant `now` of its die (08 R192, R213). CURPK counts from the last time it left OFF (R206). -/
def Chan.enter (c : Chan) (st : ChState) (now : Nat) : Chan :=
  { c with st := st, tchg := if c.st = st then c.tchg else now, curPk := if c.st = .off ∧ st ≠ .off then 0 else c.curPk }

/-- The Bunting or channel enters a state. -/
def State.goCh (s : State) (n : Nat) (st : ChState) (f : Chan → Chan := id) : State :=
  s.modCh n fun c => f (c.enter st (s.chNow n))

/-- A member's output is switched on, or off: with it the limiting and its times end (09 R214, R230). -/
def Chan.output (c : Chan) (on : Bool) : Chan :=
  if on then { c with out := true }
  else { c with out := false, limit := false, scOn := false, limCyc := 0, scCyc := 0, limPer := false }

/-- A turn-on begins (08 R186, R193, R196, R206). Only one from OFF takes BOOST and BWIN from the record and starts CUR again; the boost
window runs at a turn-on into PWM only if it is one from OFF. -/
def Chan.rising (c : Chan) (n cyc : Nat) (pwm : Bool := false) : Chan :=
  let d := if c.fromOff then { c with curFresh := true, boost := boostOf n c.cfg, bwin := bwinOf n c.cfg } else c
  { d with t0 := cyc, fromOff := false, bwinEnd := if c.fromOff || !pwm then cyc + msCyc d.bwin else d.bwinEnd }

/-- PWM begins with its first period at this instant (08 R197), or on the kept grid (09 R222), where the output stays off until the next
period start at or after this instant. -/
def State.startPwm (s : State) (n : Nat) (grid : Nat) (kept : Bool) : State :=
  let c := s.chan (s.lead n)
  let on := onCycles (s.lead n) (s.grp (chGroup n)).mv2 c.duty c.cfg
  let k := periodIndex c.cfg c.grid (s.chNow n)
  s.goCh n .pwm fun c =>
    if kept then { c.output false with onCyc := s.cyc, per := if k.2 = 0 then k.1 - 1 else k.1 }
    else { c.output (decide (on ≠ 0)) with grid := grid, gridOk := true, per := 0, perAt := s.cyc, perOn := on, onCyc := s.cyc,
                                           limCyc := 0, scCyc := 0, limAt := s.cyc, scAt := s.cyc, limPer := c.limit }

/-- The imbalance of a Bunting ends when it turns off (08 R203). -/
def State.imbalEnd (s : State) (n : Nat) : State :=
  let m := s.lead n
  if s.bonded m ∧ (s.bunt m).imbal then (s.setBunt m { s.bunt m with imbal := false, imbRun := 0 }).condition 0x39 m false else s

/-- Turn-off begins (08 R195): state TURN_OFF, the grant ends. -/
def State.turnOff (s : State) (n : Nat) : State :=
  ((s.endGrant n).goCh n .turnOff fun c => { c.output false with clampShut := 0, gridOk := false }).imbalEnd n

/-- A turn-on from OFF or a protective shutdown triggers the pending KIND 1 captures of the members (08 R207). -/
def State.capTrig (s : State) (n : Nat) (shut : Bool) : State :=
  let t := s.chNow n
  s.modCh n fun c => { c with cap := c.cap.map fun (k : Capture) => if k.kind = 1 ∧ k.trig.isNone then { k with trig := some (t, shut) } else k }

/-! ### Protection -/

/-- The channel is in a hold. -/
def Chan.inHold (c : Chan) : Bool := c.st == .safeHold || c.st == .orphanHold

/-- A hold whose output is on, or on its way, and has not been shut down (09 R235). -/
def Chan.heldOn (c : Chan) : Bool := c.inHold && c.held != .off && !c.holdShut

/-- The output of the channel is commanded on, so protection watches it (09 R214, R235). -/
def Chan.driven (c : Chan) : Bool := c.st == .turnOn || c.st == .on || c.st == .pwm || c.heldOn

/-- The output runs PWM: state PWM, or a hold whose held output is PWM (08 R206). -/
def Chan.runsPwm (c : Chan) : Bool := c.st == .pwm || (c.heldOn && c.held == .pwm)

/-- A turn-on is in progress (08 R193, R194; 09 R235). -/
def Chan.turningOn (c : Chan) : Bool := c.st == .turnOn || (c.heldOn && c.held == .on && !c.held0)

/-- The steady states in which OC and SC are detected (09 R214), holds included (R235). -/
def Chan.steady (c : Chan) : Bool := c.driven && !c.turningOn

/-- The output is falling, its clamp perhaps active (08 R195; 09 R216): a turn-off in progress, in a hold too, or one that another command
or an undervoltage has taken over. -/
def Chan.falling (c : Chan) : Bool := c.st == .turnOff || (c.inHold && c.held == .off && !c.held0)

/-- TLIM in cycles (09 R214): heavy 5 ms, medium 2 ms, light 1 ms. -/
def tlimCyc (n : Nat) : Nat := if chClass n = 0 then msCyc 5 else if chClass n = 1 then msCyc 2 else msCyc 1

/-- The protective conditions of member `n` met by cycle `cyc`, with the cycle each was met in (09 R214; 08 R194). `hot` and `delta` say
that the junction is at 175 C or more, and 60 K or more above the die. The ramp of a heavy turn-on starts at least 0.5 us after t0. -/
def Chan.tripsAt (c : Chan) (n cyc : Nat) (hot delta : Bool) : List (Nat × Nat) :=
  (if c.steady && c.limit && decide (tlimCyc n ≤ c.limCyc + (cyc - c.limAt)) then [(c.limAt + (tlimCyc n - c.limCyc), 1)] else []) ++
  (if c.steady && c.scOn && decide (usCyc 20 ≤ c.scCyc + (cyc - c.scAt)) then [(c.scAt + (usCyc 20 - c.scCyc), 2)] else []) ++
  (if c.driven && hot then [(cyc, 3)] else []) ++ (if c.driven && delta then [(cyc, 4)] else []) ++
  (if decide (chClass n = 0) && c.turningOn && c.out && decide (c.t0 + msCyc 10 + 200 ≤ cyc) then [(c.t0 + msCyc 10 + 200, 5)] else [])

/-- A junction temperature of channel `n` that a waiting row of this fabric cycle reports (log 40), or the latest one. -/
def State.tjNow (s : State) (n : Nat) : Int :=
  s.pending.foldl (fun t i => match i with
    | .protectOt k tj => if k = n then tj else t
    | .protectDt k tj => if k = n then tj else t
    | _ => t) (s.chan n).tj

/-- The protective conditions of member `n` met by now; in an undervoltage its output is off. -/
def State.trips (s : State) (n : Nat) : List (Nat × Nat) :=
  let tj := s.tjNow n
  if (s.grp (chGroup n)).uv then [] else (s.chan n).tripsAt n s.cyc (decide (175 ≤ tj)) (decide (60 ≤ tj - (s.pdie (chDie n)).tref))

/-- The first protective condition of a channel or Bunting (09 R218): the one met first, of the lowest-numbered member where several meet
theirs in one cycle: its cycle, the member and the cause. -/
def State.firstTrip (s : State) (n : Nat) : Option (Nat × Nat × Nat) :=
  (((s.members n).map fun m => (s.trips m).map fun p => (p.1, m, p.2)).flatten).foldl (fun o p => match o with
    | none => some p
    | some q => if p.1 < q.1 then some p else some q) none

/-- Decision at a shutdown (09 R219): whether it latches, `c` being the counter after the increment. -/
def latches (rcd : List Byte) (c : Nat) : Bool :=
  if byteAt rcd 24 = 1 then true
  else if retriesOf rcd = 0xFF then false
  else decide (retriesOf rcd < c)

/-- A protective shutdown of the channel or its whole Bunting (09 R214 to R219, R235): the output goes off, the counter
rises, and the state follows the decision table; in a hold the state stays and HOLDTRIP is set. -/
def State.shutdown (s : State) (n cause : Nat) : State :=
  let m := s.lead n
  let c := s.chan m
  let k := satAdd 8 c.retry 1
  let s := (s.endGrant m).withdraw m .withdrawn
  let s := s.modCh m fun c => { c.output false with retry := k, cause := cause, shutCyc := s.cyc, shutC := k, clampShut := 0, onCyc := s.cyc }
  let s := (s.capTrig m true).imbalEnd m
  if c.inHold then
    let s := s.modCh m fun c => { c with trip := true, holdShut := true, held := .off, held0 := true }
    if c.trip then s else s.raise 0x36 n
  else if latches c.cfg k then
    (s.goCh m .latched id).raise 0x31 n
  else
    (s.goCh m .retryWait id).raise 0x30 (n + 256 * cause)

/-- A protective condition met in this fabric cycle shuts the channel down before a command or a fault reaction of the cycle reaches it
(09 R217). -/
def State.protect (s : State) (n : Nat) : State :=
  match s.firstTrip n with
  | some (_, m, cause) => s.shutdown m cause
  | none => s

/-- A granted turn-on is applied (08 R190, R193, R194): TURN_ON for ON, PWM for PWM. `grid` is the first period start. A thermal condition
met while the output still fell is taken instead (09 R216), and in RETIRED the channel stays off (03 R73). -/
def State.turnOn (s : State) (n : Nat) (grid : Nat) : State :=
  let m := s.lead n
  let c := s.chan m
  if s.sys.lcCur = 5 then (s.endGrant m).goCh m .off fun c => { c.output false with act := .off, gridOk := false, offAt := s.cyc }
  else if c.clampShut ≠ 0 then s.shutdown m c.clampShut
  else
    let s := s.modCh m fun c => c.rising m s.cyc (c.act == .pwm)
    let s := if c.fromOff then s.capTrig m false else s
    if c.act = .pwm then s.startPwm m grid c.gridOk
    else s.goCh m .turnOn fun c => c.output true

/-! ### Holds and supply -/

/-- Held output fixed at entry to SAFE_HOLD by SAFEVAL and the state at entry (09 R235). -/
def heldAt (safeval : Nat) (st : ChState) : Held :=
  if safeval = 1 then .on
  else if safeval = 2 then
    match st with
    | .on => .on | .turnOn => .on | .pwm => .pwm | _ => .off
  else .off

/-- The states a fault hold does not touch (08 R190). -/
def ChState.unheld : ChState → Bool
  | .latched => true | .orphanHold => true | _ => false

/-- The C-die is absent for the channel's P-die (09 R237). -/
def State.dieAbsent (s : State) (n : Nat) : Bool := (s.pdie (chDie n)).absent

/-- A channel whose group lies below its undervoltage threshold (08 R190; 09 R232, R233; 07 R172). -/
def State.undervolt (s : State) (n : Nat) : State :=
  let c := s.chan n
  match c.st with
  | .latched => s
  | .safeHold => ((s.endGrant n).modCh n fun c => c.output false).imbalEnd n
  | .orphanHold => ((s.endGrant n).modCh n fun c => c.output false).imbalEnd n
  | _ => (((s.withdraw n .withdrawn).endGrant n).goCh n .undervolt fun x => x.output false).imbalEnd n

/-- A channel that has come to a state an undervoltage does not leave is moved to UNDERVOLT while its group is below the threshold
(08 R190). -/
def State.uvMove (s : State) (n : Nat) : State :=
  let m := s.lead n
  let c := s.chan m
  if (s.grp (chGroup m)).uv ∧ c.st ≠ .latched ∧ c.st ≠ .undervolt ∧ !c.inHold then s.undervolt m else s

/-- The hold is released (08 R190, 09 R236): ON when the output is on, a running PWM included, else OFF; the commanded
action matches. In an undervoltage the channel then moves to UNDERVOLT. -/
def State.leaveHold (s : State) (n : Nat) : State :=
  let m := s.lead n
  let c := s.chan m
  let on := c.heldOn && !(s.grp (chGroup m)).uv
  let s := s.modCh m fun c => { c with holds := [], orphaned := false, holdShut := false }
  if on then s.goCh m .on fun c => { c with out := true, act := .on, gridOk := false, onCyc := s.cyc, limCyc := 0, scCyc := 0, limPer := false }
  else
    let s := s.endGrant m
    (s.goCh m .off fun c => { c.output false with act := .off, gridOk := false, offAt := s.cyc }).uvMove m

/-- The record of a channel goes back to all-default (08 R185) and the channel to OFF (08 R190 full reset). -/
def Chan.fullReset : Chan := {}

end Sys2Proof.Machine
end

