-- ==== Sys2Proof/Machine/LocketBase.lean ====
section
/-! DEFINITION. Lockets as they stand in system eMRAM: content, metadata and integrity code (19 R475 to R480). -/
namespace Sys2Proof.Machine
open Sys2Proof

/-- Address of slot `i` of the Locket store (19 R477). -/
def slotAddr (i : Nat) : Nat := 0x22360000 + 128 * i

/-- ASCII bytes of a name. -/
def ascii (t : String) : List Byte := t.toList.map fun c => BitVec.ofNat 8 c.toNat

/-- The fused root of a life-cycle state: none in BLANK (19 R485). -/
def State.root (s : State) : List Byte := fitTo 32 (Config.root s.sys.lcCur)

/-- The integrity code of a slot (19 R478). -/
def State.slotCode (s : State) (i : Nat) (u0 u1 : List Byte) : List Byte :=
  let ki := kmac256 s.root [] (ascii "VZ484 LOCKET CODE") 32
  fitTo 16 (kmac256 ki (BitVec.ofNat 8 i :: (u0 ++ u1.take 48)) [] 16)

/-- Unit 0 of a slot (19 R475). -/
def State.slot0 (s : State) (i : Nat) : List Byte := memRead s.mem (slotAddr i) 64

/-- Unit 1 of a slot (19 R477). -/
def State.slot1 (s : State) (i : Nat) : List Byte := memRead s.mem (slotAddr i + 64) 64

/-- The slot's code matches (19 R479). -/
def State.codeOk (s : State) (i : Nat) : Bool := (s.slot1 i).drop 48 == s.slotCode i (s.slot0 i) (s.slot1 i)

/-- KTYPE of a slot. -/
def State.ktype (s : State) (i : Nat) : Nat := byteAt (s.slot0 i) 0

/-- The check of a slot's code (19 R479): a failure is counted, and raised once per slot and C-die start. -/
def State.checkSlot (s : State) (i : Nat) : State :=
  if s.codeOk i then s
  else
    let k := { s.key with badCnt := satAdd 32 s.key.badCnt 1 }
    if k.raised.contains i then { s with key := k }
    else ({ s with key := { k with raised := k.raised ++ [i] } }).raise 0x80 i

/-- A slot rewritten with new content and metadata (19 R477, R478, R482). -/
def State.writeSlot (s : State) (i : Nat) (u0 : List Byte) (wcount origin : Nat) (label : List Byte) : State :=
  let u0 := fitTo 64 u0
  let m := toLE 2 wcount ++ [BitVec.ofNat 8 origin, BitVec.ofNat 8 s.sys.lcCur] ++ fitTo 4 label ++ zeros 40
  let s := (s.store (slotAddr i) (u0 ++ m ++ s.slotCode i u0 m)).2
  { s with key := { s.key with lastLc := s.sys.lcCur, raised := s.key.raised.filter (· != i) } }

/-- WCOUNT after one more write (19 R477, R482). -/
def State.wcount (s : State) (i : Nat) : Nat := satAdd 16 (le (s.slot1 i) 0 2) 1

/-- A slot erased (19 R483). -/
def State.eraseSlot (s : State) (i : Nat) : State := s.writeSlot i [] (s.wcount i) 0 []

/-- What the key copies of an erased Locket lose (19 R490): its SAs return to EMPTY, its identifiers are released. -/
def State.dropCopies (s : State) (i : Nat) : State :=
  let sa := s.net.sa.map fun (p : Nat × Sa) => if p.2.st != 0 && p.2.locket == i then (p.1, ({} : Sa)) else p
  { s with net := { s.net with sa := sa }, can := { s.can with prot := s.can.prot.filter fun p => p.locket != i } }

/-- A use of a slot of type `k` with the usage bits `u` (19 R476, R479, R487): BAD_STATE 0x11 for a code that does not match,
0x12 for a type or usage that does not fit. -/
def State.useChecks (s : State) (i k u : Nat) : List Chk :=
  [bst (!s.codeOk i) 0x11, bst (decide (s.ktype i ≠ k ∨ byteAt (s.slot0 i) 1 % 2 ^ 8 &&& u ≠ u)) 0x12]

/-- The pure-form message of FIPS 204: context and message (19 R491). -/
def pureMsg (ctx msg : List Byte) : List Byte := [0, BitVec.ofNat 8 ctx.length] ++ ctx ++ msg

/-- In BLANK no root exists (19 R485): every KEY and ATTEST command completes with BAD_STATE 0x10. -/
def State.blankChk (s : State) : Chk := bst (decide (s.sys.lcCur = 0)) 0x10

end Sys2Proof.Machine
end

