-- ==== Sys2Proof/Machine/RegBase.lean ====
section
/-! DEFINITION. SYSCTL words and measurement registers that other blocks read, and gate use counts (00 R2; 03 R63, R68, R72,
R77; 18 R465, R473). -/
namespace Sys2Proof.Machine
open Sys2Proof

/-- SYSCTL.DEVID (00 R2): stepping B0. -/
def State.devid (s : State) : Nat := 0x04840100 + s.sys.variant % 16 * 4096

/-- Bits set in a fuse word (03 R74). -/
def popcount (w : Nat) : Nat := ((List.range 32).filter fun i => w.testBit i).length

/-- The life-cycle state the fuse words select (03 R74). -/
def State.lcFused (s : State) : Nat :=
  ([5, 4, 3, 2, 1] : List Nat).find? (fun k => decide (24 ≤ popcount (look (fun _ => 0) s.sys.lcWord k))) |>.getD 0

/-- Owner key `k` (1 to 4) is fused and not revoked (03 R76). -/
def State.ownKeyOk (s : State) (k : Nat) : Bool :=
  !(look (fun _ => []) s.sys.keyHash k).isEmpty && !look (fun _ => false) s.sys.revoked k

/-- SYSCTL.LCSTATE (03 R77). -/
def State.lcstate (s : State) : Nat :=
  s.sys.lcCur + listMask ((List.range 4).filter fun i => s.ownKeyOk (i + 1)) * 16 + s.lcFused * 256

/-- SYSCTL.RSTCAUSE (03 R63). -/
def State.rstcause (s : State) : Nat := s.sys.cause + b2n s.sys.full * 256 + s.sys.starts * 65536

/-- SYSCTL.BOOTSTAT (03 R72). -/
def State.bootstat (s : State) : Nat :=
  let y := s.sys
  y.patch + y.bcr * 4 + b2n y.warm * 128 + y.keoreB * 256 + y.rtsec * 1024 + y.rtx * 4096 + y.appl * 16384 + y.boot * 2 ^ 28

/-- SYSCTL.DBGEN (18 R473). -/
def State.dbgen (s : State) : Nat := s.dbg.ni + s.dbg.inv * 65536

/-- Measurement register `n` (03 R68). -/
def State.meas (s : State) (n : Nat) : List Byte := look (fun _ => zeros 64) s.sys.meas n

/-- A measurement register extended (03 R68). -/
def State.extend (s : State) (n : Nat) (h : List Byte) : State :=
  { s with sys := { s.sys with meas := put s.sys.meas n (shake256 (s.meas n ++ h) 64) } }

/-- AOCNT, the always-on microsecond count (16 R406). -/
def State.aocnt (s : State) : Nat := s.clk.aoCyc / 400 % 2 ^ 64

/-- The command signs: KEY.SIGN or ATTEST.REPORT (19 R491, R493). -/
def cmdSigns : Instr → Bool
  | .keySign _ _ _ _ _ _ => true
  | .attestReport _ _ _ _ => true
  | _ => false

/-- The operation works in the Signet engine now. -/
def Op.signing (o : Op) : Bool := o.running && cmdSigns o.cmd

/-- Waiting firmware commands of controller `c`, 0 to 19: CAN.MODE, and CAN.TX and CAN.OBJ on its objects. -/
def State.ctlWaits (s : State) (c : Nat) : Nat :=
  (look (fun _ => ({} : Ctl)) s.can.ctl c).wantH.length +
    ((s.can.obj.filter fun (p : Nat × CObj) => p.2.ctrl == c).map fun (p : Nat × CObj) =>
      b2n p.2.h.isSome + b2n (p.2.later.any fun q => q.1.isSome) + (p.2.role.filter fun q => q.owner.isNone).length).sum

/-- Firmware opcodes at work on the block of gate `g`: each takes a tag 0 use count for its duration (18 R465). -/
def State.fwUses (s : State) (g : Nat) : Nat :=
  if g = 1 then (s.hal.ops.filter Op.signing).length
  else if 0x20 ≤ g ∧ g ≤ 0x2B then s.ctlWaits (g - 0x20)
  else if 0x30 ≤ g ∧ g ≤ 0x37 then s.ctlWaits (12 + (g - 0x30))
  else 0

/-- Use count of a gate that a tag's own USE commands hold (18 R465). -/
def State.heldCount (s : State) (g tag : Nat) : Nat := look (fun _ => 0) (s.gate g).count tag

/-- Use count of a gate by a tag, 0 to 15 (18 R465): its own, and for tag 0 those of the firmware opcodes at work. -/
def State.useCount (s : State) (g tag : Nat) : Nat :=
  Nat.min 15 (s.heldCount g tag + if tag = 0 then s.fwUses g else 0)

/-- The count a tag's own USE commands hold changed. -/
def State.setUse (s : State) (g tag n : Nat) : State :=
  let x := s.gate g
  { s with ten := { s.ten with gate := put s.ten.gate g { x with count := put x.count tag n } } }

/-- IMAGEID of the running Keore image (15 R370); 0 when STOPPED. -/
def State.imageId (s : State) : Nat := if s.keo.st = 0 then 0 else le s.keo.run 8 4

/-- The tag an application core presents (18 R450). -/
def State.coreTag (s : State) (c : Nat) : Nat := if s.ten.low.contains c then look (fun _ => 0) s.ten.mtagNow c else 0

/-- The tag an initiator presents; none for a code that names no initiator (18 R472). -/
def State.iniTag (s : State) (ini : Nat) : Option Nat :=
  if ini ≤ 5 then some (s.coreTag ini)
  else if 0x10 ≤ ini ∧ ini ≤ 0x12 then some (s.rtTagOf (ini - 0x10))
  else if ini = 0x20 then some 0
  else if ini = 0x21 then some s.imgTag
  else if isDma ini then some (s.owner 1 (ini - 0x30))
  else none

/-- An access of initiator `ini` may carry `tag` (01 R16): the tag is the initiator's own; the debug port acts as a tag that has invasive
debug (18 R468). No initiator raises its tag, so a row that names another one is an access that does not come. -/
def State.presents (s : State) (ini tag : Nat) : Bool :=
  if ini = 0x70 then decide (tag < 16) && bit s.dbg.inv tag else s.iniTag ini == some tag

/-- The source sends trace packets now: it is enabled and runs under a tag with non-invasive debug (18 R471). -/
def State.coreTraced (s : State) (c : Nat) : Bool := bit s.dbg.trace c && bit s.dbg.ni (s.coreTag c)

/-- The gap packet of core `c` (18 R471): a period under a tag that is not traced begins at `old`, or it ends and the packet gives its length. -/
def State.traceGap (s old : State) (c : Nat) : State :=
  let d := s.dbg
  if old.coreTraced c && !s.coreTraced c && bit d.trace c then { s with dbg := { d with gap := put d.gap c s.now } }
  else match s.coreTraced c, look? d.gap c with
    | true, some t =>
      { s with dbg := { d with gap := del d.gap c, out := BitVec.ofNat 8 (0x30 + c) :: toLE 4 (Nat.min (s.now - t) (2 ^ 32 - 1)) } }
    | _, _ => s

/-- The gap packets of the six cores after their tags, or the enables, have changed from those of `old`. -/
def State.traceGaps (s old : State) : State := (List.range 6).foldl (fun (s : State) (c : Nat) => s.traceGap old c) s

end Sys2Proof.Machine
end

