-- ==== Sys2Proof/Machine/OpStart.lean ====
section
/-! DEFINITION. The start of a firmware operation once its leave is granted (19 R487, R494 to R497; 18 R465). -/
namespace Sys2Proof.Machine
open Sys2Proof

/-- The seed of the attestation key (19 R494). -/
def State.attestSeed (s : State) : List Byte :=
  kmac256 s.root ([0, 0xFF, 4, 9] ++ ascii "ATTEST-ID") (ascii "VZ484 LOCKET") 32

/-- The body of a Hallmark, bytes 0 to 703, captured now (19 R496, R497). -/
def State.hallmark (s : State) (tag : Nat) (nonce : List Byte) : List Byte :=
  let svn := (List.range 6).map fun i => BitVec.ofNat 8 (look (fun _ => 0) s.sys.svn (i + 1))
  toLE 4 0x4B4C4D48 ++ toLE 2 1 ++ toLE 2 704 ++ toLE 4 s.devid ++ toLE 4 s.lcstate ++ fitTo 16 s.sys.uid ++ fitTo 32 nonce ++
  [BitVec.ofNat 8 tag, 0, 0, 0] ++ toLE 4 s.rstcause ++ toLE 4 s.bootstat ++ toLE 4 s.dbgen ++ toLE 8 s.now ++
  [BitVec.ofNat 8 (match s.clk.disc with | .free => 0 | .acquiring => 1 | .locked => 2 | .holdover => 3 | .gm => 4),
   BitVec.ofNat 8 (byteAt s.clk.gptp 2), 0, 0] ++ toLE 4 s.clk.aoSess ++ toLE 8 s.aocnt ++ svn ++ toLE 2 s.sys.ext7 ++
  toLE 4 s.imageId ++ [BitVec.ofNat 8 (s.keo.st + 16 * s.keo.bank), 0, 0, 0] ++
  fitTo 32 (shake256 (dsaPublic s.attestSeed) 32) ++ ((List.range 8).map fun n => fitTo 64 (s.meas n)).flatten ++ zeros 40

/-- The operation's own data set at its start: it stands behind the operations that started before it (19 R493). -/
def State.setOp (s : State) (o : Op) (key : List Byte) : State :=
  let mine := fun (x : Op) => x.h.ring == o.h.ring && x.h.ctag == o.h.ctag
  let x := (s.hal.ops.find? mine).getD o
  { s with hal := { s.hal with ops := dropFirst mine s.hal.ops ++ [{ x with key := key, t := s.now, began := s.cyc }] } }

/-- A measurement register was extended in the fabric cycle of a Hallmark's capture: the extension is taken before the capture
(19 R496). -/
def State.recapture (s : State) : State :=
  { s with hal := { s.hal with ops := s.hal.ops.map fun (o : Op) =>
      if !o.running || o.began != s.cyc then o
      else match o.cmd with
        | .attestReport _ _ _ nonce => { o with key := s.hallmark o.h.ring nonce }
        | _ => o } }

/-- An operation starts after its grant (19 R487, R496): a signing operation meets its gate, reads and checks its Locket and
keeps its own copy of the key; a report captures its body. The refusal, if it cannot start. -/
def State.opStarts (s : State) (o : Op) : State × Option (Status × Nat) :=
  match o.cmd with
  | .keySign _ _ _ slot _ _ =>
    if s.shutGate 1 then (s, some (.badState, 0x1F))
    else
      let s := s.checkSlot slot
      match firstBad (s.useChecks slot 4 1) with
      | some (st, d, _) => (s, some (st, d))
      | none => (s.setOp o (slice (s.slot0 slot) 16 32), none)
  | .attestReport _ _ _ nonce =>
    if s.shutGate 1 then (s, some (.badState, 0x1F))
    else
      let s := { s with key := { s.key with idKey := true } }
      (s.setOp o (s.hallmark o.h.ring nonce), none)
  | .keoreLoad _ _ _ =>
    if s.keo.x.st ≠ 0 then (s, some (.badState, 0x10))
    else
      let b := 1 - s.keo.bank
      (({ s with keo := { s.keo with img := del s.keo.img b, hdr := del s.keo.hdr b } }).setOp o [], none)
  | _ => (s.setOp o [], none)

end Sys2Proof.Machine
end

