-- ==== Sys2Proof/Machine/CanObj.lean ====
section
/-! DEFINITION. CAN controllers and objects as the rest of the model meets them: the end of a CAN.TX, a role change, and a frame that
leaves the bus unsent (12 R302, R310 to R312; 13 R332). -/
namespace Sys2Proof.Machine
open Sys2Proof

/-- A CAN controller (12). -/
def State.ctl (s : State) (c : Nat) : Ctl := look (fun _ => {}) s.can.ctl c

/-- A CAN controller changed. -/
def State.setCtl (s : State) (c : Nat) (x : Ctl) : State := { s with can := { s.can with ctl := put s.can.ctl c x } }

/-- A CAN or LIN object. -/
def State.cobj (s : State) (o : Nat) : CObj := look (fun _ => {}) s.can.obj o

/-- A CAN or LIN object changed. -/
def State.setCobj (s : State) (o : Nat) (x : CObj) : State := { s with can := { s.can with obj := put s.can.obj o x } }

/-- Owner of an object (05 R129 kinds 0x04 and 0x05). -/
def State.objOwner (s : State) (o : Nat) : Nat := if o < 2048 then s.owner 4 o else s.owner 5 (o - 2048)

/-- The objects a controller, 0 to 19, sends from or receives into (12 R306). -/
def State.objsOf (s : State) (c : Nat) (tx : Bool) : List (Nat × CObj) :=
  s.can.obj.filter fun (p : Nat × CObj) => p.2.conf && p.2.ctrl == c && (decide (2048 ≤ p.1) == tx)

/-- A CAN.TX ends (12 R310): OK with an outcome and the retransmissions; one that came from the Keore engine has no
completion. -/
def State.txEnds (s : State) (h : Option Hdr) (outcome retr time : Nat) : State :=
  match h with
  | none => s
  | some h => s.replyAt h .ok 0 (outcome + 65536 * (retr % 65536)) time true

/-- A CAN.TX ends without its frame. -/
def State.txFails (s : State) (h : Option Hdr) (st : Status) (detail result : Nat) : State :=
  match h with
  | none => s
  | some h => s.fail h st detail result

/-- A role change reaches an object (12 R311, R312): its data, flags, counters and times are 0 and its epoch rises. What it
had pending ends with ROLE_CHANGED. -/
def State.newRole (s : State) (o : Nat) (conf en : Bool) (fmt id ctrl : Nat) : State :=
  let x := s.cobj o
  let e := (x.epoch + 1) % 65536
  let s := s.setCobj o { conf := conf, en := en, fmt := fmt, id := id, ctrl := ctrl, epoch := e }
  let s := if x.st = 1 then s.txFails x.h .roleChanged 0 e else s
  match x.later with
  | some (h, _, _) => s.txFails h .roleChanged 0 e
  | none => s

/-- A role change that waited applies (12 R312): a CAN.OBJ whose epoch is stale by now ends with ROLE_CHANGED; a TEN.ASSIGN moves the object
and completes once none of its objects waits any more. -/
def State.applyRole (s : State) (o : Nat) (r : RoleReq) : State :=
  match r.owner with
  | none =>
    let e := (s.cobj o).epoch
    if r.h.epoch ≠ e then s.fail r.h .roleChanged 0 e
    else
      let s := s.newRole o true r.en r.fmt r.id r.ctrl
      s.ok r.h (s.cobj o).epoch
  | some tag =>
    let s := (s.newRole o false false 0 0 0).setOwner 5 (o - 2048) tag
    let s := { s with ten := { s.ten with dirty := true } }
    if s.can.obj.any fun (p : Nat × CObj) => p.2.role.any fun q => q.h == r.h then s else s.ok r.h (s.cobj o).epoch

/-- The role changes that waited for the end of an ACTIVE frame apply in their order (12 R312). -/
def State.roleDue (s : State) (o : Nat) : State :=
  let l := (s.cobj o).role
  l.foldl (fun s r => s.applyRole o r) (s.setCobj o { s.cobj o with role := [] })

/-- An object's frame has ended (12 R310, R312): data that waited become PENDING, and a CAN.OBJ that waited applies. -/
def State.objFree (s : State) (o : Nat) : State :=
  let x := s.cobj o
  let s := match x.later with
    | some (h, d, xl) =>
      s.setCobj o { x with st := 1, h := h, data := d, xl := xl, len := d.length, retr := 0, built := none, later := none, at_ := s.cyc }
    | none => s
  s.roleDue o

/-- A frame has left the bus unsent (12 R310, R314; 13 R332; 14 R358): what it carried stays to be sent; later data of an object take its
place. -/
def State.txBack (s : State) (c : Nat) (t : CTx) : State :=
  let x := s.ctl c
  if t.kind = 0 then
    (if x.refQ.isSome then s.setCtl c { x with refMiss := satAdd 16 x.refMiss 1 } else s.setCtl c { x with refQ := some t.trig, refBeg := true })
  else if t.kind = 2 then
    let o := s.cobj t.obj
    if o.later.isSome then ((s.setCobj t.obj { o with st := 0, h := none }).txEnds o.h 2 o.retr s.now).objFree t.obj
    else (s.setCobj t.obj { o with st := 1, retr := satAdd 16 o.retr 1 }).roleDue t.obj
  else s

/-- The transceiver stops driving the bus: a frame in transmission breaks off (13 R332). -/
def State.stopTx (s : State) (c : Nat) : State :=
  match (s.ctl c).tx with
  | none => s
  | some t => (s.setCtl c { s.ctl c with tx := none }).txBack c t

end Sys2Proof.Machine
end

