-- ==== Sys2Proof/Machine/PortBase.lean ====
section
/-! DEFINITION. Switch ports and sleep segments: their records, link states and transceiver states (11 R271 to R275; 13
R330 to R339, R345). -/
namespace Sys2Proof.Machine
open Sys2Proof

/-- The port record at reset (11 R274; 10 R257). -/
def portRecReset (p : Nat) : List Byte :=
  let int := decide (16 ≤ p)
  let t1s := decide (10 ≤ p) && !int
  [1, if int then 3 else 2, 0, 0, if t1s then 0xFF else 0, if t1s then 8 else 0, 0, 0] ++ toLE 2 1 ++
  [if int then 1 else 0, 0] ++ toLE 3 0xFAC688 ++ [0] ++ toLE 2 (if int then 2048 else 1522) ++ toLE 2 1408 ++ [0, 0] ++
  toLE 2 500 ++ (List.replicate 8 (toLE 2 17)).flatten ++ (List.replicate 8 (toLE 2 704)).flatten ++ zeros 8

/-- Port `p`; internal ports are enabled, and so UP, from reset (11 R271, R274). -/
def State.port (s : State) (p : Nat) : Port := look (fun k => { lst := if 16 ≤ k then .up else .disabled }) s.net.port p

/-- Port `p` changed. -/
def State.setPort (s : State) (p : Nat) (x : Port) : State := { s with net := { s.net with port := put s.net.port p x } }

/-- The record of a port in force. -/
def State.portRec (s : State) (p : Nat) : List Byte := if (s.port p).rcd.isEmpty then portRecReset p else (s.port p).rcd

/-- ENABLE of a port. -/
def State.portEnabled (s : State) (p : Nat) : Bool := bit (byteAt (s.portRec p) 1) 0

/-- PLCA is off, the port runs CSMA/CD (11 R274). -/
def State.csma (s : State) (p : Nat) : Bool := byteAt (s.portRec p) 4 == 0xFF

/-- A 10BASE-T1S port that needs no beacons of another node (11 R271): CSMA/CD, or PLCA as coordinator. -/
def State.selfUp (s : State) (p : Nat) : Bool := s.csma p || byteAt (s.portRec p) 4 == 0

/-- A T1 port with TC10 (11 R270). -/
def isT1 (p : Nat) : Bool := decide (2 ≤ p) && decide (p ≤ 9)

/-- A 10BASE-T1S port (11 R270). -/
def isT1s (p : Nat) : Bool := decide (10 ≤ p) && decide (p ≤ 15)

/-- The port can transmit (11 R271); one whose segment is Listen-only counts as unable (13 R330). -/
def State.canSend (s : State) (p : Nat) : Bool :=
  ((s.port p).lst == .up || (s.port p).lst == .sleepReq) &&
    !(isT1s p && (look (fun _ => ({} : Seg)) s.wake.seg (p + 6)).xst == 1)

/-- Counter `i` of a port rises (11 R295): frame counters wrap, the others saturate. -/
def State.portCnt (s : State) (p i : Nat) : State :=
  let x := s.port p
  let v := look (fun _ => 0) x.cnt i
  let v := if i = 0 ∨ i = 1 ∨ i = 12 then (v + 1) % 2 ^ 32 else satAdd 32 v 1
  s.setPort p { x with cnt := put x.cnt i v }

/-- Cells of a frame (10 R242): 112 bytes in the first, 128 in every other. -/
def cellsOf (len : Nat) : Nat := if len ≤ 112 then 1 else 1 + ceilDiv (len - 112) 128

/-- A frame inside the switch. -/
def State.frameOf (s : State) (f : Nat) : Frame := look (fun _ => {}) s.fab.frames f

/-- One copy of a frame has left the switch. -/
def State.dropRef (s : State) (f : Nat) : State :=
  let x := s.frameOf f
  let l := if x.refs ≤ 1 then del s.fab.frames f else put s.fab.frames f { x with refs := x.refs - 1 }
  { s with fab := { s.fab with frames := l } }

/-- Store cells that a frame of class `c` held at output `o` are freed (10 R250). -/
def State.freeStore (s : State) (o c f : Nat) : State :=
  let n := cellsOf (s.frameOf f).len
  let k := look (fun _ => 0) s.fab.store (o * 8 + c)
  { s with fab := { s.fab with store := put s.fab.store (o * 8 + c) (k - n) } }

/-- A frame at output `o` is discarded because the port cannot transmit (10 R249). -/
def State.dropLinkFrame (s : State) (o c f : Nat) : State :=
  let s := (s.freeStore o c f).dropRef f
  { s with fab := { s.fab with dropLink := bump 32 s.fab.dropLink o } }

/-- The stored frames of a port that can no longer transmit are discarded (10 R249; 11 R275). -/
def State.flushPort (s : State) (p : Nat) : State :=
  let x := s.port p
  let s := (List.range 8).foldl (fun s c => (look (fun _ => []) x.ready c).foldl (fun s f => s.dropLinkFrame p c f) s) s
  let drop := fun (s : State) (t : Option Tx) => match t with
    | none => s
    | some t => if t.express then s.dropRef t.frame else s.dropLinkFrame p t.cls t.frame
  let s := drop (drop s x.tx) x.pre
  s.setPort p { s.port p with ready := [], tx := none, pre := none }

/-- What a port that reaches UP ends: its NET.WAKE commands complete (11 R292), and its latched wake clears (13 R338). -/
def State.reachedUp (s : State) (p : Nat) : State :=
  let mine := s.net.wakeOps.filter fun (w : Nat × Hdr × Nat) => w.1 == p
  let s := { s with net := { s.net with wakeOps := s.net.wakeOps.filter fun (w : Nat × Hdr × Nat) => w.1 != p },
                    wake := if isT1 p && bit s.wake.modLatch (p + 2) then { s.wake with modLatch := s.wake.modLatch - 2 ^ (p + 2) } else s.wake }
  mine.foldl (fun s (w : Nat × Hdr × Nat) => s.ok w.2.1) s

/-- The PHY of a T1 port on the M-die. -/
def State.phy (s : State) (p : Nat) : Phy := look (fun _ => {}) s.wake.phy p

/-- That PHY changed. -/
def State.setPhy (s : State) (p : Nat) (x : Phy) : State := { s with wake := { s.wake with phy := put s.wake.phy p x } }

/-- The PHY follows the link state of its port (02 R47; 11 R271, R274, R292). -/
def State.phyFollows (s : State) (p : Nat) (l : LState) : State :=
  if isT1 p then
    s.setPhy p { asleep := l == .asleep, link := l == .up || l == .sleepReq, mode := byteAt (s.portRec p) 2, role := byteAt (s.portRec p) 3 }
  else s

/-- A port enters a link state (11 R271); DOWN from UP counts, and a port that cannot transmit any more is flushed. -/
def State.setLink (s : State) (p : Nat) (l : LState) : State :=
  let was := (s.port p).lst
  let s := s.phyFollows p l
  let s := s.setPort p { s.port p with lst := l, pver := (s.port p).pver && (l == .up || l == .sleepReq) }
  let s := if was = .up ∧ l = .down then s.portCnt p 15 else s
  let s := if l = .up then s.reachedUp p else s
  if l = .up ∨ l = .sleepReq then s else s.flushPort p

/-- The LINK grant of a port ends (07 R164; 11 R272). -/
def State.endLink (s : State) (p : Nat) : State :=
  let x := s.port p
  if x.handle = noHandle then s else (s.freeHandle x.handle).setPort p { x with handle := noHandle }

/-! ### Segments -/

/-- Segment `g`. -/
def State.seg (s : State) (g : Nat) : Seg := look (fun _ => {}) s.wake.seg g

/-- Segment `g` changed. -/
def State.setSeg (s : State) (g : Nat) (x : Seg) : State := { s with wake := { s.wake with seg := put s.wake.seg g x } }

/-- The wake record entry of a segment (13 R335). -/
def State.segRec (s : State) (g : Nat) : List Byte := slice s.wake.rcd (16 + 32 * g) 32

/-- Port of a segment 16 to 21 (05 R122). -/
def segPort (g : Nat) : Nat := g - 6

/-- A LIN commander (12). -/
def State.lin (s : State) (l : Nat) : Lin := look (fun _ => {}) s.can.lin l

/-- A LIN commander changed. -/
def State.setLin (s : State) (l : Nat) (x : Lin) : State := { s with can := { s.can with lin := put s.can.lin l x } }

/-- A LIN schedule stops, as CAN.LINRUN with TABLE 0xFF stops it (12 R322; 13 R332). -/
def State.stopLin (s : State) (l : Nat) : State :=
  s.setLin l { s.lin l with run := false, chg := none, coll := none, wait := none }

/-- A segment enters Standby (13 R330, R332), to go on to Sleep after TSTBY where `sleep` is set. -/
def State.standby (s : State) (g : Nat) (sleep : Bool) : State :=
  let x := s.seg g
  let s := s.setSeg g { x with xst := 2, sleepAt := if sleep then some (s.cyc + msCyc (byteAt (s.segRec g) 10)) else none, wufErr := 0 }
  if g < 8 then s.stopTx g
  else if g < 16 then s.stopLin (g - 8)
  else
    let s := s.endLink (segPort g)
    if (s.port (segPort g)).lst = .disabled then s else s.setLink (segPort g) .asleep

/-- A segment reaches Normal (13 R331, R338): its latch bit clears; a CAN controller integrates before it sends; a port
follows 11 R271. -/
def State.normal (s : State) (g : Nat) : State :=
  let x := s.seg g
  let low := decide (2 ≤ x.xst)
  let s := s.setSeg g { x with xst := 0, sleepAt := none, latch := false, retryLink := none }
  if g < 8 then (if low && (s.ctl g).mode ≠ 0 then s.setCtl g { s.ctl g with integ := true } else s)
  else if g < 16 then s
  else
    let p := segPort g
    if (s.port p).lst = .disabled then s
    else if low then s.setLink p (if s.selfUp p then .up else .down) else s

end Sys2Proof.Machine
end

