-- ==== Sys2Proof/Machine/Admission.lean ====
section
/-! DEFINITION. Power admission: arrival, evaluation, grant, refusal and deferral of requests (07), and the commands
and events of the admission controller. -/
namespace Sys2Proof.Machine
open Sys2Proof

/-- Deadline in us when none is given (07 R170): 20 ms for TURNON and SLEW, else 1000 ms. -/
def defaultDeadline (typ : Nat) : Nat := if typ = 1 ∨ typ = 2 then 20000 else 1000000

/-- A PRIORITY channel turn-on is granted (07 R166, R171). The state it leads to is the channel's. -/
def State.chGranted (s : State) (n : Nat) : State :=
  let c := s.chan n
  let s := s.modCh n fun c => { c with granted := true, via := .none }
  if c.st = .admitWait then
    let grid := match c.via with
      | .sched e => match s.sch.disp.find? fun d => d.ent == e && d.wait with
        | some d => if d.pos || decide (d.trig < s.now) then s.now else d.trig
        | none => s.now
      | _ => s.now
    (s.turnOn n grid).report n c.via .applied
  else s

/-- The NET.WAKE commands of a port execute once its LINK leave is granted (04 R101). -/
def State.wakesRun (s : State) (p : Nat) : State :=
  (s.net.wakeOps.filter fun (w : Nat × Hdr × Nat) => w.1 == p).foldl (fun s (w : Nat × Hdr × Nat) => s.inflightState w.2.1 4) s

/-- A grant reaches its client (07 R168): the channel turns on, ADMIT.REQUEST completes with its handle and the grant's
end, an operation starts, a port trains. -/
def State.granted (s : State) (i : Nat) : State :=
  let e := s.admEnt i
  let hd := s.handleOf i
  match e.client with
  | .none => s
  | .chan n => s.chGranted n
  | .req h => s.ok h (hd + 2 ^ 32 * ((s.now + e.dur * 1000) % 2 ^ 32))
  | .op h =>
    match s.opOf h with
    | none => s
    | some o =>
      match s.opStarts o with
      | (s, some (st, d)) => ((s.freeEntry i).dropOp h).fail h st d
      | (s, none) =>
        { s with hal := { s.hal with ops := updFirst (fun o => o.h.ring == h.ring && o.h.ctag == h.ctag)
                                       (fun o => { o with handle := hd, running := true }) s.hal.ops,
                                     inflight := updFirst (fun f => f.ring == h.ring && f.ctag == h.ctag)
                                       (fun f => { f with st := 4 }) s.hal.inflight } }
  | .port p => ((s.setPort p { s.port p with handle := hd, trainAt := s.cyc }).setLink p .training).wakesRun p
  | .seg g =>
    let x := s.seg g
    let s := (s.setSeg g { x with handle := noHandle, xh := [] }).normal g
    let s := x.xh.foldl (fun s h => s.ok h) s
    let s := if 16 ≤ g then s.wakesRun (segPort g) else s
    if g < 22 ∧ (s.port (segPort g)).lst = .down then s.setPort (segPort g) { s.port (segPort g) with handle := hd }
    else s.freeEntry i
  | .fresh j =>
    { s with can := { s.can with prot := s.can.prot.map fun (p : Prot) => if p.ctrl * 2 ^ 32 + p.id = j then { p with handle := hd, granted := true } else p } }
  | .sched e =>
    { s with sch := { s.sch with disp := updFirst (fun d => d.ent == e && d.leave == 1) (fun d => { d with leave := 2 }) s.sch.disp } }
  | _ => s

/-- The NET.WAKE commands of a port whose LINK request is refused or expires end with it (05 R117, R120). -/
def State.wakesDenied (s : State) (p : Nat) (st : Status) (detail : Nat) : State :=
  let mine := s.net.wakeOps.filter fun (w : Nat × Hdr × Nat) => w.1 == p
  let s := { s with net := { s.net with wakeOps := s.net.wakeOps.filter fun (w : Nat × Hdr × Nat) => w.1 != p } }
  mine.foldl (fun s (w : Nat × Hdr × Nat) => s.fail w.2.1 st detail) s

/-- A request that ended without a grant reaches its client with its status and detail (07 R168, R169; 08 R190;
11 R272; 18 R458). The entry is already free. -/
def State.denied (s : State) (c : Client) (st : Status) (detail : Nat) : State :=
  let a := s.adm
  let s := { s with adm := if st = .deferred then { a with defCnt := satAdd 32 a.defCnt 1 }
                           else { a with refCnt := satAdd 32 a.refCnt 1 } }
  match c with
  | .chan n =>
    let o := (s.chan n).via
    let s := s.modCh n fun c => { c with handle := noHandle, via := .none, act := .off }
    let s := s.goCh n .off fun c => { c.output false with gridOk := false, offAt := s.cyc }
    s.report n o (if st = .deferred then .deferred detail else .refused detail)
  | .req h => s.fail h st detail
  | .op h =>
    let s := if s.sys.profCmd = some h then { s with sys := { s.sys with profBusy := false, profCmd := none } } else s
    (s.dropOp h).fail h st detail
  | .port p =>
    let s := s.setPort p { s.port p with handle := noHandle, retryAt := some (s.cyc + msCyc 1000) }
    s.wakesDenied p st detail
  | .seg g =>
    let x := s.seg g
    let s := s.setSeg g { x with handle := noHandle, xh := [], retryLink := if x.xh.isEmpty then some (s.cyc + msCyc 1000) else none }
    let s := x.xh.foldl (fun s h => s.fail h st detail) s
    if 16 ≤ g then s.wakesDenied (segPort g) st detail else s
  | .fresh j =>
    { s with can := { s.can with prot := s.can.prot.map fun (p : Prot) => if p.ctrl * 2 ^ 32 + p.id = j then { p with handle := noHandle, asked := false } else p } }
  | .sched e =>
    ({ s with sch := { s.sch with disp := dropFirst (fun d => d.ent == e && d.leave == 1) s.sch.disp } }).firingEnds e 6
  | .ddr => { s with sys := { s.sys with ddrH := noHandle } }
  | .save => { s with ten := { s.ten with saveH := noHandle, saveAt := s.cyc + msCyc 100 } }
  | _ => s

/-- A refused request that never took an entry. -/
def State.refuse (s : State) (c : Client) (detail : Nat) : State := s.denied c .refused detail

/-- The oldest queued request of a tag on a budget (07 R174), by arrival order. -/
def State.oldestOf (s : State) (k tag : Nat) : Option Nat :=
  let l := s.adm.tab.filter fun p => p.2.st == 1 && p.2.bud == k && p.2.tag == tag
  l.foldl (fun (o : Option Nat) p => match o with
    | none => some p.1
    | some j => if p.2.seq < (s.admEnt j).seq then some p.1 else some j) none

/-- The requests the walk considers, in tag order starting after the tag of the previous grant (07 R174); while the
budget is held, only the holder (R175). -/
def State.walk (s : State) (k : Nat) : List Nat :=
  let b := s.budget k
  let l := (List.range 16).filterMap fun j => s.oldestOf k ((b.lastTag + 1 + j) % 16)
  match s.handleIdx b.hold with
  | some i => if l.contains i then [i] else []
  | none => l

/-- The oldest queued request of a budget, by arrival order. -/
def State.oldestQueued (s : State) (k : Nat) : Option (Nat × AdmEnt) :=
  (s.adm.tab.filter fun p => p.2.st == 1 && p.2.bud == k).foldl (fun (o : Option (Nat × AdmEnt)) p => match o with
    | none => some p
    | some j => if p.2.seq < j.2.seq then some p else some j) none

/-- The oldest queued request of a budget holds it once it has waited 2 ms (07 R175). -/
def State.takeHold (s : State) (k : Nat) : State :=
  match s.oldestQueued k with
  | some (i, e) =>
    if (s.budget k).hold = noHandle ∧ e.arrCyc + msCyc 2 ≤ s.cyc then s.setBudget k { s.budget k with hold := s.handleOf i } else s
  | none => s

/-- Grants of one evaluation of a budget, each costed against what the earlier ones left (07 R174); before each, the oldest request that
has waited 2 ms takes the budget (R175). -/
def State.evalLoop (s : State) (k : Nat) : Nat → State
  | 0 => s
  | fuel + 1 =>
    let s := s.takeHold k
    match (s.walk k).find? fun i => s.holdReason (s.admEnt i) == 0 with
    | none => s
    | some i => ((s.grantEntry i).granted i).evalLoop k fuel

/-- REASON of each queued request of a budget after an evaluation (07 R169): why the request a tag offers did not fit,
and behind an older request for every other. -/
def State.reasons (s : State) (k : Nat) : State :=
  let w := s.walk k
  let tab := s.adm.tab.map fun p =>
    if p.2.st == 1 && p.2.bud == k then (p.1, { p.2 with reason := if w.contains p.1 then s.holdReason p.2 else 4 }) else p
  { s with adm := { s.adm with tab := tab } }

/-- One evaluation of a budget's queue (07 R173, R174). -/
def State.evaluate (s : State) (k : Nat) : State := (s.evalLoop k 257).reasons k

/-- The evaluations that grant ends of this cycle call for (07 R173). -/
def State.settle (s : State) : State :=
  let l := s.adm.ended.eraseDups
  let s := { s with adm := { s.adm with ended := [] } }
  l.foldl (fun s k => s.evaluate k) s

/-- A request taken into a free entry `i`, queued. Its deadline counts from now, or from the cycle in which device time will reach the
trigger `e.trig` of a scheduler action (07 R170). -/
def State.enqueue (s : State) (i : Nat) (e : AdmEnt) (dlUs : Nat) : State :=
  let dl := if dlUs = 0 then defaultDeadline e.typ else dlUs
  let ahead := e.trig.filter fun t => decide (s.now < t)
  let e := { e with st := 1, count := (s.admEnt i).count, seq := s.adm.seq, arrCyc := s.cyc, deadCyc := s.cyc + usCyc dl, trig := ahead, dl := dl,
                    arrDt := s.now32, deadDt := (ahead.getD s.now + dl * 1000) % 2 ^ 32 }
  { s.setAdmEnt i e with adm := { (s.setAdmEnt i e).adm with seq := s.adm.seq + 1 } }

/-- Device time has reached the triggers of some waiting scheduler actions: their deadlines count from this cycle (07 R170). -/
def State.anchor (s : State) : State :=
  let start := fun (p : Nat × AdmEnt) =>
    if p.2.trig.any (fun t => decide (t ≤ s.now)) then (p.1, { p.2 with trig := none, deadCyc := s.cyc + usCyc p.2.dl }) else p
  { s with adm := { s.adm with tab := s.adm.tab.map start } }

/-- A PRIORITY request is granted at once (07 R171, R179): the entry if one is free, else outside the table. An overdraw
counts and raises ADMIT_OVER. The handle of the grant and the new state. -/
def State.takePrio (s : State) (e : AdmEnt) (ch : Nat) (dlUs : Nat) : Nat × State :=
  let k := e.bud
  let (hd, s) := match s.admFree with
    | some i =>
      let s := (s.enqueue i e dlUs).grantEntry i
      (s.handleOf i, s)
    | none =>
      let b := s.budget k
      let s := s.setBudget k { b with level := b.level - (e.charge : Int) * 10000, lastTag := e.tag }
      let p : PrioOut := { bud := k, amount := e.amount, ch := ch, endCyc := s.cyc + usCyc e.dur }
      (outsideHandle, { s with adm := { s.adm with outside := s.adm.outside ++ [p] } })
  let b := s.budget k
  (hd, if b.limit < s.used k ∨ b.level < 0 then
      (s.setBudget k { b with overCnt := satAdd 16 b.overCnt 1 }).raise 0x27 k else s)

/-- A PRIORITY channel turn-on; its arrival makes the budget evaluate its queue (07 R173). -/
def State.requestPrio (s : State) (e : AdmEnt) (ch dlUs : Nat) : State :=
  let (hd, s) := s.takePrio e ch dlUs
  ((s.modCh ch fun c => { c with handle := hd, granted := true }).chGranted ch).evaluate e.bud

/-- A request that is not PRIORITY arrives (07 R168, R169). The queue is evaluated before it takes its place there, and again with it
(R173). `onWait` is what its client shows while it is queued. -/
def State.request (s : State) (e : AdmEnt) (dlUs : Nat) (take : State → Nat → State) (onWait : State → State) : State :=
  let s := s.evaluate e.bud
  match s.admFree with
  | none => s.refuse e.client 0x03
  | some i =>
    let d := s.neverReason e
    if d ≠ 0 then s.refuse e.client d
    else
      let s := s.enqueue i e dlUs
      let s := take s (s.handleOf i)
      let hd := s.handleOf i
      let s := s.evaluate e.bud
      if s.handleIdx hd = some i ∧ (s.admEnt i).st = 1 then onWait s else s

/-- The request of a channel turn-on (07 R164, 08 R201). -/
def State.chanCost (s : State) (n : Nat) (origin : Nat) : AdmEnt :=
  let m := s.lead n
  let rd := (s.chan m).cfg
  let k := (s.members n).length
  let mv2 := (s.grp (chGroup m)).mv2
  { typ := if chClass m = 0 then 2 else 1, bud := chGroup m, amount := k * ipkOf m rd, charge := k * qinrOf m mv2 rd,
    dur := tinrOf m mv2 rd, endCyc := 1, prio := prioOf rd, origin := origin, tag := s.owner 3 m, client := .chan m }

/-- ORIGIN of an admission request (07 R180). -/
def Origin.code : Origin → Nat
  | .none => 4 | .halyard _ => 0 | .sched _ => 1 | .keore _ => 2 | .direct _ => 3 | .self => 4

/-- A channel enters ADMIT_WAIT and asks for its turn-on (08 R189, R191). -/
def State.requestTurnOn (s : State) (n : Nat) (o : Origin) (dlUs : Nat) : State :=
  let m := s.lead n
  let was := (s.chan m).st
  let s := s.goCh m .admitWait fun c => { c with via := o, fromOff := was == .off || was == .admitWait && c.fromOff }
  let e := s.chanCost m o.code
  if e.prio then s.requestPrio e m dlUs
  else s.request e dlUs (fun s hd => s.modCh m fun c => { c with handle := hd, granted := false })
    (fun s => s.report m o .waiting)

/-- A held output of On whose output is off is turned on with a PRIORITY request; while the C-die is absent it is made
without admission (08 R191; 09 R233, R235, R237). The state stays the hold. In RETIRED the output stays off (03 R73). -/
def State.holdTurnOn (s : State) (n : Nat) : State :=
  let m := s.lead n
  if s.sys.lcCur = 5 then s
  else
    let s := s.modCh m fun c => { (c.rising m s.cyc).output true with held0 := false }
    if s.dieAbsent m then s else s.requestPrio { s.chanCost m 4 with prio := true } m 0

/-- A firmware operation asks for leave on budget 4 (07 R164); it starts at the grant. The interim ACCEPTED of 04 R98 has detail 0x02
where admission defers it, and 0x01 where it starts at once. -/
def State.requestOp (s : State) (h : Hdr) (typ amount : Nat) (cmd : Instr) (data : List Byte) : State :=
  let s := s.addOp { h := h, cmd := cmd, data := data, since := s.cyc }
  let e : AdmEnt := { typ := typ, bud := 4, amount := amount, dur := 0xFFFFFFFF, tag := h.ring, client := .op h }
  let s := s.request e 0 (fun s hd =>
      { s with hal := { s.hal with ops := updFirst (fun o => o.h.ring == h.ring && o.h.ctag == h.ctag) (fun o => { o with handle := hd }) s.hal.ops } })
    (fun s => (s.accepted h 0x02).inflightState h 5)
  match s.opOf h with
  | some o => if o.running then s.accepted h 0x01 else s
  | none => s

/-- An internal request on budget 4 with ORIGIN 4 and the default deadline (07 R164, R170). -/
def State.requestInternal (s : State) (typ amount tag : Nat) (c : Client) (take : State → Nat → State) : State :=
  s.request { typ := typ, bud := 4, amount := amount, dur := 0xFFFFFFFF, tag := tag, origin := 4, client := c } 0 take id

/-! ### The commands -/

/-- ADMIT.REQUEST (05 R126; 07 R164, R168 to R170). -/
def execAdmitRequest (h : Hdr) (typ budget amount duration deadline : Nat) (s : State) : Out :=
  hwCmd s (s.guarded h
    [noEpoch h, bp (decide (4 < budget)) 0x11, bp (decide (typ = 0 ∨ 8 < typ)) 0x12, bp (decide (duration = 0)) 0x12,
     bp (decide (10000000 < deadline)) 0x12]
    (s.request { typ := typ, bud := budget, amount := amount, charge := if budget < 4 then divR (amount * duration) 1000 else 0,
                 dur := duration, endCyc := 1, tag := h.ring, origin := 0, client := .req h } deadline (fun s _ => s)
      (fun s => (s.accepted h 0x02).inflightState h 5)))

/-- ADMIT.RELEASE (05 R126; 07 R166, R179): a live grant of the ring tag ends. No command releases a PRIORITY grant by handle, and 0xFFFF
names no entry. -/
def execAdmitRelease (h : Hdr) (grant : Nat) (s : State) : Out :=
  hwCmd s (s.guarded h [noEpoch h]
    (match s.handleIdx grant with
     | some i =>
       let e := s.admEnt i
       if e.st = 2 ∧ e.tag = h.ring ∧ !e.prio ∧ grant ≠ 0xFFFF then
         let s := match e.client with
           | .chan n => s.endGrant n
           | _ => s.freeEntry i
         (s.ok h).settle
       else s.fail h .badState 0x10
     | none => s.fail h .badState 0x10))

/-- The queued requests of a budget that can no longer ever fit end with REFUSED 0x05 (07 R178). -/
def State.purge (s : State) (k : Nat) : State :=
  let l := (s.adm.tab.filter fun p => p.2.st == 1 && p.2.bud == k && s.neverReason p.2 != 0).map (·.1)
  l.foldl (fun s i => let c := (s.admEnt i).client; (s.freeEntry i).denied c .refused 0x05) s

/-- ADMIT.BUDGET (05 R126; 07 R162, R178). -/
def execAdmitBudget (h : Hdr) (budget limit charge reserve : Nat) (s : State) : Out :=
  let lo := if budget < 4 then 1000 else 100
  let hi := if budget < 4 then 400000 else 30000
  fwCmd h s (s.guarded h
    [noEpoch h, bp (decide (4 < budget)) 0x11, den (decide (h.ring ≠ 0)) 0x02,
     bp (decide (limit < lo ∨ hi < limit)) 0x12,
     bp (decide (budget < 4 ∧ (charge < 1000 ∨ 2000000 < charge ∨ limit < reserve))) 0x12,
     bp (decide (budget = 4 ∧ (charge ≠ 0 ∨ reserve ≠ 0))) 0x13]
    (let b := s.budget budget
     let top := (charge : Int) * 10000
     let s := s.setBudget budget { b with limit := limit, cap := charge, reserve := reserve, level := if top < b.level then top else b.level }
     (s.purge budget).ok h))

/-- ADMIT.WINDOW (05 R126; 07 R176, R178). -/
def execAdmitWindow (h : Hdr) (enable frame phase length start : Nat) (s : State) : Out :=
  fwCmd h s (s.guarded h
    [noEpoch h, den (decide (h.ring ≠ 0)) 0x02, bp (decide (1 < enable)) 0x12,
     bp (decide (enable = 1 ∧ (frame < 1000 ∨ 1000000 < frame ∨ length < 100))) 0x12,
     bp (decide (enable = 1 ∧ frame < phase + length)) 0x14]
    (let a := s.adm
     let a := if enable = 1 then { a with winEn := true, frame := frame, phase := phase, length := length, start := start }
              else { a with winEn := false }
     let s := { s with adm := a }
     (((([0, 1, 2, 3] : List Nat).foldl (fun s k => s.purge k) s)).ok h)))

/-- ADMIT_REFILL (07 R163, R173): every 10 us each VB bucket rises by CAP / 10 000 up to CAP, and the queues are
evaluated. -/
def execAdmitRefill (s : State) : Out :=
  .next (if s.live ∧ s.adm.refillAt + usCyc 10 ≤ s.cyc then
    let s := { s with adm := { s.adm with refillAt := s.cyc } }
    let s := ([0, 1, 2, 3] : List Nat).foldl (fun s k =>
      let b := s.budget k
      let up := b.level + (b.cap : Int)
      let top := (b.cap : Int) * 10000
      s.setBudget k { b with level := if top < up then top else up }) s
    ([0, 1, 2, 3, 4] : List Nat).foldl (fun s k => s.evaluate k) s
  else s)

/-- ADMIT_GRANT_END (07 R166, R173): the DURATION of the grant in entry `i` has passed; `i` from 256 on counts the
PRIORITY grants outside the table. -/
def execAdmitGrantEnd (i : Nat) (s : State) : Out :=
  .next (if i < 256 then
      let e := s.admEnt i
      if e.st = 2 ∧ e.endCyc ≠ 0 ∧ e.endCyc ≤ s.cyc then
        (match e.client with
         | .chan n => s.endGrant n
         | _ => s.freeEntry i).settle
      else s
    else match s.adm.outside[i - 256]? with
      | some p => if p.endCyc ≤ s.cyc then (s.endGrant p.ch).settle else s
      | none => s)

/-- ADMIT_WINDOW_OPEN (07 R173, R176): the window is open, and the VB queues are evaluated. -/
def execAdmitWindowOpen (s : State) : Out :=
  .next (if s.live ∧ s.winOpen then ([0, 1, 2, 3] : List Nat).foldl (fun s k => s.evaluate k) s else s)

/-- ADMIT_DEADLINE (07 R168, R170): the deadline of the queued request in entry `i` has passed; it ends with DEFERRED
and its last reason. -/
def execAdmitDeadline (i : Nat) (s : State) : Out :=
  unitEvent (decide (i < 256))
    (let e := s.admEnt i
     if e.st = 1 ∧ e.trig.isNone ∧ e.deadCyc ≤ s.cyc then (s.freeEntry i).denied e.client .deferred e.reason else s)

/-- ADMIT_HOLD (07 R175): the oldest queued request of budget `k` has waited 2 ms and holds the budget. -/
def execAdmitHold (k : Nat) (s : State) : Out :=
  unitEvent (decide (k ≤ 4))
    (let t := s.takeHold k
     if (t.budget k).hold = (s.budget k).hold then s else t.reasons k)

end Sys2Proof.Machine
end

