-- ==== Sys2Proof/Machine/Bridge.lean ====
section
/-! DEFINITION. The field bridge's part in a command: whether the far die is reached, and the C-die shadow (20). -/
namespace Sys2Proof.Machine
open Sys2Proof

/-- The link to a die, in DIE order (20 R513), is DOWN (R512). -/
def State.linkDown (s : State) (die : Nat) : Bool := look (fun _ => 0) s.fb.link die == 2

/-- A failed access entered in the error log (20 R513): the newest overwrites the oldest of 16. -/
def State.fbLog (s : State) (e : FbEnt) : State :=
  let full := decide (16 ≤ s.fb.log.length)
  { s with fb := { s.fb with log := (if full then s.fb.log.drop 1 else s.fb.log) ++ [e],
                             lost := if full then satAdd 16 s.fb.lost 1 else s.fb.lost } }

/-- A die, in DIE order, holds the C-die absent (09 R237; 17 R445): no command reaches a channel or an output. -/
def State.dieGone (s : State) (die : Nat) : Bool := if die = 3 then s.iso.die.absent else (1 ≤ die && die ≤ 2 && (s.pdie (die - 1)).absent)

/-- A command's non-posted write to a unit of a die (20 R505, R511, R512): FAULT detail 0x04 when the die is not
reached, or holds the C-die absent (log 57); a failed transfer is logged, with every repeat counted. -/
def State.farWrite (s : State) (h : Hdr) (die addr ini : Nat) (effect : State) : State :=
  let bad := look (fun _ => 0) s.fb.bad die
  if s.linkDown die || s.dieGone die then s.fail h .fault 0x04
  else if bad ≠ 0 then
    let s := { s with fb := { s.fb with retry := satAdd 32 s.fb.retry 3 } }
    (s.fbLog { addr := addr, time := s.now32, die := die, code := bad, ini := ini, kind := 1, tag := h.ring }).fail h .fault 0x04
  else effect

/-- A good poll of P-die `d` brings the changed words of its channels into the shadow (20 R508). -/
def State.syncPdie (s : State) (d : Nat) : State :=
  let f := s.fb
  let f := ((s.lch.chan.filter fun p => chDie p.1 == d)).foldl (fun f p => { f with shChan := put f.shChan p.1 p.2 }) f
  let f := ((s.lch.bunt.filter fun p => chDie p.1 == d)).foldl (fun f p => { f with shBunt := put f.shBunt p.1 p.2 }) f
  let f := ((s.lch.grp.filter fun p => p.1 / 2 == d)).foldl (fun f p => { f with shGrp := put f.shGrp p.1 p.2 }) f
  { s with fb := f }

/-- The mirrors of both P-dies show what a command has changed there before it completes (01 R20); a die whose link is DOWN shows its last
values (20 R512). -/
def State.syncPdies (s : State) : State :=
  let s := if s.linkDown 1 then s else s.syncPdie 0
  if s.linkDown 2 then s else s.syncPdie 1

/-- The confirmation of a command on the I-die, or a good poll of it, brings its registers into the shadow (20 R506). -/
def State.syncIso (s : State) : State := { s with fb := { s.fb with shIso := s.iso } }

/-- The same for the WAKE block on the M-die (20 R506). -/
def State.syncWake (s : State) : State := { s with fb := { s.fb with shWake := s.wake } }

/-- Bus address of a channel's CMD register, as the error log names it (08 R208). -/
def cmdAddr (n : Nat) : Nat := 0x41000000 + n * 0x100

end Sys2Proof.Machine
end

