-- ==== Sys2Proof/Machine/ChanCmd.lean ====
section
/-! DEFINITION. Commands to a load channel from its five origins, and the CHAN commands and direct command register
(05 R119; 08 R185 to R213; 09 R224). -/
namespace Sys2Proof.Machine
open Sys2Proof

/-- A scheduler action for the same channel whose leave is still queued is withdrawn when another command is applied
first (06 R153). `skip` is the entry whose own action this is, 1024 for none. -/
def State.withdrawSched (s : State) (n skip : Nat) : State :=
  let l := s.sch.disp.filter fun d => d.leave == 1 && d.ent != skip &&
    (let e := s.sent d.ent; (byteAt e.rcd 1 == 1 || byteAt e.rcd 1 == 3) && s.lead (le e.rcd 4 2) == s.lead n)
  l.foldl (fun s d =>
    let s := { s with sch := { s.sch with disp := dropFirst (fun x => x.ent == d.ent && x.leave == 1) s.sch.disp } }
    let s := { s with adm := { s.adm with refCnt := satAdd 32 s.adm.refCnt 1 } }
    (s.freeHandle d.handle).firingEnds d.ent 7) s

/-- A command applied to a channel by the table of 08 R189. `dlUs` is the admission deadline in us (0 default); `grid` is the first period
start of a PWM that begins now (08 R197). In RETIRED no turn-on is applied (03 R73). -/
def State.chCommand (s : State) (n : Nat) (act : Act) (duty : Nat) (o : Origin) (dlUs grid : Nat) : State :=
  let m := s.lead n
  let c := s.chan m
  let skip := match o with
    | .sched e => e
    | _ => 1024
  let rec1 := fun (c : Chan) => { c with act := act, duty := if act = .pwm then duty else c.duty }
  let act1 := fun (s : State) => (s.withdrawSched m skip).modCh m rec1
  if s.sys.lcCur = 5 ∧ act ≠ .off then s.report m o .held
  else match c.st with
  | .safeHold => s.report m o .held
  | .orphanHold => s.report m o .held
  | .latched => if act = .off then (act1 s).report m o .applied else s.report m o .latched
  | .off => if act = .off then (act1 s).report m o .applied else (act1 s).requestTurnOn m o dlUs
  | .admitWait =>
    let s := (s.withdraw m .withdrawn)
    let s := act1 s
    if act = .off then (s.goCh m .off fun c => { c.output false with gridOk := false, offAt := s.cyc }).report m o .applied
    else s.requestTurnOn m o dlUs
  | .turnOn =>
    let s := act1 s
    if act = .off then (s.turnOff m).report m o .applied else s.report m o .applied
  | .on =>
    let s := act1 s
    match act with
    | .off => (s.turnOff m).report m o .applied
    | .on => s.report m o .applied
    | .pwm => (s.startPwm m grid false).report m o .applied
  | .pwm =>
    let s := act1 s
    match act with
    | .off => (s.turnOff m).report m o .applied
    | .on => (s.goCh m .on fun c => { c.output true with gridOk := false, onCyc := s.cyc, limCyc := 0, scCyc := 0, limPer := false }).report m o .applied
    | .pwm => s.report m o .applied
  | .turnOff =>
    let s := act1 s
    if act = .off then s.report m o .applied else s.requestTurnOn m o dlUs
  | .retryWait =>
    let s := act1 s
    if act = .off then (s.goCh m .off fun c => { c.output false with gridOk := false, offAt := s.cyc }).report m o .applied
    else s.report m o .applied
  | .undervolt => (act1 s).report m o .applied

/-! ### Arbitration (01 R18; 09 R217) -/

/-- Order of an origin among commands of one fabric cycle (01 R18); a fault reaction comes before them all. -/
def Origin.rank : Origin → Nat
  | .sched _ => 1 | .keore _ => 2 | .direct _ => 3 | .halyard _ => 4 | _ => 0

/-- The INFO of a CH source names channel `n` (21 R519, R522). -/
def State.srcCovers (s : State) (src info n : Nat) : Bool :=
  if src = 0x34 ∨ src = 0x35 then info == chGroup n
  else if src = 0x37 ∨ src = 0x38 then info == chDie n
  else if src = 0x30 then info % 256 == n || (s.bonded n && s.lead (info % 256) == s.lead n && decide (info < 65536))
  else info == n || (s.bonded n && decide (info < 40) && s.lead info == s.lead n)

/-- A dispatched action is due: its die's device time has reached the trigger (06 R150; the replica is exact, a DESIGN CHOICE: log 56); a position
entry's at once. -/
def Disp.due (d : Disp) (now : Nat) : Bool := !d.wait && (d.pos || decide (d.trig ≤ now))

/-- The channel that a dispatched scheduler action names; none for another target (06 R152). -/
def State.dispLead (s : State) (d : Disp) : Option Nat :=
  let e := s.sent d.ent
  if 1 ≤ byteAt e.rcd 1 ∧ byteAt e.rcd 1 ≤ 3 then some (s.lead (le e.rcd 4 2)) else none

/-- A row that waits in the queue brings a command of higher order to channel `m` in this same fabric cycle (01 R18): time stands still
until the queue is empty, so every waiting row belongs to this cycle (log 40). -/
def State.rival (s : State) (m rank : Nat) : Instr → Bool
  | .safeLineDemand => s.flt.safeReq
  | .faultReactionStart => match s.flt.waiting with
    | (src, info) :: _ => decide (0x30 ≤ src ∧ src ≤ 0x39) && s.srcCovers src info m
    | [] => false
  | .schedActionApply e _ => decide (1 < rank) && s.sch.disp.any fun d => d.ent == e && d.due (s.chNow m) && d.ok == 0 && s.dispLead d == some m
  | .kEnd => decide (2 < rank) && s.keo.outs.contains m
  | .directCmdOff _ _ ch _ _ => decide (3 < rank) && s.lead ch == m
  | .directCmdOn _ _ ch _ _ => decide (3 < rank) && s.lead ch == m
  | .directCmdPwm _ _ ch _ _ _ => decide (3 < rank) && s.lead ch == m
  | .fbPostedWrite _ _ ch _ _ _ => decide (3 < rank) && s.lead ch == m
  | .registerWriteOther _ _ a _ => decide (3 < rank) && s.lead ((a - 0x41000000) / 256) == m && decide (0x41000000 ≤ a ∧ a < 0x41002800)
  | .memoryAccess _ 1 a _ _ _ => decide (3 < rank) && s.lead ((a - 0x41000000) / 256) == m && decide (0x41000000 ≤ a ∧ a < 0x41002800)
  | _ => false

/-- The channel may take a command of this order in this fabric cycle (01 R18): it has taken none, and none of higher order comes or
waits. -/
def State.chTurn (s : State) (m rank : Nat) : Bool :=
  (s.chan m).cmdAt != some s.cyc && !(s.lch.wait.any fun w => s.lead w.ch == m && decide (w.rank ≤ rank)) && !s.pending.any (s.rival m rank)

/-- A command takes its fabric cycle and is applied, after a protective shutdown of the same cycle (01 R18; 09 R217). -/
def State.chApply (s : State) (w : ChWait) : State :=
  let s := (s.protect w.ch).modCh w.ch fun c => { c with cmdAt := some s.cyc }
  s.chCommand w.ch w.act w.duty w.o w.dl (s.chNow w.ch)

/-- A command that waits is placed by its order, behind those of the same order. -/
def waitIns (w : ChWait) : List ChWait → List ChWait
  | [] => [w]
  | x :: r => if x.rank ≤ w.rank then x :: waitIns w r else w :: x :: r

/-- A command for a channel arrives (01 R18): one is applied per fabric cycle, in the order of the origins, and none is lost. -/
def State.chArrive (s : State) (n : Nat) (act : Act) (duty : Nat) (o : Origin) (dlUs : Nat) : State :=
  let w : ChWait := { rank := o.rank, ch := n, act := act, duty := duty, o := o, dl := dlUs }
  if s.chTurn (s.lead n) o.rank then s.chApply w else { s with lch := { s.lch with wait := waitIns w s.lch.wait } }

/-- At the end of a fabric cycle each channel that has taken no command in it takes the first of those that wait (01 R18). -/
def State.chNext (s : State) (m : Nat) : State :=
  match s.lch.wait.find? fun w => s.lead w.ch == m with
  | none => s
  | some w =>
    if s.lead m ≠ m ∨ (s.chan m).cmdAt = some s.cyc then s
    else (({ s with lch := { s.lch with wait := dropFirst (fun w => s.lead w.ch == m) s.lch.wait } }).chApply w).settle

/-- The waiting commands of all channels get their cycle. -/
def State.chWaits (s : State) : State := if s.lch.wait.isEmpty then s else (List.range 40).foldl (fun s m => s.chNext m) s

/-- ACT of a command: 0 OFF, 1 ON, 2 PWM. -/
def actOf (a : Nat) : Act := if a = 0 then .off else if a = 1 then .on else .pwm

/-- The index, ownership and epoch checks of a channel command (04 R96). -/
def State.chChecks (s : State) (h : Hdr) (ch : Nat) : List Chk :=
  [bp (decide (40 ≤ ch)) 0x11, den (decide (s.owner 3 ch ≠ h.ring)) 0x01, role h (s.chEpoch ch)]

/-- CHAN.SET (05 R119; 08 R189). -/
def execChanSet (h : Hdr) (ch act duty deadline : Nat) (s : State) : Out :=
  hwCmd s (s.guarded h
    (s.chChecks h ch ++ [bp (decide (2 < act)) 0x12, bp (decide (act = 2 ∧ 1023 < duty)) 0x12, bp (decide (10000000 < deadline)) 0x12])
    (s.farWrite h (1 + chDie ch) (cmdAddr ch) 0x60
      ((s.chArrive ch (actOf act) duty (.halyard h) deadline).settle)))

/-- A field of the channel record outside its class range (08 R185, R186; 09 R227). -/
def chanRecordRange (n : Nat) (r : List Byte) : Bool :=
  let c := chClass n
  let lim := le r 2 2
  let f := byteAt r 5 % 16
  let pw := le r 10 2
  let thr := le r 30 2 % 4096
  let out := fun (v lo hi : Nat) => v != 0 && (decide (v < lo) || decide (hi < v))
  byteAt r 0 != 1 ||
  (if c = 0 then out lim 200 800 else if c = 1 then out lim 100 400 else out lim 15 80) ||
  (c != 0 && out (byteAt r 4) 10 25) || decide (10 < f) || (c != 0 && out (le r 6 2) 1 500) || (c == 0 && out (le r 8 2) 1 50) ||
  out pw 50 (if c = 0 then 400 else 2000) || decide (1 < byteAt r 24) ||
  (byteAt r 25 != 0xFF && decide (15 < byteAt r 25)) || decide (2 < byteAt r 26) || decide (1 < byteAt r 27) ||
  (if byteAt r 27 = 1 then decide (le r 28 2 = 0 ∨ 2000 < le r 28 2) else decide (le r 28 2 ≠ 0)) ||
  (if c < 2 then out thr 5 200 else if fineOf r then out thr 10 500 else out thr 5 1000)

/-- A combination the channel record forbids (08 R186 detail 0x13). -/
def chanRecordMix (n : Nat) (r : List Byte) : Bool :=
  let c := chClass n
  (c == 0 && (byteAt r 4 != 0 || le r 6 2 != 0)) || (c != 0 && le r 8 2 != 0) || (c != 2 && fineOf r)

/-- A reserved bit or byte of the channel record is set (08 R186 detail 0x01). -/
def chanRecordReserved (r : List Byte) : Bool :=
  !allZero (slice r 32 32) || decide (4 ≤ byteAt r 1) || decide (32 ≤ byteAt r 5) || decide (bits (le r 30 2) 13 12 ≠ 0)

/-- The off-only fields differ (08 R185): FLAGS, SLEW, PWMF. -/
def chanOffOnly (a b : List Byte) : Bool := byteAt a 1 != byteAt b 1 || le a 8 2 != le b 8 2 || le a 10 2 != le b 10 2

/-- CHAN.CONFIG (05 R119; 08 R185, R186, R199). -/
def execChanConfig (h : Hdr) (addr len ch : Nat) (s : State) : Out :=
  fwCmd h s (s.withDesc h addr len (s.chChecks h ch) (decide (len = 64)) fun r s =>
    s.guarded h
      [bp (chanRecordReserved r) 0x01, bp (chanRecordRange ch r) 0x12, bp (chanRecordMix ch r) 0x13,
       den (prioOf r && decide (1 < h.ring)) 0x02]
      (s.farWrite h (1 + chDie ch) (cmdAddr ch + 0x40) 0x20
        (s.guarded h [bst (decide ((s.chan (s.lead ch)).st ≠ .off) && chanOffOnly r (s.chan (s.lead ch)).cfg) 0x11]
          (((s.modCh ch fun c => { c with cfg := r }).syncCh ch).ok h))))

/-- The junction test of CHAN.CLEAR and of a restart (09 R221, R224): below 155 C and less than 40 K above the die. -/
def State.cool (s : State) (n : Nat) : Bool :=
  decide ((s.chan n).tj < 155) && decide ((s.chan n).tj - (s.pdie (chDie n)).tref < 40)

/-- The fault reactions that cover a channel and stand (08 R190): device safe state and the S2 CH holds. -/
def State.standing (s : State) (n : Nat) : List HoldBy :=
  (if s.flt.safe then [HoldBy.safe] else []) ++
    ((s.flt.holds.filter fun p => decide (0x30 ≤ p.1) && decide (p.1 ≤ 0x39) && s.srcCovers p.1 p.2 n).map fun p => HoldBy.src p.1)

/-- A fault reaction reaches a channel (08 R190; 09 R217, R235; 01 R18): after a protective shutdown of the same cycle it enters SAFE_HOLD
with the held output fixed at entry, its queued request is withdrawn, and a held On whose output is off is turned on with a PRIORITY request.
A channel already in SAFE_HOLD keeps its held output. The reaction takes the channel's fabric cycle. -/
def State.holdCh (s : State) (n : Nat) (by_ : HoldBy) : State :=
  let m := s.lead n
  let s := (s.protect m).modCh m fun c => { c with cmdAt := some s.cyc }
  let c := s.chan m
  if c.st.unheld then s
  else if c.st = .safeHold then s.modCh m fun c => { c with holds := if c.holds.contains by_ then c.holds else c.holds ++ [by_] }
  else
    let held := heldAt (safevalOf c.cfg) c.st
    let s := s.withdraw m .withdrawnHeld
    let s := s.withdrawSched m 1024
    let was := c.out
    let reached := match held with
      | .off => !(c.st = .turnOn ∨ c.st = .on ∨ c.st = .pwm ∨ c.st = .turnOff)
      | .on => decide (c.st = .on)
      | .pwm => true
    let s := if held = .off then s.endGrant m else s
    let s := s.goCh m .safeHold fun c =>
      { (if held = .off then c.output false else c) with held := held, holdShut := false, holds := [by_], orphaned := false, held0 := reached,
                                                         fromOff := decide (c.st = .off) }
    let s := if held = .off then s.imbalEnd m else s
    if held = .on ∧ c.st ≠ .turnOn ∧ c.st ≠ .on then
      (if c.st = .pwm then s.modCh m fun c => { c with out := true, gridOk := false, held0 := true, limCyc := 0, scCyc := 0, limPer := false }
       else if (s.grp (chGroup m)).uv then s
       else if was then s.modCh m fun c => { c with out := true } else s.holdTurnOn m)
    else s

/-- An orphaned SAFE_HOLD whose held output has been reached is released from t7 on, unless the loaded Keore image maps
the channel (09 R239); device safe state keeps it. -/
def State.releaseOrphan (s : State) (n : Nat) : State :=
  let m := s.lead n
  let c := s.chan m
  if c.st = .safeHold ∧ c.holds = [HoldBy.orphan] ∧ c.held0 ∧ 7 ≤ s.sys.boot ∧ !(s.members m).any (fun k => s.keo.outs.contains k) then s.leaveHold m else s

/-- One hold of a channel ends; with none left it leaves SAFE_HOLD (08 R190, 09 R236). Where an orphaned hold is left, FAULT.RECOVER has ended
the device safe state that took precedence over it (09 R239): the channel is released as the orphan's rule says, and a mapped one, whose
engine runs by now, at once (log 57). -/
def State.unholdCh (s : State) (n : Nat) (drop : HoldBy → Bool) : State :=
  let m := s.lead n
  let c := s.chan m
  if c.st = .safeHold ∧ c.holds.any drop then
    let left := c.holds.filter fun x => !drop x
    if left.isEmpty ∨ (left = [HoldBy.orphan] ∧ s.keo.st = 2 ∧ (s.members m).any (fun k => s.keo.outs.contains k)) then s.leaveHold m
    else (s.modCh m fun c => { c with holds := left }).releaseOrphan m
  else s

/-- CHAN.CLEAR (05 R119; 09 R224; 08 R190). -/
def execChanClear (h : Hdr) (ch : Nat) (s : State) : Out :=
  fwCmd h s (s.guarded h (s.chChecks h ch)
    (s.farWrite h (1 + chDie ch) (cmdAddr ch) 0x20
      (let m := s.lead ch
       let c := s.chan m
       let cool := (s.members ch).all fun k => s.cool k
       let hot := !cool
       s.guarded h [flc (decide (c.st = .safeHold ∨ c.st = .orphanHold)) 0x01, bst hot 0x12]
         (let s := s.modCh m fun c => { c with retry := 0, cause := 0, trip := if c.st = .retryWait then c.trip else false }
          let s := if c.st = .latched then
              (let s := s.goCh m .off fun c => { c.output false with act := .off, gridOk := false, offAt := s.cyc }
               ((s.standing m).foldl (fun s b => s.holdCh m b) s).uvMove m)
            else s
          (s.syncCh m).ok h 0))))

/-- The member sets of 08 R198. -/
def bondSet (l : List Nat) : Bool :=
  match l with
  | [] => false
  | a :: _ =>
    let k := a % 20
    let run := l == (List.range l.length).map (· + a)
    let c := chClass a
    run && decide (a + l.length ≤ 40) &&
      (if c = 0 then l.length == 2 && k % 2 == 0
       else l.length == 2 && k % 2 == 0 || (l.length == 4 && k % 4 == 0)) && decide (chClass (a + l.length - 1) = c)

/-- The member with the highest retry counter, the lowest-numbered on a tie (08 R202). -/
def State.topRetry (s : State) (l : List Nat) : Nat :=
  l.foldl (fun b m => if (s.chan b).retry < (s.chan m).retry then m else b) (l.headD 0)

/-- Position, in parameter order, and epoch of the first member whose epoch differs (05 R119). A member of a Bunting carries the Bunting's
(04 R106). -/
def State.badMember (s : State) (l e : List Nat) : Option (Nat × Nat) :=
  ((List.range l.length).filterMap fun i =>
    let m := (l[i]?).getD 0
    if (e[i]?).getD 0 = s.chEpoch m then none else some (i, s.chEpoch m)).head?

/-- CHAN.BOND (05 R119; 08 R198, R199, R202; 04 R104). The members named are `members`, COUNT of them; the position is that of the lowest. -/
def execChanBond (h : Hdr) (count : Nat) (members epochs : List Nat) (s : State) : Out :=
  let l := members.take count
  let a := l.foldl Nat.min (l.headD 0)
  let bad := s.badMember l epochs
  fwCmd h s (s.guarded h
    [bp (l.any fun m => decide (40 ≤ m)) 0x11, den (l.any fun m => s.owner 3 m != h.ring) 0x01,
     (decide (h.epoch ≠ (s.bunt a).epoch), .roleChanged, 0, (s.bunt a).epoch + 0xFF * 65536),
     (bad.isSome, .roleChanged, 0, (bad.getD (0, 0)).2 + 65536 * (bad.getD (0, 0)).1),
     bp (decide (count ≠ 2 ∧ count ≠ 4)) 0x12, bp (!bondSet l) 0x14]
    (s.farWrite h (1 + chDie a) (cmdAddr a) 0x20
      (s.guarded h [bst (l.any fun m => decide ((s.chan m).st ≠ .off)) 0x11, bst (l.any fun m => s.bonded m) 0x13]
        (let rd := (s.chan a).cfg
         let rd := setBytes rd 1 [BitVec.ofNat 8 (byteAt rd 1 - (if fineOf rd then 2 else 0))]
         let t := s.topRetry l
         let ct := s.chan t
         let trip := l.any fun m => (s.chan m).trip
         let p := s.bunt a
         let e := (p.epoch + 1) % 65536
         let s := l.foldl (fun s m =>
           let c := s.chan m
           s.setChan m { c with cfg := rd, bunt := a, retry := ct.retry, cause := ct.cause, trip := trip, act := (s.chan a).act,
                                duty := (s.chan a).duty, epoch := (c.epoch + 1) % 65536, offAt := s.cyc }) s
         let s := s.setBunt a { p with epoch := e, count := count, imbal := false }
         (s.syncCh a).ok h e))))

/-- A Bunting dissolved (08 R199, R202; 04 R104): each member keeps what it shows. -/
def State.unbond (s : State) (a : Nat) : State :=
  let l := s.members a
  let p := s.bunt a
  let s := l.foldl (fun s m => let c := s.chan m; s.setChan m { c with bunt := 0xFF, epoch := (c.epoch + 1) % 65536 }) s
  let s := s.setBunt a { p with epoch := (p.epoch + 1) % 65536, count := 0, imbal := false }
  let f := l.foldl (fun (f : Fb) m => { f with shChan := put f.shChan m (s.chan m) }) s.fb
  { s with fb := { f with shBunt := put f.shBunt a (s.bunt a) } }

/-- CHAN.UNBOND (05 R119; 08 R199). A channel in no Bunting gives BAD_STATE 0x14 after the ownership check, its EPOCH
unchecked. -/
def execChanUnbond (h : Hdr) (ch : Nat) (s : State) : Out :=
  fwCmd h s (s.guarded h
    [bp (decide (40 ≤ ch)) 0x11, den (decide (s.owner 3 ch ≠ h.ring)) 0x01, bst (!s.bonded ch) 0x14, role h (s.chEpoch ch)]
    (s.farWrite h (1 + chDie ch) (cmdAddr ch) 0x20
      (let a := s.lead ch
       s.guarded h [bst (decide ((s.chan a).st ≠ .off)) 0x11]
         (let s := s.condition 0x39 a false
          let s := s.unbond a
          s.ok h (s.bunt a).epoch))))

/-- CHAN.CAPTURE (05 R119; 08 R207). It waits for its start; the bursts write the data. A pending capture of the channel
is replaced and completes with OK, RESULT 0. -/
def execChanCapture (h : Hdr) (out outLen ch kind count : Nat) (s : State) : Out :=
  fwCmd h s (s.guarded h
    (s.chChecks h ch ++
     [bp (decide (1 < kind)) 0x12,
      bp (decide (kind = 0 ∧ (count = 0 ∨ 4096 < count)) || decide (kind = 1 ∧ (count < 16 ∨ 2048 < count))) 0x12,
      bp (!s.outOK h.ring out outLen (16 + 4 * count)) 0x10])
    (s.farWrite h (1 + chDie ch) (cmdAddr ch) 0x20
      (let c := s.chan ch
       let s := match c.cap with
         | some k => s.ok { ring := k.tag, ctag := k.ctag, irq := k.irq } 0
         | none => s
       let k : Capture := { tag := h.ring, ctag := h.ctag, irq := h.irq, addr := out, kind := kind, count := count }
       (s.setChan ch { s.chan ch with cap := some k }).accepted h 0x01)))

/-- CAPTURE_TRIGGER (08 R207): a turn-on from OFF or a protective shutdown of the channel has triggered its pending KIND 1 capture. START is
the end of the first sample: 64 samples of 1 us before the trigger. -/
def execCaptureTrigger (ch : Nat) (s : State) : Out :=
  unitEvent (decide (ch < 40))
    (let c := s.chan ch
     match c.cap with
     | some k => (match k.trig with
       | some (t, shut) => if k.started then s else s.setChan ch { c with cap := some { k with started := true, shut := shut, start := t - 63000 } }
       | none => s)
     | none => s)

/-- A direct channel command word reaching the window (08 R209): the writer's tag, then the epoch, then the state;
ACT 0b11 is ignored and not counted, and a reserved bit pattern is discarded and counted. -/
def State.directCommand (s : State) (tag ch epoch act reserved duty : Nat) : State :=
  if act = 3 then s
  else if s.owner 3 ch ≠ tag then (s.dcres ch 3).syncCh ch
  else if epoch ≠ s.chEpoch ch then (s.dcres ch 4).syncCh ch
  else if reserved ≠ 0 then (s.refuseCount ch).syncCh ch
  else (s.chArrive ch (actOf act) duty (.direct ch) 0).settle

/-- A direct command that needs its transfer to the P-die (08 R209; 20 R503): it passes the checks made on the C-die side, its tag, its
epoch, the state, and the admission of a turn-on. -/
def State.directSent (s : State) (tag ch epoch act reserved : Nat) : Bool :=
  let m := s.lead ch
  let c := s.chan m
  let asks := act != 0 && (c.st == .off || c.st == .admitWait || c.st == .turnOff)
  let cost := s.chanCost m 3
  act != 3 && s.owner 3 ch == tag && epoch == s.chEpoch ch && reserved == 0 && !c.inHold && !(c.st == .latched && act != 0) &&
    !(asks && !cost.prio && (s.admFree.isNone || s.holdReason cost != 0))

/-- A direct command is a posted write (20 R503, R505): its transfer is confirmed, or fails for good with `code` 2 or 3 (R509), as it does
while the link is DOWN or the die takes no command (09 R237). The failure is logged and nothing else changes (R510). -/
def State.directWrite (s : State) (ini tag ch epoch act reserved duty code : Nat) : State :=
  let die := 1 + chDie ch
  let bad := look (fun _ => 0) s.fb.bad die
  let lost := s.linkDown die || s.dieAbsent ch
  let c := if code ≠ 0 then code else if bad ≠ 0 then bad else if lost then 3 else 0
  if c ≠ 0 ∧ s.directSent tag ch epoch act reserved then
    let s := { s with fb := { s.fb with retry := if lost then s.fb.retry else satAdd 32 s.fb.retry 3, postErr := satAdd 32 s.fb.postErr 1 } }
    let s := s.fbLog { addr := cmdAddr ch, time := s.now32, die := die, code := c, ini := ini, kind := 5, tag := tag }
    s.raise 0x90 die
  else s.directCommand tag ch epoch act reserved duty

/-- DIRECT_CMD_OFF (08 R209): a write of LCH[ch].CMD with ACT OFF by an initiator. -/
def execDirectCmdOff (ini tag ch epoch reserved : Nat) (s : State) : Out :=
  unitEvent (decide (ch < 40)) (if s.live && s.presents ini tag then s.directWrite ini tag ch epoch 0 reserved 0 0 else s)

/-- DIRECT_CMD_ON (08 R209). -/
def execDirectCmdOn (ini tag ch epoch reserved : Nat) (s : State) : Out :=
  unitEvent (decide (ch < 40)) (if s.live && s.presents ini tag then s.directWrite ini tag ch epoch 1 reserved 0 0 else s)

/-- DIRECT_CMD_PWM (08 R209). -/
def execDirectCmdPwm (ini tag ch epoch reserved duty : Nat) (s : State) : Out :=
  unitEvent (decide (ch < 40)) (if s.live && s.presents ini tag then s.directWrite ini tag ch epoch 2 reserved (duty % 1024) 0 else s)

end Sys2Proof.Machine
end

