-- ==== Sys2Proof/Machine/ChanEvents.lean ====
section
/-! DEFINITION. The events of the load channels: switching, pulse-width modulation, protection, diagnosis, supply, and the
orphan disposition (08 R190 to R206; 09). -/
namespace Sys2Proof.Machine
open Sys2Proof

/-- A signed quotient: exact when whole, else rounded in a way the spec leaves open (log 13). -/
def divRI (a : Int) (b : Nat) : Int := if a % (b : Int) = 0 then a / (b : Int) else Config.roundDivI a b

/-- The channel's current is limited now (09 R214, R215): the load would draw more than the limit in force. The times of OC and SC run, SC's
while VOUT lies below 40 % of the group voltage. -/
def State.relimit (s : State) (ch : Nat) : State :=
  let c := s.chan ch
  let on := c.driven && c.out && decide (c.limitNow ch s.cyc < c.load)
  let low := on && decide (100 * c.limV < 40 * ((s.grp (chGroup ch)).mv2 * 2))
  let lim := if c.runsPwm && c.limit && !on then c.limCyc + (s.cyc - c.limAt) else if c.runsPwm || on then c.limCyc else 0
  let sc := if c.scOn && !low then (if c.runsPwm then c.scCyc + (s.cyc - c.scAt) else 0) else if c.runsPwm || low then c.scCyc else 0
  let d := { c with limit := on, limPer := c.limPer || on, limAt := if c.limit then c.limAt else s.cyc, limCyc := lim,
                    scOn := low, scAt := if c.scOn then c.scAt else s.cyc, scCyc := sc }
  let s := s.setChan ch d
  if c.limit || on then s.modCh ch fun c => { c with onCyc := s.cyc } else s

/-- The limit in force has changed for every member (08 R193; 09 R215). -/
def State.relimitAll (s : State) (n : Nat) : State := (s.members n).foldl (fun s m => s.relimit m) s

/-- TURN_ON_END (08 R190, R193, R194): the boost window ends, or a heavy output is within 1.0 V of its group. -/
def execTurnOnEnd (ch : Nat) (s : State) : Out :=
  unitEvent (decide (ch < 40))
    (let m := s.lead ch
     let c := s.chan m
     let due := decide (chClass m = 0) || decide (c.bwinEnd ≤ s.cyc)
     let fresh := fun (c : Chan) => { c with limCyc := 0, scCyc := 0, limAt := s.cyc, scAt := s.cyc, limPer := c.limit }
     if c.st = .turnOn ∧ due then
       (if c.act = .pwm then s.startPwm m (s.chNow m) false
        else s.goCh m .on fun c => fresh { c.output true with onCyc := s.cyc }).relimitAll m
     else if c.turningOn ∧ c.out ∧ due then ((s.modCh m fun c => fresh { c with held0 := true }).relimitAll m).releaseOrphan m
     else s)

/-- TURN_OFF_END (08 R190, R195; 09 R216): the output is below 10 % of the group voltage and the clamp has ended; a
thermal condition met meanwhile is taken now, whatever has happened to the channel since (log 57). -/
def execTurnOffEnd (ch : Nat) (s : State) : Out :=
  unitEvent (decide (ch < 40))
    (let m := s.lead ch
     let c := s.chan m
     if c.clampShut ≠ 0 ∧ c.st ≠ .latched then ((s.shutdown m c.clampShut).settle).releaseOrphan m
     else if c.st = .turnOff then s.goCh m .off fun c => { c.output false with offAt := s.cyc, offRead := 0 }
     else if c.falling then (s.modCh m fun c => { c with held0 := true }).releaseOrphan m
     else s)

/-- A protective row of member `ch` (09 R214, R217, R218): where that member has met the condition `cause`, the channel or Bunting shuts
down, for the first condition that any of its members has met. -/
def State.protectRow (s : State) (ch cause : Nat) : State :=
  if (s.trips ch).any fun p => p.2 == cause then (s.protect ch).settle else s

/-- SLEW_DEADLINE (08 R194; 09 R214): 10 ms after the ramp start a heavy turn-on that is not complete makes a protective shutdown. -/
def execSlewDeadline (ch : Nat) (s : State) : Out := unitEvent (decide (ch < 40)) (s.protectRow ch 5)

/-- CUR after a new value `x` (08 R206): the first value after a turn-on, else the filter of code K. -/
def Chan.filter (c : Chan) (x : Int) : Chan :=
  let k := byteAt c.cfg 5 % 16
  if c.curFresh || k == 0 then { c with cur := x, curFresh := false }
  else { c with cur := c.cur + divRI (x - c.cur) (2 ^ k) }

/-- PWMSYNC acts on the channel now (08 R206). -/
def Chan.synced (c : Chan) : Bool := bit (byteAt c.cfg 5) 4 && c.runsPwm

/-- PWM_PERIOD_START (08 R196, R197, R206; 09 R214, R222): device time on the P-die has reached a period start of the grid. The period's
duty is the commanded one, and its on-time is fixed now. The mean of the on-time samples of the period before it updates CUR under PWMSYNC. -/
def execPwmPeriodStart (ch : Nat) (s : State) : Out :=
  unitEvent (decide (ch < 40))
    (let m := s.lead ch
     let c := s.chan m
     let k := (periodIndex c.cfg c.grid (s.chNow m)).1
     if c.runsPwm ∧ !(s.grp (chGroup m)).uv ∧ k ≠ c.per then
       let on := onCycles m (s.grp (chGroup m)).mv2 c.duty c.cfg
       s.modCh m fun c =>
         let c := if c.synced && c.onN != 0 then c.filter (divRI c.onSum c.onN) else c
         { c with out := decide (on ≠ 0), perAt := s.cyc, perOn := on, per := k, gridOk := true, onSum := 0, onN := 0,
                  limCyc := if c.limPer then c.limCyc else 0, scCyc := if c.limPer then c.scCyc else 0, limPer := c.limit }
     else s)

/-- PWM_OFF_EDGE (08 R196; 09 R214, R223): the on-time of the running period has passed; limiting stops with it. -/
def execPwmOffEdge (ch : Nat) (s : State) : Out :=
  unitEvent (decide (ch < 40))
    (let m := s.lead ch
     let c := s.chan m
     if c.runsPwm ∧ c.out ∧ c.perAt + c.perOn ≤ s.cyc then (s.modCh m fun c => { c with out := false }).relimitAll m else s)

/-- CURRENT_LIMITING (09 R214, R215): the current that the load would draw comes to `ma` with the output at `mv` mV; above the limit in
force the channel limits it. The second without limiting starts again (R223). -/
def execCurrentLimiting (ch ma mv : Nat) (s : State) : Out :=
  unitEvent (decide (ch < 40)) ((s.setChan ch { s.chan ch with load := ma, limV := mv }).relimit ch)

/-- PROTECT_OC (09 R214): current limiting for longer than TLIM. -/
def execProtectOc (ch : Nat) (s : State) : Out := unitEvent (decide (ch < 40)) (s.protectRow ch 1)

/-- PROTECT_SC (09 R214): limiting with VOUT below 40 % of the group voltage for 20 us. -/
def execProtectSc (ch : Nat) (s : State) : Out := unitEvent (decide (ch < 40)) (s.protectRow ch 2)

/-- A thermal reading (09 R214, R216): a driven output shuts down; while the output falls the shutdown waits for the clamp. -/
def State.thermal (s : State) (ch cause : Nat) (tj : Int) (met : Bool) : State :=
  let s := s.setChan ch { s.chan ch with tj := tj }
  if met ∧ (s.chan (s.lead ch)).falling then s.modCh ch fun c => { c with clampShut := if c.clampShut = 0 then cause else c.clampShut }
  else s.protectRow ch cause

/-- PROTECT_OT (09 R214): the junction is at or above 175 C. -/
def execProtectOt (ch : Nat) (tj : Int) (s : State) : Out :=
  unitEvent (decide (ch < 40)) (s.thermal ch 3 tj (decide (175 ≤ tj)))

/-- PROTECT_DT (09 R214): the junction is at least 60 K above the P-die reference sensor. -/
def execProtectDt (ch : Nat) (tj : Int) (s : State) : Out :=
  unitEvent (decide (ch < 40)) (s.thermal ch 4 tj (decide (60 ≤ tj - (s.pdie (chDie ch)).tref)))

/-- TRST in cycles (09 R221): 10 ms × 2^(min(C, 8) − 1). -/
def trstCyc (c : Nat) : Nat := msCyc 10 * 2 ^ (Nat.min c 8 - 1)

/-- RETRY_RESTART (09 R221, R222; 08 R191): every restart condition holds. -/
def execRetryRestart (ch : Nat) (s : State) : Out :=
  unitEvent (decide (ch < 40))
    (let m := s.lead ch
     let c := s.chan m
     let cool := (s.members m).all fun k => s.cool k
     if c.st = .retryWait ∧ c.shutCyc + trstCyc c.shutC ≤ s.cyc ∧ cool ∧ c.act ≠ .off ∧ !(s.grp (chGroup m)).uv then
       (s.requestTurnOn m .self 0).settle
     else s)

/-- RETRY_COUNTER_RESET (09 R223): 1 s without a break in ON or PWM, and no member limiting. -/
def execRetryCounterReset (ch : Nat) (s : State) : Out :=
  unitEvent (decide (ch < 40))
    (let m := s.lead ch
     let c := s.chan m
     if (c.st = .on ∨ c.st = .pwm) ∧ !((s.members m).any fun k => (s.chan k).limit) ∧ c.onCyc + msCyc 1000 ≤ s.cyc then s.modCh m fun c => { c with retry := 0 } else s)

/-- On-state open-load threshold in 0.1 mA (09 R227). -/
def thrOf (n : Nat) (rcd : List Byte) : Int :=
  let v := le rcd 30 2 % 4096
  if chClass n = 0 then 100 * (if v = 0 then 20 else v)
  else if chClass n = 1 then 100 * (if v = 0 then 10 else v)
  else if fineOf rcd then (if v = 0 then 20 else v) else 10 * (if v = 0 then 20 else v)

/-- BUNTCUR: the sum of the members' CUR (08 R212). -/
def State.buntCur (s : State) (n : Nat) : Int := ((s.members n).map fun m => (s.chan m).cur).sum

/-- On-state detection runs (09 R228): ON, or PWM with PWMSYNC, and not switched off by OLDIS. -/
def Chan.olRuns (c : Chan) : Bool := (c.st == .on || (c.st == .pwm && bit (byteAt c.cfg 5) 4)) && !bit (le c.cfg 30 2) 15

/-- The runs below THR, and at or above 1.25 × THR (09 R228), after a new CUR. -/
def State.olRun (s : State) (n : Nat) : State :=
  let m := s.lead n
  let c := s.chan m
  let k := (s.members m).length
  let cur := s.buntCur m
  let thr := k * thrOf m c.cfg
  let start := fun (o : Option Nat) => match o with
    | some t => some t
    | none => some s.cyc
  s.modCh m fun c =>
    if !c.olRuns then { c with olLow := none, olHigh := none }
    else { c with olLow := if cur < thr then start c.olLow else none,
                  olHigh := if 5 * thr ≤ 4 * cur then start c.olHigh else none }

/-- The run that sets or clears IMBAL (08 R203), after a new CUR. -/
def State.imbRun (s : State) (n : Nat) : State :=
  if !s.bonded n then s else
  let m := s.lead n
  let p := s.bunt m
  let sum := s.buntCur m
  let k : Int := p.count
  let off := fun (x : Int) => let d := x * k - sum; if d < 0 then -d else d
  let beyond := decide (k * 10000 ≤ sum) && (s.members m).any fun i => decide (40 * sum < 100 * off (s.chan i).cur)
  let within := (s.members m).all fun i => decide (100 * off (s.chan i).cur ≤ 30 * sum)
  let run := if beyond then 1 else if within then 2 else 0
  s.setBunt m { p with imbRun := run, imbAt := if run = p.imbRun then p.imbAt else s.cyc }

/-- A run that goes on from the cycle it began in, starts now, or is broken. -/
def runOf (o : Option Nat) (on : Bool) (cyc : Nat) : Option Nat := if on then some (o.getD cyc) else none

/-- A run has lasted `n` cycles. -/
def ranFor (o : Option Nat) (n cyc : Nat) : Bool := match o with
  | some t => decide (t + n ≤ cyc)
  | none => false

/-- A reading of a supply group in 2 mV (09 R232): the runs beyond its thresholds start, go on or break. -/
def Group.read (g : Group) (mv2 cyc variant : Nat) : Group :=
  let mv := mv2 * 2
  let hi := if variant = 2 then 35000 else 20000
  let lo := if variant = 2 then 33500 else 19000
  { g with mv2 := mv2, uvLow := runOf g.uvLow (decide (mv < 4800)) cyc, uvHigh := runOf g.uvHigh (decide (5400 < mv)) cyc,
           ovHigh := runOf g.ovHigh (decide (hi < mv)) cyc, ovLow := runOf g.ovLow (decide (mv < lo)) cyc }

/-- LSB of a channel's current samples in 0.1 mA (08 R204): 4 mA, or 1 mA for light. -/
def sampleLsb (n : Nat) : Nat := if chClass n = 2 then 10 else 40

/-- A current sample from a mean of `cur` 0.1 mA (08 R204, R205): its value in 0.1 mA, whether it is of the fine range, and whether it lay
beyond its range. A light channel with FINE reports the fine range up to 200.0 mA; the fine range has no negative values (log 57). -/
def currentSample (n : Nat) (rcd : List Byte) (cur : Int) : Int × Bool × Bool :=
  if chClass n = 2 ∧ fineOf rcd ∧ 0 ≤ cur ∧ cur ≤ 2000 then (cur, true, false)
  else
    let l := sampleLsb n
    let top : Int := 32767 * l
    let q := divRI cur l * l
    (clampI (-top) top q, false, decide (q < -top ∨ top < q))

/-- An output-voltage sample from a mean in 2 mV (08 R204), and whether it lay beyond its range. -/
def voltSample (v : Int) : Int × Bool := (clampI (-32767) 32767 v, decide (v < -32767 ∨ 32767 < v))

/-- A KIND 0 record (08 R207): the sample in its LSB and its flags. -/
def kind0Record (n : Nat) (c : Chan) : List Byte :=
  toLE 2 (unsigned 16 (if c.fine then c.smp else c.smp / (sampleLsb n : Int))) ++
    [BitVec.ofNat 8 (b2n c.fine + 2 * b2n c.sat + 4 * b2n c.out), 0]

/-- A new sample of a running KIND 0 capture (08 R207). The boundary that ends the interval in progress starts it; START is the end of its
first sample. -/
def Chan.capture0 (c : Chan) (n : Nat) : Chan :=
  { c with cap := c.cap.map fun (k : Capture) =>
      if k.kind ≠ 0 then k
      else if !k.started then { k with started := true }
      else if k.count ≤ k.taken then k
      else { k with buf := k.buf ++ kind0Record n c, taken := k.taken + 1, start := if k.taken = 0 then c.smpT else k.start, satF := k.satF || c.sat } }

/-- CURRENT_SAMPLE (08 R204 to R206; 09 R232): device time on the P-die has reached the end of the channel's interval of 20 us. `cur` in
0.1 mA and `vout` in 2 mV are the means over its span; `tj` in C and `vb` in 2 mV are what the P-die measures beside them. -/
def execCurrentSample (ch : Nat) (cur vout tj : Int) (vb : Nat) (s : State) : Out :=
  unitEvent (decide (ch < 40))
    (let c := s.chan ch
     let t := s.chNow ch
     if t < c.smpNext then s
     else
       let at_ := t / 20000 * 20000
       let span := s.cyc - c.smpAt
       let (x, fine, satI) := currentSample ch c.cfg cur
       let (v, satV) := voltSample vout
       let mag := if x < 0 then (-x).toNat else x.toNat
       let c := { c with vout := v, smp := x, fine := fine, sat := satI || satV, tj := tj, curPk := Nat.max c.curPk mag,
                         smpT := at_, smpNext := at_ + 20000, smpAt := s.cyc, span := span }
       let c := if c.synced then
           (if c.out ∧ c.perAt + span ≤ s.cyc then { c with onSum := c.onSum + x, onN := c.onN + 1 } else c)
         else c.filter x
       (((s.setChan ch (c.capture0 ch)).setGrp (chGroup ch) ((s.grp (chGroup ch)).read vb s.cyc s.sys.variant)).olRun ch).imbRun ch)

/-- OPEN_LOAD_ON (09 R228, R231): 50 ms below THR set OLON and raise LCH_OPENLOAD; 50 ms at or above 1.25 × THR clear it. -/
def execOpenLoadOn (ch : Nat) (s : State) : Out :=
  unitEvent (decide (ch < 40))
    (let m := s.lead ch
     let c := s.chan m
     let ran : Option Nat → Bool := fun o => ranFor o (msCyc 50) s.cyc
     if c.olRuns ∧ !c.olOn ∧ ran c.olLow then (s.modCh m fun c => { c with olOn := true }).raise 0x32 m
     else if c.olRuns ∧ c.olOn ∧ ran c.olHigh then s.modCh m fun c => { c with olOn := false }
     else s)

/-- OFF_STATE_TEST (09 R229): every 10 ms in OFF with OFFTEST, `v1` is VOUT with the 100 uA source and `v2` without it, in mV. With OFFTEST
clear only `v2` counts: 10 ms without a break at 50 % of the group voltage or more set STB. Else a flag is set by two equal readings in a row;
both are cleared by two of load present. No test runs in the first 10 ms of OFF. -/
def execOffStateTest (ch : Nat) (v1 v2 : Int) (s : State) : Out :=
  unitEvent (decide (ch < 40))
    (let c := s.chan ch
     let test := bit (le c.cfg 30 2) 14
     let high := decide (((s.grp (chGroup ch)).mv2 : Int) * 2 ≤ 2 * v2)
     if c.st ≠ .off ∨ s.cyc < c.offAt + msCyc 10 ∨ (test = true ∧ s.cyc < c.testAt + msCyc 10) then s
     else
       let rd := if test then (if v1 < 2000 ∧ v2 < 2000 then 1 else if 2000 ≤ v1 ∧ v2 < 2000 then 2 else if 2000 ≤ v1 ∧ 2000 ≤ v2 then 3 else 0)
                 else if high then 3 else 1
       let run := if high && !test then some ((c.stbAt).getD s.cyc) else none
       let ran := match run with
         | some t => decide (t + msCyc 10 ≤ s.cyc)
         | none => false
       let twice := decide (rd = c.offRead)
       let stb := (test && rd == 3 && twice) || ran || (c.stb && !(rd == 1 && twice))
       let ol := (rd == 2 && twice) || (c.olOff && !(rd == 1 && twice))
       let s := s.setChan ch { c with offRead := rd, stb := stb, olOff := ol, testAt := s.cyc, stbAt := run }
       let s := if stb && !c.stb then s.raise 0x33 ch else s
       if ol && !c.olOff then s.raise 0x32 ch else s)

/-- BUNTING_IMBALANCE (08 R203): 10 ms beyond 40 % set IMBAL and raise LCH_IMBAL; 100 ms within 30 % clear it. -/
def execBuntingImbalance (n : Nat) (s : State) : Out :=
  unitEvent (decide (n < 40))
    (let m := s.lead n
     let p := s.bunt m
     if !s.bonded m then s
     else if !p.imbal ∧ p.imbRun = 1 ∧ p.imbAt + msCyc 10 ≤ s.cyc then (s.setBunt m { p with imbal := true }).condition 0x39 m true
     else if p.imbal ∧ p.imbRun = 2 ∧ p.imbAt + msCyc 100 ≤ s.cyc then (s.setBunt m { p with imbal := false }).condition 0x39 m false
     else s)

/-- The channels of a set that lead: single channels and lowest members. -/
def State.leadsOf (s : State) (p : Nat → Bool) : List Nat := (List.range 40).filter fun n => p n && s.lead n == n

/-- GROUP_UNDERVOLTAGE (09 R232; 02 R40): the group reads `mv`; 20 us below 4.8 V are an undervoltage. -/
def execGroupUndervoltage (g mv : Nat) (s : State) : Out :=
  unitEvent (decide (g < 4))
    (let x := (s.grp g).read (mv / 2) s.cyc s.sys.variant
     let s := s.setGrp g x
     if !x.uv ∧ ranFor x.uvLow (usCyc 20) s.cyc then
       let s := s.setGrp g { x with uv := true }
       let s := (s.leadsOf fun n => chGroup n == g).foldl (fun s n => s.undervolt n) s
       (s.condition 0x34 g true).settle
     else s)

/-- A channel whose group has recovered (08 R190; 09 R222, R233). -/
def State.uvRecover (s : State) (n : Nat) : State :=
  let c := s.chan n
  match c.st with
  | .undervolt =>
    if c.act = .off then s.goCh n .off fun c => { c.output false with gridOk := false, offAt := s.cyc }
    else s.requestTurnOn n .self 0
  | .safeHold | .orphanHold =>
    if c.holdShut then s
    else match c.held with
      | .off => s
      | .on => s.holdTurnOn n
      | .pwm =>
        let k := periodIndex c.cfg c.grid (s.chNow n)
        (s.holdTurnOn n).modCh n fun c => { c with out := false, held0 := true, per := if k.2 = 0 then k.1 - 1 else k.1 }
  | _ => s

/-- GROUP_UV_RECOVER (09 R232, R233): the group reads `mv`; 1 ms above 5.4 V end an undervoltage. PRIORITY requests come before the others
(07 R173). -/
def execGroupUvRecover (g mv : Nat) (s : State) : Out :=
  unitEvent (decide (g < 4))
    (let x := (s.grp g).read (mv / 2) s.cyc s.sys.variant
     let s := s.setGrp g x
     if x.uv ∧ ranFor x.uvHigh (msCyc 1) s.cyc then
       let s := s.setGrp g { x with uv := false }
       let s := s.condition 0x34 g false
       let first := fun (s : State) (n : Nat) => (s.chan n).inHold || prioOf (s.chan n).cfg
       let a := s.leadsOf fun n => chGroup n == g && first s n
       let b := s.leadsOf fun n => chGroup n == g && !first s n
       ((a ++ b).foldl (fun s n => s.uvRecover n) s).settle
     else s)

/-- GROUP_OVERVOLTAGE (09 R232): the group reads `mv`; 100 us above 20.0 V or 35.0 V are an overvoltage, and 1 ms below 19.0 V or 33.5 V
end it. No channel changes. -/
def execGroupOvervoltage (g mv : Nat) (s : State) : Out :=
  unitEvent (decide (g < 4))
    (let x := (s.grp g).read (mv / 2) s.cyc s.sys.variant
     let s := s.setGrp g x
     if !x.ov ∧ ranFor x.ovHigh (usCyc 100) s.cyc then (s.setGrp g { x with ov := true }).condition 0x35 g true
     else if x.ov ∧ ranFor x.ovLow (msCyc 1) s.cyc then (s.setGrp g { x with ov := false }).condition 0x35 g false
     else s)

/-- REVERSE_POLARITY (09 R234): a supply group is driven below PGND, or no longer: its switches are fully on in reverse. -/
def execReversePolarity (g : Nat) (on : Bool) (s : State) : Out :=
  unitEvent (decide (g < 4)) (s.setGrp g { s.grp g with rev := on })

/-- DIE_TEMP_HIGH (09 R231): a P-die reference sensor reaches 150 C. -/
def execDieTempHigh (d : Nat) (temp : Int) (s : State) : Out :=
  unitEvent (decide (d < 2))
    (let s := s.setPdie d { s.pdie d with tref := temp, hot := (s.pdie d).hot || decide (150 ≤ temp) }
     if 150 ≤ temp then s.condition 0x37 d true else s)

/-- DIE_TEMP_NORMAL (09 R231): the reference sensor is below 150 C again. -/
def execDieTempNormal (d : Nat) (temp : Int) (s : State) : Out :=
  unitEvent (decide (d < 2))
    (let s := s.setPdie d { s.pdie d with tref := temp, hot := (s.pdie d).hot && !decide (temp < 150) }
     if temp < 150 then s.condition 0x37 d false else s)

/-- A channel at the instant the C-die is found absent (09 R238). -/
def State.orphanCh (s : State) (n : Nat) : State :=
  let c := s.chan n
  if c.st = .latched ∨ c.st = .orphanHold then s
  else if byteAt c.cfg 27 = 0 then s.holdCh n .orphan
  else
    let held : Held := match c.st with
      | .on | .turnOn => .on
      | .pwm => .pwm
      | .safeHold => c.held
      | _ => .off
    let s := s.withdraw n .withdrawn
    let s := if held = .off then s.endGrant n else s
    s.goCh n .orphanHold fun x =>
      { (if held = .off then x.output false else x) with
          held := held, orphanSt := c.st, orphanEnd := s.cyc + msCyc (le x.cfg 28 2), holds := [],
          held0 := if c.st = .safeHold then x.held0 else decide (c.st ≠ .turnOn ∧ c.st ≠ .turnOff),
          holdShut := decide (c.st = .safeHold) && x.holdShut }

/-- C_DIE_ABSENT (09 R237, R238; 17 R445): P-die 0 or 1, or the I-die as 2, finds the C-die absent: it has been present,
and it is in reset or has been silent for 200 us. Each isolated output is held (17 R445). -/
def execCDieAbsent (d : Nat) (s : State) : Out :=
  unitEvent (decide (d ≤ 2))
    (let x := if d = 2 then s.iso.die else s.pdie d
     if x.seen ∧ !x.absent ∧ (s.sys.boot < 2 ∨ x.lastKa + usCyc 200 ≤ s.cyc) then
       let x := { x with absent := true, absentAt := s.cyc, orphan := true }
       if d = 2 then { s with iso := { s.iso with die := x, ch := s.iso.ch.map fun (p : Nat × IsoCh) => if p.2.mode = 2 then (p.1, { p.2 with hold := true }) else p } }
       else (s.leadsOf fun n => chDie n == d).foldl (fun s n => s.orphanCh n) (s.setPdie d x)
     else s)

/-- LCH_ORPHAN is recorded at the C-die start that follows an orphan period, once per P-die (09 R231), from boot instant t3 on
(21 R564). -/
def State.orphanReport (s : State) (d : Nat) : State :=
  if (s.pdie d).orphan ∧ !(s.pdie d).absent ∧ 3 ≤ s.sys.boot then (s.setPdie d { s.pdie d with orphan := false }).raise 0x38 d else s

/-- C_DIE_PRESENT (09 R237, R239): the first keep-alive after the C-die start. Channels found in SAFE_HOLD are orphaned
holds; device safe state keeps those it covers. -/
def execCDiePresent (d : Nat) (s : State) : Out :=
  unitEvent (decide (d ≤ 2))
    (let x := if d = 2 then s.iso.die else s.pdie d
     if x.absent ∧ 2 ≤ s.sys.boot ∧ x.absentAt < x.lastKa then
       let x := { x with absent := false }
       if d = 2 then { s with iso := { s.iso with die := x } }
       else
         let s := ((s.setPdie d x).realign d).orphanReport d
         (s.leadsOf fun n => chDie n == d).foldl (fun s n =>
           if (s.chan n).st = .safeHold then
             (s.modCh n fun c => { c with orphaned := true, holds := HoldBy.orphan :: (if s.flt.safe || s.flt.latch then [HoldBy.safe] else []) }).releaseOrphan n
           else s) s
     else s)

/-- ORPHAN_HOLD_END (09 R238): OHOLD has ended; the channel enters SAFE_HOLD, its held output set from SAFEVAL by the
state before the hold; a hold entered from SAFE_HOLD keeps its held output. -/
def execOrphanHoldEnd (ch : Nat) (s : State) : Out :=
  unitEvent (decide (ch < 40))
    (let m := s.lead ch
     let c := s.chan m
     if c.st = .orphanHold ∧ c.orphanEnd ≤ s.cyc then
       let uv := (s.grp (chGroup m)).uv
       let held := if c.holdShut then .off else if c.orphanSt = .safeHold then c.held else heldAt (safevalOf c.cfg) c.orphanSt
       let on := decide (held ≠ .off)
       let s := if on then s else (s.endGrant m).imbalEnd m
       let s := s.goCh m .safeHold fun x =>
         { (if on && !uv then x else x.output false) with
             held := held, holds := HoldBy.orphan :: (if s.flt.safe then [HoldBy.safe] else []), orphaned := true,
             held0 := if held = c.held then x.held0 else decide (held = .on ∧ c.held = .pwm), fromOff := decide (c.orphanSt = .off) }
       let s := if held ≠ .on ∨ uv then s
         else if c.held = .pwm then s.modCh m fun x => { x with out := true, gridOk := false, limCyc := 0, scCyc := 0, limPer := false }
         else if c.held = .off then s.holdTurnOn m else s
       s.releaseOrphan m
     else s)

end Sys2Proof.Machine
end

