-- ==== Sys2Proof/Machine/Time.lean ====
section
/-! DEFINITION. Device time: its steps, its discipline to network time, and the reads of the SCHED block's latch
(06 R135 to R143, R156). -/
namespace Sys2Proof.Machine
open Sys2Proof

/-! ### Scheduler entries and their dispatch -/

/-- ACTION of an entry (06 R152). -/
def SEnt.action (e : SEnt) : Nat := byteAt e.rcd 1

/-- TARGET of an entry. -/
def SEnt.target (e : SEnt) : Nat := le e.rcd 4 2

/-- PERIOD of an entry: unsigned ns on B0, a signed count step on B1 to B4 (06 R146). -/
def SEnt.period (e : SEnt) : Int := if byteAt e.rcd 0 = 0 then (le e.rcd 16 8 : Nat) else signed 64 (le e.rcd 16 8)

/-- TRIGGER of an entry (06 R146). -/
def SEnt.trigger (e : SEnt) : Int := if byteAt e.rcd 0 = 0 then (le e.rcd 8 8 : Nat) else signed 64 (le e.rcd 8 8)

/-- How long before its trigger a B0 entry is dispatched (06 R150): 4 us for an action on a companion die (01 R12), 0 for
one on the C-die. -/
def SEnt.lead (e : SEnt) : Nat := if e.action ≤ 5 then 4000 else 0

/-- Actions of an entry dispatched and not yet ended. -/
def State.outstanding (s : State) (n : Nat) : Nat := (s.sch.disp.filter fun d => d.ent == n).length

/-- Another due point of the entry may be dispatched (06 R148): a one-shot entry has one, a repeating one COUNT of them. A LATE firing that
is still to be made takes one. -/
def State.dispatchable (s : State) (n : Nat) : Bool :=
  let e := s.sent n
  let out := s.outstanding n + b2n e.owed.isSome
  e.st == 2 && (if e.repeats then e.limit == 0 || decide (e.fired + out < e.limit) else out == 0)

/-- The ownership and TEPOCH checks at dispatch (06 R152): 0 passed, 4 refused. -/
def State.dispatchCheck (s : State) (n : Nat) : Nat :=
  let e := s.sent n
  let tag := s.owner 9 n
  let t := e.target
  let bad := if e.action ≤ 3 then decide (s.owner 3 t ≠ tag) || decide (le e.rcd 26 2 ≠ s.chEpoch t)
             else if e.action = 5 then decide (256 ≤ t) && decide (s.owner 13 (t - 256) ≠ tag)
             else if e.action = 7 then decide (s.imgTag ≠ tag)
             else if e.action = 8 then decide (s.owner 11 t ≠ tag) else false
  if bad then 4 else 0

/-- CH_ON, and CH_PWM on an OFF channel, ask for leave at dispatch (06 R153); the deadline counts from the trigger (07 R170). A queued or
granted request is kept with the dispatched action; a refusal at once ends the firing. -/
def State.askLeave (s : State) (n : Nat) (trig : Nat) : State :=
  let e := s.sent n
  let m := s.lead e.target
  let cost := { s.chanCost m 1 with client := .sched n, trig := some trig }
  let setD := fun (s : State) (hd lv : Nat) =>
    { s with sch := { s.sch with disp := updFirst (fun d => d.ent == n && d.trig == trig && d.leave == 0) (fun d => { d with handle := hd, leave := lv }) s.sch.disp } }
  if cost.prio then
    let (hd, s) := s.takePrio cost m (le e.rcd 30 2)
    (setD s hd 2).evaluate cost.bud
  else (setD s noHandle 1).request cost (le e.rcd 30 2)
    (fun s hd => { s with sch := { s.sch with disp := updFirst (fun d => d.ent == n && d.trig == trig && d.leave == 1) (fun d => { d with handle := hd }) s.sch.disp } }) id

/-- An action of entry `n` is dispatched (06 R150 to R153): it carries its trigger instant. -/
def State.dispatch (s : State) (n trig : Nat) (late pos : Bool) : State :=
  let e := s.sent n
  let d : Disp := { ent := n, trig := trig, late := late, pos := pos, ok := s.dispatchCheck n }
  let s := { s with sch := { s.sch with disp := s.sch.disp ++ [d] } }
  if d.ok = 0 ∧ (e.action = 1 ∨ e.action = 3) ∧ (s.chan (s.lead e.target)).st = .off then s.askLeave n trig else s

/-- An entry's next trigger (06 R149), and whether its dispatch then comes later than it should (R151). -/
def State.moveTo (s : State) (n : Nat) (t : Int) : State :=
  let e := s.sent n
  s.setSent n { e with next := t, late := decide (t < (s.now : Int) + e.lead) }

/-- `m` due points of entry `n` are missed (06 R156, R157): each counts as a due point with LAST 0x3; their pulses of one
cycle merge (21 R541). -/
def State.missed (s : State) (n m : Nat) : State :=
  if m = 0 then s
  else
    let e := s.sent n
    let e := { e with fired := e.fired + (m - 1) }
    let s := (s.setSent n e).firingEnds n 3
    { s with sch := { s.sch with missCnt := satAdd 32 s.sch.missCnt (m - 1) },
             flt := if le e.rcd 28 2 < 512 then { s.flt with evMerge := satAdd 32 s.flt.evMerge (m - 1) } else s.flt }

/-- A forward step over the triggers of an armed B0 entry up to now (06 R156). A one-shot entry fires LATE at once, or is missed. A
repeating one moves on to its first trigger beyond now; its one LATE firing carries the latest skipped trigger, and the others count as
missed (log 14). -/
def State.forward (s : State) (n : Nat) : State :=
  let e := s.sent n
  let now : Int := s.now
  let skip := bit (byteAt e.rcd 2) 0
  if now < e.next ∨ !s.dispatchable n then s.moveTo n e.next
  else if !e.repeats then (if skip then s.missed n 1 else s.setSent n { e with owed := some e.next.toNat })
  else
    let p := e.period
    let k := ((now - e.next) / p + 1).toNat
    let r := if e.limit = 0 then k else Nat.min k (e.limit - e.fired - s.outstanding n - b2n e.owed.isSome)
    if skip then (s.moveTo n (e.next + (k : Int) * p)).missed n r
    else
      let s := (s.moveTo n (e.next + (k : Int) * p)).missed n (r - 1)
      s.setSent n { s.sent n with owed := some (e.next + ((k : Int) - 1) * p).toNat }

/-- A backward step (06 R156): a repeating entry's next trigger is the smallest TRIGGER + k × PERIOD beyond now that is not
dispatched already; a one-shot entry fires at its trigger. -/
def State.backward (s : State) (n : Nat) : State :=
  let e := s.sent n
  let now : Int := s.now
  let p := e.period
  let t := if now < e.trigger then e.trigger else e.trigger + ((now - e.trigger) / p + 1) * p
  let gone := s.sch.disp.any fun d => d.ent == n && !d.wait && decide ((d.trig : Int) = t)
  s.moveTo n (if e.repeats then (if gone then t + p else t) else e.next)

/-- The first release of a Keore task's grid beyond `t` (15 R375). -/
def KTask.after (k : KTask) (t : Nat) : Nat := (((t : Int) + k.per) - ((t : Int) - k.off) % (k.per : Int)).toNat

/-- A RELMODE 0 task follows a step as a repeating entry with MISS 0 does (15 R375): skipped instants make one release at
once; after a backward step the next release is the first instant beyond the new time. -/
def KTask.stepped (k : KTask) (fwd : Bool) (now : Nat) : KTask :=
  if k.per = 0 then k
  else if fwd then (if k.relNext ≤ now then { k with relNext := now } else k)
  else { k with relNext := k.after now }

/-- A step of device time by `d` ns (06 R137, R156; 07 R170, R177; 08 R204): armed B0 entries, task grids and the deadline fields move;
what is measured in elapsed time does not. A deadline that counts from a trigger still ahead stays at its device time. The replicas of the
companion dies take the step at the same instant. -/
def State.timeStep (s : State) (d : Int) : State :=
  let s := { s with clk := { s.clk with dt := unsigned 96 ((s.clk.dt : Int) + d * (2 ^ 32 : Nat)), stepCnt := satAdd 8 s.clk.stepCnt 1 } }
  let mv := fun (v : Nat) => unsigned 32 ((v : Int) + d)
  let tab := s.adm.tab.map fun (p : Nat × AdmEnt) =>
    if p.2.st = 0 then p else (p.1, { p.2 with deadDt := if p.2.trig.isSome then p.2.deadDt else mv p.2.deadDt, arrDt := mv p.2.arrDt })
  let s := { s with adm := { s.adm with tab := tab },
                    keo := { s.keo with task := s.keo.task.map fun (p : Nat × KTask) => (p.1, p.2.stepped (decide (0 < d)) s.now) } }
  let s := ((s.anchor.realign 0).realign 1)
  let l := (s.sch.ent.filter fun (p : Nat × SEnt) => p.2.st == 2 && byteAt p.2.rcd 0 == 0).map (·.1)
  let s := if 0 < d then l.foldl (fun s n => s.forward n) s else if d < 0 then l.foldl (fun s n => s.backward n) s else s
  s.raise 0x26 (unsigned 32 (clampI (-2147483647) 2147483647 d))

/-! ### The 802.1AS discipline -/

/-- ENABLE of the 802.1AS record (11 R293). -/
def State.gptpOn (s : State) : Bool := bit (byteAt s.clk.gptp 1) 0

/-- DOMAIN, the INFO of TIME_HOLD and TIME_LOST. -/
def State.domain (s : State) : Nat := byteAt s.clk.gptp 2

/-- Sync intervals in one second: 2^-LOGSYNC (11 R293). -/
def State.syncRate (s : State) : Nat := 2 ^ (-(signed 8 (byteAt s.clk.gptp 7))).toNat

/-- One sync interval in fabric cycles. -/
def State.syncCyc (s : State) : Nat := 400000000 / s.syncRate

/-- A discipline state entered (06 R141): leaving HOLDOVER ends TIME_HOLD, leaving FREE ends TIME_LOST. -/
def State.goDisc (s : State) (d : Disc) : State :=
  let s := { s with clk := { s.clk with disc := d, goodSyncs := 0, holdCyc := s.cyc, lastSyncCyc := s.cyc } }
  let s := s.condition 0x24 s.domain (d == .holdover)
  if d = .free then s else s.condition 0x25 s.domain false

/-- The servo (06 R142): a step beyond STEPTHR, else a RATE that removes the offset over one sync interval, within
SLEWMAX. -/
def State.servo (s : State) (offset : Int) : State :=
  let mag := if offset < 0 then -offset else offset
  if (le s.clk.gptp 8 4 : Int) < mag then s.timeStep offset
  else
    let top : Int := (Nat.min (le s.clk.gptp 16 2) 250 * 1000 : Nat)
    { s with clk := { s.clk with rate := clampI (-top) top (offset * s.syncRate) } }

/-- The second domain is on (11 R293). -/
def State.domain2On (s : State) : Bool := s.gptpOn && bit (byteAt s.clk.gptp 1) 2

/-- SYNC_RECEPTION (06 R139, R141, R142): a sync on a slave port; `offset` is the domain's time less device time in ns at one instant, the
link's delay included (log 58). One of DOMAIN disciplines device time; in FREE it only returns the discipline to ACQUIRING (log 15). One of
DOMAIN2 leaves device time alone. -/
def execSyncReception (second : Bool) (port : Nat) (offset : Int) (s : State) : Out :=
  .next (if !(s.live && s.gptpOn && bit (le s.clk.gptp 20 3) port) then s
    else if second then
      (if s.domain2On && !s.clk.gm2 && decide (s.clk.slavePort2 = port) then { s with clk := { s.clk with offset2 := offset, lastSync2 := s.now } } else s)
    else if s.clk.slavePort ≠ port then s
    else
      let big : Int := 2147483647
      let s := { s with clk := { s.clk with offset := clampI (-big) big offset, lastSync := s.now } }
      match s.clk.disc with
      | .gm => s
      | .free => s.goDisc .acquiring
      | .holdover => (s.goDisc .acquiring).servo offset
      | .acquiring =>
        let good := decide (-(le s.clk.gptp 12 4 : Int) < offset) && decide (offset < (le s.clk.gptp 12 4 : Int))
        let n := if good then s.clk.goodSyncs + 1 else 0
        let s := { s with clk := { s.clk with goodSyncs := n, lastSyncCyc := s.cyc } }
        (if 8 ≤ n then s.goDisc .locked else s).servo offset
      | .locked => ({ s with clk := { s.clk with lastSyncCyc := s.cyc } }).servo offset)

/-- SYNC_TIMEOUT (06 R141): three sync intervals without a sync. -/
def execSyncTimeout (s : State) : Out :=
  .next (if (s.clk.disc = .acquiring ∨ s.clk.disc = .locked) ∧ s.clk.lastSyncCyc + 3 * s.syncCyc ≤ s.cyc then s.goDisc .holdover else s)

/-- HOLDOVER_TIMEOUT (06 R141): HOLDTO has passed in HOLDOVER; TIME_LOST. -/
def execHoldoverTimeout (s : State) : Out :=
  .next (if s.clk.disc = .holdover ∧ s.clk.holdCyc + msCyc (le s.clk.gptp 18 2 * 1000) ≤ s.cyc then
      (s.goDisc .free).condition 0x25 s.domain true else s)

/-- BEST_MASTER_CLOCK_DECISION (06 R139, R141): a grandmaster of DOMAIN or DOMAIN2 is selected, by the algorithm or by the external port
configuration, whose SLAVEPORT then decides; ROLE 1 makes this device the only candidate for DOMAIN. RATE stays in force in GM (log 58). -/
def execBestMasterClockDecision (second self : Bool) (port id : Nat) (s : State) : Out :=
  .next (if !(s.live && s.gptpOn) then s
    else
      let ext := bit (byteAt s.clk.gptp 1) 1
      let port := if ext then byteAt s.clk.gptp 23 else port
      let self := if ext then decide (port = 0xFF) else self
      if second then
        (if s.domain2On then { s with clk := { s.clk with gm2 := self, gmIdentity2 := id, slavePort2 := if self then 0xFF else port } } else s)
      else
        let self := decide (byteAt s.clk.gptp 4 = 1) || self
        let same := decide (s.clk.gmIdentity = id) && decide (s.clk.slavePort = port)
        let t := { s with clk := { s.clk with gmIdentity := id, slavePort := if self then 0xFF else port } }
        if self then (if s.clk.disc = .gm then t else t.goDisc .gm)
        else if same ∧ (s.clk.disc = .acquiring ∨ s.clk.disc = .locked ∨ s.clk.disc = .holdover) then s
        else t.goDisc .acquiring)

/-- GPTP_SYNC_TRANSMIT (06 R139, R141, R143): at each sync interval the grandmaster of a domain sends a two-step sync message with the
domain's time at its transmission; in DOMAIN it announces the phase changes that SCHED.TIME has made. The time of DOMAIN2 follows its last
sync (log 58). -/
def execGptpSyncTransmit (second : Bool) (s : State) : Out :=
  let k := b2n second
  let gm := if second then s.domain2On && s.clk.gm2 else s.clk.disc == .gm
  let due := match look? s.clk.syncAt k with
    | some t => decide (t + s.syncCyc ≤ s.cyc)
    | none => true
  .next (if s.live && gm && due then
    let m : SyncMsg := if second then { domain := byteAt s.clk.gptp 3, time := unsigned 64 ((s.now : Int) + s.clk.offset2) }
      else { domain := s.domain, time := s.now, phaseCnt := s.clk.phaseCnt, phaseStep := s.clk.phaseStep }
    { s with clk := { s.clk with syncTx := s.clk.syncTx + 1, syncAt := put s.clk.syncAt k s.cyc, syncMsg := put s.clk.syncMsg k m } } else s)

/-- DT_LO_READ (06 R138): bits [31:0] are returned, bits [63:32] and the 16-bit fraction go into the reader's latch. -/
def execDtLoRead (ini : Nat) (s : State) : Out :=
  .next (if s.live then
    { s with clk := { s.clk with latch := put s.clk.latch ini (s.now / 2 ^ 32, (s.clk.dt / 2 ^ 16) % 2 ^ 16) },
             bus := { err := false, data := toLE 4 s.now } } else s)

/-- A phase change made as grandmaster, which the sync messages announce (06 R143). -/
def State.phaseChange (s : State) (d : Int) : State :=
  if s.clk.disc = .gm then { s with clk := { s.clk with phaseCnt := (s.clk.phaseCnt + 1) % 65536, phaseStep := d } } else s

/-- SCHED.TIME (05 R125; 06 R143): OP 0 sets device time, OP 1 steps it by a signed value. -/
def execSchedTime (h : Hdr) (op value : Nat) (s : State) : Out :=
  fwCmd h s (s.guarded h
    [noEpoch h, den (decide (h.ring ≠ 0)) 0x02, bp (decide (1 < op)) 0x12,
     bst (decide (s.clk.disc = .acquiring ∨ s.clk.disc = .locked ∨ s.clk.disc = .holdover)) 0x14]
    (let d : Int := if op = 0 then (value : Int) - s.now else signed 64 value
     ((s.phaseChange d).timeStep d).ok h))

end Sys2Proof.Machine
end

