-- ==== Sys2Proof/Machine/Sched.lean ====
section
/-! DEFINITION. The scheduler's commands and dispatch (05 R125; 06 R146 to R155). -/
namespace Sys2Proof.Machine
open Sys2Proof

/-- A field of an entry record outside its range (06 R146, R147, R152). -/
def schedRange (r : List Byte) : Bool :=
  let base := byteAt r 0
  let a := byteAt r 1
  let t := le r 4 2
  let arg := le r 6 2
  let ev := le r 28 2
  let pos := decide (base ≠ 0)
  let rep := bit (byteAt r 2) 1
  let p := le r 16 8
  decide (4 < base) || decide (a = 0 ∨ 8 < a) || decide (bits (byteAt r 2) 3 2 = 3) ||
  (if a ≤ 3 then decide (39 < t) else if a = 4 then decide (1 < t)
   else if a = 5 then decide (47 < t) && !(decide (256 ≤ t) && decide (t ≤ 271))
   else if a = 6 then decide (11 < t) else if a = 7 then decide (7 < t) else decide (511 < t)) ||
  decide ((if a = 3 then 1023 else if a = 4 then 23 else 0) < arg) ||
  (decide (511 < ev) && decide (ev ≠ 0xFFFF)) ||
  (pos && decide (signed 32 (le r 8 4) ≠ signed 64 (le r 8 8))) ||
  (rep && (if pos then decide (p = 0) else decide (p < 10000 ∨ 2 ^ 62 < p)))

/-- A combination SCHED.WRITE refuses (06 R147). -/
def schedMix (r : List Byte) : Bool :=
  let dir := bits (byteAt r 2) 3 2
  let rep := bit (byteAt r 2) 1
  let p := signed 64 (le r 16 8)
  let pos := decide (byteAt r 0 ≠ 0)
  (pos && rep && decide (dir = 0)) || (!pos && decide (dir ≠ 0)) ||
  (pos && ((decide (dir = 1) && decide (p < 0)) || (decide (dir = 2) && decide (0 < p)))) ||
  (decide (3 < byteAt r 1) && decide (le r 26 2 ≠ 0))

/-- The target carries an owner tag and the ring tag is not it (06 R147, R152). -/
def State.schedTarget (s : State) (r : List Byte) (tag : Nat) : Bool :=
  let a := byteAt r 1
  let t := le r 4 2
  (if a ≤ 3 then decide (s.owner 3 t ≠ tag)
   else if a = 5 ∧ 256 ≤ t then decide (s.owner 13 (t - 256) ≠ tag)
   else if a = 7 then decide (s.imgTag ≠ tag)
   else if a = 8 then decide (s.owner 11 t ≠ tag) else false) ||
  (decide (le r 28 2 ≠ 0xFFFF) && decide (s.owner 11 (le r 28 2) ≠ tag))

/-- The index, ownership and epoch checks of an entry command (04 R96). -/
def State.entChecks (s : State) (h : Hdr) (n : Nat) : List Chk :=
  [bp (decide (1024 ≤ n)) 0x11, den (decide (s.owner 9 n ≠ h.ring)) 0x01, role h (s.sent n).epoch]

/-- SCHED.WRITE (05 R125; 06 R146 to R148): the entry takes the record, WRITTEN, with a new epoch. -/
def execSchedWrite (h : Hdr) (entry : Nat) (rcd : List Byte) (s : State) : Out :=
  let e := s.sent entry
  fwCmd h s (s.guarded h
    (s.entChecks h entry ++
     [bp (decide (byteAt rcd 3 ≠ 0 ∨ 32 ≤ byteAt rcd 2)) 0x01, bp (schedRange rcd) 0x12, bp (schedMix rcd) 0x13,
      den (s.schedTarget rcd h.ring) 0x01, bst (decide (e.st = 2)) 0x10])
    (let k := (e.epoch + 1) % 65536
     (s.setSent entry { rcd := rcd, st := 1, epoch := k }).ok h k))

/-- SCHED.CLEAR (05 R125; 06 R148): the entry is EMPTY, with a new epoch. -/
def execSchedClear (h : Hdr) (entry : Nat) (s : State) : Out :=
  let e := s.sent entry
  fwCmd h s (s.guarded h (s.entChecks h entry ++ [bst (decide (e.st = 2)) 0x10])
    (let k := (e.epoch + 1) % 65536
     (s.setSent entry { epoch := k }).ok h k))

/-- SCHED.ARM (05 R125; 06 R148, R156): a trigger already past counts as a forward step from it to the present. -/
def execSchedArm (h : Hdr) (entry trigger : Nat) (s : State) : Out :=
  let e := s.sent entry
  hwCmd s (s.guarded h
    (s.entChecks h entry ++
     [bp (decide (byteAt e.rcd 0 ≠ 0 ∧ signed 32 trigger ≠ signed 64 trigger)) 0x12, bst (decide (e.st = 0)) 0x11,
      bst (decide (e.st = 2)) 0x12])
    (let e := if trigger = 0 then e else { e with rcd := setBytes e.rcd 8 (toLE 8 trigger) }
     let s := s.setSent entry { e with st := 2, fired := 0, last := 0, next := e.trigger, owed := none }
     let s := if byteAt e.rcd 0 = 0 then s.forward entry else s
     s.ok h))

/-- The actions of an entry dispatched and not yet applied are withdrawn (06 R155): a queued or granted leave ends, and a
channel that waits for it goes OFF. -/
def State.withdrawEnt (s : State) (n : Nat) : State :=
  let l := s.sch.disp.filter fun d => d.ent == n
  let s := l.foldl (fun s d =>
    if d.wait then
      let m := s.lead (s.sent n).target
      let c := s.chan m
      if c.st = .admitWait ∧ c.via = .sched n then
        let s := s.freeHandle c.handle
        let s := s.modCh m fun c => { c with handle := noHandle, via := .none, act := .off }
        s.goCh m .off fun c => { c.output false with gridOk := false, offAt := s.cyc }
      else s
    else if d.leave = 0 then s
    else if d.handle = outsideHandle then s.freeOutside (s.lead (s.sent n).target)
    else s.freeHandle d.handle) s
  { s with sch := { s.sch with disp := s.sch.disp.filter fun d => d.ent != n } }

/-- SCHED.DISARM (05 R125; 06 R155, R158): RESULT counts the firings since arming. -/
def execSchedDisarm (h : Hdr) (entry : Nat) (s : State) : Out :=
  let e := s.sent entry
  hwCmd s (s.guarded h (s.entChecks h entry ++ [bst (decide (e.st ≠ 2)) 0x13])
    (let s := s.withdrawEnt entry
     let s := s.setSent entry { s.sent entry with st := 1, next := 0, late := false, owed := none }
     (s.ok h (Nat.min e.fired (2 ^ 32 - 1))).settle))

/-- The point at which an armed B0 entry is due for dispatch, and its trigger (06 R150, R156): a LATE firing to be made at once comes first. -/
def State.dueKey (s : State) (n : Nat) : Option (Int × Int) :=
  let e := s.sent n
  if e.st ≠ 2 ∨ byteAt e.rcd 0 ≠ 0 then none
  else match e.owed with
    | some t => some ((t : Int) - e.lead, t)
    | none => if s.dispatchable n ∧ e.next ≤ (s.now : Int) + e.lead then some (e.next - e.lead, e.next) else none

/-- Entry `n` comes first among those due for dispatch (06 R151): by due point, then by trigger, then by number. -/
def State.firstDue (s : State) (n : Nat) : Bool :=
  match s.dueKey n with
  | none => false
  | some k => s.sch.ent.all fun p => match s.dueKey p.1 with
    | none => true
    | some j => decide (k.1 < j.1 ∨ (k.1 = j.1 ∧ (k.2 < j.2 ∨ (k.2 = j.2 ∧ n ≤ p.1))))

/-- SCHED_DISPATCH (06 R149 to R152): an armed B0 entry is dispatched 4 us before its trigger for a companion die, at its
trigger for the C-die, in order and up to four entries per fabric cycle; it is LATE when that instant had passed already. -/
def execSchedDispatch (ent : Nat) (s : State) : Out :=
  unitEvent (decide (ent < 1024))
    (let n := if s.sch.dispAt = some s.cyc then s.sch.dispN else 0
     if s.live && s.firstDue ent && decide (n < 4) then
       let e := s.sent ent
       let s := { s with sch := { s.sch with dispAt := some s.cyc, dispN := n + 1 } }
       match e.owed with
       | some t => (s.setSent ent { e with owed := none }).dispatch ent t true false
       | none =>
         (s.moveTo ent (if e.repeats then e.next + e.period else e.next)).dispatch ent e.next.toNat (e.late || decide (e.next + 3 ≤ (s.now : Int))) false
     else s)

/-- The entries of a position base that a step of its count makes due (06 R149): `up` is the direction of the edge. -/
def State.posDue (s : State) (base : Nat) (count : Int) (up : Bool) : State :=
  let l := (s.sch.ent.filter fun p => byteAt p.2.rcd 0 == base && s.dispatchable p.1 && decide (p.2.next = count) &&
    (let d := bits (byteAt p.2.rcd 2) 3 2; !(d == 1 && !up) && !(d == 2 && up))).map (·.1)
  l.foldl (fun s n =>
    let e := s.sent n
    (s.setSent n { e with next := if e.repeats then signed 32 (unsigned 32 (e.next + e.period)) else e.next }).dispatch n s.now false true) s

end Sys2Proof.Machine
end

