-- ==== Sys2Proof/Machine/Inputs.lean ====
section
/-! DEFINITION. Switch inputs, analogue inputs, position counters and the isolated bank (17; 05 R127). -/
namespace Sys2Proof.Machine
open Sys2Proof

/-- Samples of 250 ns in TDEB of a debounce code (17 R421); `d` is the default of the input kind. -/
def debSamples (d n : Nat) : Nat := let n := if n = 0 then d else n; (4 + (n - 1) % 4) * 2 ^ ((n - 1) / 4)

/-- TDEB in ns. -/
def debNs (d n : Nat) : Nat := debSamples d n * 250

/-- Issuer T01 (05 R114). -/
def t01 (h : Hdr) : Chk := den (decide (1 < h.ring)) 0x02

/-- Issuer T0 (05 R114). -/
def t0 (h : Hdr) : Chk := den (decide (h.ring ≠ 0)) 0x02

/-- Switch input `n`. -/
def State.sw (s : State) (n : Nat) : Sw := look (fun _ => {}) s.inp.sw n
/-- Switch input `n` changed. -/
def State.setSw (s : State) (n : Nat) (x : Sw) : State := { s with inp := { s.inp with sw := put s.inp.sw n x } }
/-- Analogue input `n`. -/
def State.an (s : State) (n : Nat) : An := look (fun _ => {}) s.inp.an n
/-- Analogue input `n` changed. -/
def State.setAn (s : State) (n : Nat) (x : An) : State := { s with inp := { s.inp with an := put s.inp.an n x } }
/-- Converter `c`. -/
def State.conv (s : State) (c : Nat) : Conv := look (fun _ => {}) s.inp.conv c
/-- Converter `c` changed. -/
def State.setConv (s : State) (c : Nat) (x : Conv) : State := { s with inp := { s.inp with conv := put s.inp.conv c x } }
/-- Position counter `k`. -/
def State.pc (s : State) (k : Nat) : Pc := look (fun _ => {}) s.inp.pc k
/-- Position counter `k` changed. -/
def State.setPc (s : State) (k : Nat) (x : Pc) : State := { s with inp := { s.inp with pc := put s.inp.pc k x } }
/-- Isolated channel `n`. -/
def State.isoCh (s : State) (n : Nat) : IsoCh := look (fun _ => {}) s.iso.ch n
/-- Isolated channel `n` changed. -/
def State.setIsoCh (s : State) (n : Nat) (x : IsoCh) : State := { s with iso := { s.iso with ch := put s.iso.ch n x } }

/-- Fabric cycles in TDEB. -/
def debCyc (d n : Nat) : Nat := debSamples d n * 100

/-- A run of TDEB may have completed since its count restarted at cycle `t` (17 R422): its first sample may be that of the restart. -/
def runDone (d deb t cyc : Nat) : Bool := decide (t + (debSamples d deb - 1) * 100 ≤ cyc)

/-- Device time on the I-die (01 R21; 17 R436). -/
def State.isoNow (s : State) : Nat := (s.iso.die.dt / 2 ^ 32) % 2 ^ 64

/-! ### Switch inputs -/

/-- The input is valid (17 R427). -/
def Sw.valid (x : Sw) : Bool := x.conf && !x.stuck && !x.chatF && !x.unset

/-- The input is an effective wake source (17 R430). -/
def Sw.wakes (x : Sw) : Bool := x.wake && x.conf && !x.stuck && !x.chatF

/-- INPUT.SW (05 R127; 17 R423, R424). The MAXACT count starts again (log 16). Whether the M-die is reached is not asked (log 63). -/
def execInputSw (h : Hdr) (input wet deb flags maxact chatter window : Nat) (s : State) : Out :=
  fwCmd h s (s.guarded h
    [noEpoch h, bp (decide (47 < input)) 0x11, t01 h, bp (decide (16 ≤ wet ∨ 4 ≤ flags)) 0x01,
     bp (decide (5 < wet % 8 ∨ 65 < deb ∨ 86400000 < maxact ∨ chatter = 1)) 0x12,
     bp (decide (window ≠ 0 ∧ (window < 10 ∨ 60000 < window))) 0x12, bp (decide (chatter = 0) != decide (window = 0)) 0x13]
    (let x := s.sw input
     (s.setSw input { x with conf := true, wet := wet, deb := deb, wake := bit flags 0, low := bit flags 1, maxAct := maxact,
                             chat := chatter, win := window, filt := none, unset := true, stuck := false, chatF := false,
                             edges := 0, winCnt := 0, lastWin := none, winAt := s.cyc, actAt := s.cyc, filtAt := s.cyc }).ok h))

/-- A change of the debounced level reaches VALUE (17 R424, R425). -/
def Sw.change (x : Sw) (v : Bool) (tedge cyc : Nat) : Sw :=
  { x with value := v, tedge := tedge, edges := (x.edges + 1) % 2 ^ 32, actAt := if v then cyc else x.actAt }

/-- A debounced level accepted on a switch input (17 R422, R424, R426): a first level equal to VALUE is no change; a
change beyond CHATTER in its window sets the flag and is not delivered; VALUE is frozen from then on. -/
def State.swAccept (s : State) (n : Nat) (level : Bool) : State :=
  let x := s.sw n
  if !s.live || !x.conf || x.filt == some level || !runDone 41 x.deb x.filtAt s.cyc then s
  else
    let v := level != x.low
    let first := x.filt.isNone
    let y := { x with filt := some level, raw := level, unset := false, filtAt := s.cyc }
    if first && v == x.value then s.setSw n y
    else
      let tedge := s.now - (debSamples 41 x.deb - 1) * 250
      let y := if x.win = 0 then y else { y with winCnt := x.winCnt + 1 }
      if x.chatF then s.setSw n y
      else if x.win ≠ 0 ∧ x.chat < y.winCnt then (s.setSw n { y with chatF := true, lastWin := none }).raise 0x71 n
      else s.setSw n (y.change v tedge s.cyc)

/-- INPUT_STUCK_DETECT (17 R425): VALUE has been 1 for MAXACT ms. -/
def execInputStuckDetect (n : Nat) (s : State) : Out :=
  unitEvent (decide (n < 48))
    (let x := s.sw n
     if s.live ∧ x.maxAct ≠ 0 ∧ x.value ∧ !x.stuck ∧ x.actAt + msCyc x.maxAct ≤ s.cyc then (s.setSw n { x with stuck := true }).raise 0x70 n
     else s)

/-- CHATTER_WINDOW_END (17 R426): the window of WINDOW ms ends and its count restarts. -/
def execChatterWindowEnd (n : Nat) (s : State) : Out :=
  unitEvent (decide (n < 48))
    (let x := s.sw n
     if s.live ∧ x.conf ∧ x.win ≠ 0 ∧ x.winAt + msCyc x.win ≤ s.cyc then
       s.setSw n { x with lastWin := some x.winCnt, winCnt := 0, winAt := x.winAt + msCyc x.win }
     else s)

/-- INPUT.CLEAR (05 R127; 17 R428). -/
def execInputClear (h : Hdr) (input what : Nat) (s : State) : Out :=
  let x := s.sw input
  let stuck := bit what 0 && x.stuck
  let chat := bit what 1 && x.chatF
  let still := match x.lastWin with
    | none => true
    | some k => decide (x.chat < k)
  fwCmd h s (s.guarded h
    [noEpoch h, bp (decide (47 < input)) 0x11, t01 h, bp (decide (4 ≤ what)) 0x01,
     bst ((stuck && x.value) || (chat && still)) 0x10]
    (let y := if stuck then { x with stuck := false, actAt := s.cyc } else x
     let y := if chat then
         (let y := { y with chatF := false }
          match x.filt with
          | some l => if (l != x.low) == x.value then y else y.change (l != x.low) s.now s.cyc
          | none => y)
       else y
     (s.setSw input y).ok h))

/-! ### Analogue inputs -/

/-- INPUT.AN (05 R127; 17 R431, R432): the input is assigned, or moved, to a converter. -/
def execInputAn (h : Hdr) (an conv deb : Nat) (s : State) : Out :=
  fwCmd h s (s.guarded h
    [noEpoch h, bp (decide (23 < an)) 0x11, t01 h, bp (decide (1 < conv ∨ 65 < deb)) 0x12,
     s.gated (0x60 + conv)]
    (let s := s.setAn an { s.an an with conv := some conv, deb := deb, valid := false, hist := [] }
     (s.setConv conv { s.conv conv with conf := true }).ok h))

/-- The inputs a converter scans, ascending (17 R431). -/
def State.scan (s : State) (c : Nat) : List Nat := (List.range 24).filter fun n => (s.an n).conv == some c

/-- The next input of a scan after the last one, starting over at its end. -/
def State.scanNext (s : State) (c : Nat) : Option Nat :=
  let l := s.scan c
  match (s.conv c).last with
  | none => l.head?
  | some k => match l.find? fun n => decide (k < n) with
    | some n => some n
    | none => l.head?

/-- ADC_CONVERSION (17 R431, R432): the next input of a converter's scan is converted, one every 250 ns and behind a triggered one; VALUE is the mean of the codes
within the last TDEB, halves rounded up. -/
def execAdcConversion (c an code : Nat) (s : State) : Out :=
  unitEvent (decide (c < 2 ∧ an < 24 ∧ code < 4096))
    (if s.live ∧ s.cut (0x60 + c) = false ∧ (s.conv c).conf ∧ s.scanNext c = some an ∧ (s.conv c).scanAt ≤ s.cyc ∧ (s.conv c).free ≤ s.cyc then
       let x := s.an an
       let w := ceilDiv (debNs 1 x.deb * 2) 5
       let hist := (x.hist ++ [(s.cyc, code)]).filter fun p => decide (s.cyc < p.1 + w)
       let n := hist.length
       let sum := (hist.map (·.2)).sum
       let s := s.setAn an { x with hist := hist, value := (2 * sum + n) / (2 * n), valid := true, sat := decide (code = 4095) }
       s.setConv c { s.conv c with last := some an, scanAt := s.cyc + 100 }
     else s)

/-- A triggered conversion (17 R433): put ahead of the scan, 250 ns after the one before when several fall together. The
converter is not configured before its first INPUT.AN, and not usable while cut (18 R464): false. -/
def State.adcTrig (s : State) (c an code trig : Nat) : Bool × State :=
  let k := s.conv c
  if !k.conf || s.cut (0x60 + c) then (false, s)
  else
    let t := Nat.max s.cyc k.free
    let late := decide (s.cyc < k.free)
    let s := s.setConv c { k with free := t + 100, trigLate := if late then satAdd 32 k.trigLate 1 else k.trigLate }
    (true, s.setAn an { s.an an with trig := some (code % 4096), ttrig := (trig + (t - s.cyc) * 5 / 2) % 2 ^ 32 })

/-! ### Position counters -/

/-- INPUT.PC (05 R127; 17 R434; 06 R145): PRESET replaces the count without a step. -/
def execInputPc (h : Hdr) (pc mode deb zpre preset : Nat) (s : State) : Out :=
  fwCmd h s (s.guarded h
    [noEpoch h, bp (decide (3 < pc)) 0x11, t01 h, bp (decide (2 < mode ∨ 65 < deb ∨ 1 < zpre)) 0x12]
    (let x := s.pc pc
     let x := if x.conf then x else { x with aAt := s.cyc, bAt := s.cyc, zAt := s.cyc }
     (s.setPc pc { x with conf := true, mode := mode, deb := deb, zpre := decide (zpre = 1), preset := signed 32 preset,
                          count := signed 32 preset }).ok h))

/-- The step of a counted edge (17 R434): 0 when the edge is not counted. `a`, `b` are the new levels. -/
def pcStep (mode : Nat) (aEdge a b : Bool) : Int :=
  if mode = 0 then (if aEdge && a then (if b then -1 else 1) else 0)
  else if mode = 1 then (if aEdge then (if b != a then 1 else -1) else 0)
  else if aEdge then (if b != a then 1 else -1) else (if a == b then 1 else -1)

/-- A filtered A or B edge of counter `k` (17 R434; 06 R144, R149): the levels become `a` and `b`; one changed is an edge, both together are an
error. A counted edge may make position entries due. A level changes TDEB after its last change at the earliest (17 R422). -/
def State.pcEdge (s : State) (k : Nat) (a b : Bool) : State :=
  let x := s.pc k
  let n := debCyc 9 x.deb
  match x.a, x.b with
  | some a0, some b0 =>
    if !s.live || !x.conf || (a == a0 && b == b0) || (a != a0 && decide (s.cyc < x.aAt + n)) || (b != b0 && decide (s.cyc < x.bAt + n)) then s
    else
      let y := { x with a := some a, b := some b, aAt := if a != a0 then s.cyc else x.aAt, bAt := if b != b0 then s.cyc else x.bAt }
      if a != a0 && b != b0 then (s.setPc k { y with errCnt := satAdd 16 x.errCnt 1 }).raise 0x72 k
      else
        let d := pcStep x.mode (a != a0) a b
        let n := signed 32 (unsigned 32 (x.count + d))
        let s := s.setPc k { y with count := n }
        if d = 0 then s else (s.posDue (k + 1) n (decide (0 < d))).settle
  | _, _ => s

/-- PC_EDGE (17 R434). -/
def execPcEdge (k : Nat) (a b : Bool) (s : State) : Out := unitEvent (decide (k < 4)) (s.pcEdge k a b)

/-- The levels an edge of counter `k` brings that waits in the queue: it falls in this same sample. -/
def State.edgeNow (s : State) (k : Nat) : Option (Bool × Bool) :=
  s.pending.findSome? fun i => match i with
    | .pcEdge j a b => if j = k then some (a, b) else none
    | _ => none

/-- PC_Z_EDGE (17 R435; 06 R145): a rising edge of filtered Z; a step of the same sample is taken first. -/
def execPcZEdge (k : Nat) (s : State) : Out :=
  unitEvent (decide (k < 4))
    (let x := s.pc k
     if s.live ∧ x.conf ∧ x.z = some false ∧ x.zAt + debCyc 9 x.deb ≤ s.cyc then
       let s := match s.edgeNow k with
         | some (a, b) => s.pcEdge k a b
         | none => s
       let x := s.pc k
       s.setPc k { x with z := some true, zAt := s.cyc, zcnt := satAdd 16 x.zcnt 1, count := if x.zpre then x.preset else x.count }
     else s)

/-- A first filtered level of a counter input, which is no edge, or a falling Z (17 R434, R435). Input 3k is A, 3k + 1 B,
3k + 2 Z. -/
def State.pcAccept (s : State) (i : Nat) (level : Bool) : State :=
  let x := s.pc (i / 3)
  let first := fun (t : Nat) => runDone 9 x.deb t s.cyc
  if !s.live || !x.conf then s
  else if i % 3 = 0 then (if x.a.isNone && first x.aAt then s.setPc (i / 3) { x with a := some level, aAt := s.cyc } else s)
  else if i % 3 = 1 then (if x.b.isNone && first x.bAt then s.setPc (i / 3) { x with b := some level, bAt := s.cyc } else s)
  else if (x.z.isNone && first x.zAt) || (x.z == some true && !level && decide (x.zAt + debCyc 9 x.deb ≤ s.cyc)) then
    s.setPc (i / 3) { x with z := some level, zAt := s.cyc }
  else s

/-! ### The isolated bank -/

/-- The output is on: commanded on, in output mode, with VFIELD present (17 R443). -/
def State.isoOn (s : State) (n : Nat) : Bool := (s.isoCh n).mode == 2 && (s.isoCh n).cmd && s.iso.vfok

/-- A commanded value; a change starts the blanking of 500 us (17 R441). -/
def State.isoSet (s : State) (n : Nat) (v : Bool) : State :=
  let x := s.isoCh n
  if x.cmd = v then s else s.setIsoCh n { x with cmd := v, blank := some (s.cyc + usCyc 500) }

/-- Outputs switch off with commanded value 0 (17 R444). -/
def State.isoOff (s : State) (p : Nat → Bool) : State :=
  ((List.range 16).filter p).foldl (fun s n => if (s.isoCh n).mode = 2 then s.isoSet n false else s) s

/-- The read-back: the filtered level, 0 before it has settled. -/
def IsoCh.readBack (x : IsoCh) : Nat := b2n (x.filt.getD false)

/-- Index and owner of an isolated channel (05 R127). -/
def State.isoChecks (s : State) (h : Hdr) (n : Nat) : List Chk :=
  [noEpoch h, bp (decide (15 < n)) 0x11, den (decide (s.owner 13 n ≠ h.ring)) 0x01]

/-- Bus address of an isolated channel's window (17 R448). -/
def isoAddr (n : Nat) : Nat := 0x4B000000 + 0x20 * n

/-- ISO.CFG (05 R127; 17 R437). -/
def execIsoCfg (h : Hdr) (ch mode deb : Nat) (s : State) : Out :=
  fwCmd h s (s.guarded h (s.isoChecks h ch ++ [bp (decide (2 < mode ∨ 65 < deb)) 0x12])
    (s.farWrite h 3 (isoAddr ch) 0x20
      (s.guarded h [bst (s.isoOn ch) 0x10]
        ((s.setIsoCh ch { s.isoCh ch with mode := mode, deb := deb, cmd := false, filt := none, unset := true, filtAt := s.cyc }).syncIso.ok h))))

/-- The refusals of a write to an isolated output (17 R440). -/
def State.isoRefuse (s : State) (n : Nat) (v : Bool) : List Chk :=
  let x := s.isoCh n
  [bst (decide (x.mode ≠ 2)) 0x11, bst x.mism 0x12, bst (v && !s.iso.vfok) 0x13, flc (v && s.flt.safe) 0x01]

/-- A Keore write discarded or refused (15 R383). -/
def State.wref (s : State) : State := { s with keo := { s.keo with wref := satAdd 32 s.keo.wref 1 } }

/-- A write reaches an isolated output (17 R440, R445): an ISO.SET that changes it completes after its blanking; a write ends the orphan hold of
the output. -/
def State.isoApply (s : State) (w : IsoWr) : State :=
  let x := s.isoCh w.ch
  match w.h with
  | some h =>
    s.guarded h (s.isoRefuse w.ch w.v)
      (let s := s.setIsoCh w.ch { x with hold := false }
       if x.cmd = w.v then s.syncIso.ok h x.readBack
       else
         let s := s.isoSet w.ch w.v
         (s.setIsoCh w.ch { s.isoCh w.ch with wait := (s.isoCh w.ch).wait ++ [(h.ring, h.ctag, h.irq, s.now)] }).syncIso)
  | none =>
    match firstBad (s.isoRefuse w.ch w.v) with
    | some _ => s.wref
    | none => ((s.setIsoCh w.ch { x with hold := false }).isoSet w.ch w.v).syncIso

/-- A row that waits in the queue acts on output `n` before this write in the same fabric cycle (17 R440; log 40): a fault reaction, or, before
an ISO.SET, the output phase of a Keore task. -/
def State.isoRival (s : State) (n : Nat) (fromRing : Bool) : Instr → Bool
  | .safeLineDemand => s.flt.safeReq
  | .faultReactionStart => match s.flt.waiting with
    | (src, info) :: _ => src == 0x74 || (src == 0x73 && info % 16 == n)
    | [] => false
  | .kEnd => fromRing && s.keo.st == 2
  | _ => false

/-- A write to an isolated output arrives (17 R440): fault reactions of the cycle come first, then Keore writes, then ISO.SET. -/
def State.isoArrive (s : State) (w : IsoWr) : State :=
  if s.iso.wr.any (fun x => x.ch == w.ch) || s.pending.any (s.isoRival w.ch w.h.isSome) then
    let (keo, hal) := s.iso.wr.partition fun x => x.h.isNone
    { s with iso := { s.iso with wr := if w.h.isNone then keo ++ [w] ++ hal else keo ++ hal ++ [w] } }
  else s.isoApply w

/-- The writes that waited are applied at the end of their fabric cycle. -/
def State.isoWaits (s : State) : State :=
  if s.iso.wr.isEmpty then s else s.iso.wr.foldl (fun s w => s.isoApply w) { s with iso := { s.iso with wr := [] } }

/-- ISO.SET (05 R127; 17 R440, R445). -/
def execIsoSet (h : Hdr) (ch value : Nat) (s : State) : Out :=
  fwCmd h s (s.guarded h (s.isoChecks h ch ++ [bp (decide (1 < value)) 0x12])
    (s.farWrite h 3 (isoAddr ch) 0x20 (s.isoArrive { ch := ch, v := decide (value = 1), h := some h })))

/-- ISO.CLEAR (05 R127; 17 R442). -/
def execIsoClear (h : Hdr) (ch : Nat) (s : State) : Out :=
  fwCmd h s (s.guarded h (s.isoChecks h ch)
    (s.farWrite h 3 (isoAddr ch) 0x20
      (let x := s.isoCh ch
       if !x.mism then s.ok h
       else s.guarded h [bst (decide (x.readBack = 1) || (decide (x.cause = 4) && x.hot)) 0x14]
         ((s.setIsoCh ch { x with mism := false, cause := 0 }).syncIso.ok h))))

/-- ISO_BLANKING_END (17 R440, R441): the blanking ends; the ISO.SET commands that wait for it complete with TIME at
their application and the read-back. -/
def execIsoBlankingEnd (ch : Nat) (s : State) : Out :=
  unitEvent (decide (ch < 16))
    (let x := s.isoCh ch
     match x.blank with
     | none => s
     | some t =>
       if t ≤ s.cyc then
         let s := s.setIsoCh ch { x with blank := none, blankAt := t, wait := [] }
         let s := if x.wait.isEmpty then s else s.syncIso
         x.wait.foldl (fun s w => s.replyAt { ring := w.1, ctag := w.2.1, irq := w.2.2.1 } .ok 0 x.readBack w.2.2.2 true) s
       else s)

/-- A mismatch latches (17 R441): the output is off, commanded value 0, counted, with its cause. -/
def State.isoLatch (s : State) (n cause : Nat) : State :=
  let s := s.isoSet n false
  let x := s.isoCh n
  (s.setIsoCh n { x with mism := true, mmCnt := satAdd 32 x.mmCnt 1, cause := cause }).raise 0x73 (n + 256 * cause)

/-- ISO_MISMATCH_DETECT (17 R441): the filtered read-back has differed from the commanded value, after the blanking, for longer than the larger
of TDEB and 100 us. -/
def execIsoMismatchDetect (ch : Nat) (s : State) : Out :=
  unitEvent (decide (ch < 16))
    (let x := s.isoCh ch
     let since := Nat.max x.filtAt x.blankAt
     if x.mode = 2 ∧ s.iso.vfok ∧ !x.mism ∧ x.blank = none ∧ x.filt = some (!x.cmd) ∧ since + Nat.max (debCyc 41 x.deb) (usCyc 100) < s.cyc then s.isoLatch ch (if x.cmd then 1 else 2)
     else s)

/-- ISO_OVERLOAD (17 R439, R441): the output has limited for 5 ms, or its junction has reached 175 C. -/
def execIsoOverload (ch : Nat) (hot : Bool) (s : State) : Out :=
  unitEvent (decide (ch < 16))
    (if s.isoOn ch ∧ !(s.isoCh ch).mism then
       (s.setIsoCh ch { s.isoCh ch with hot := hot }).isoLatch ch (if hot then 4 else 3)
     else s)

/-- A reading of VFIELD in mV (17 R443): the runs beyond its thresholds start, go on or break. -/
def Iso.read (i : Iso) (mv cyc : Nat) : Iso :=
  { i with vfield := mv / 10, okRun := runOf i.okRun (decide (16000 ≤ mv)) cyc, lowRun := runOf i.lowRun (decide (mv < 14000)) cyc }

/-- VFIELD_OK (17 R443): VFIELD reads `mv`; 10 ms at or above 16 V set VFOK, and each output commanded on switches on with a new
blanking. -/
def execVfieldOk (mv : Nat) (s : State) : Out :=
  .next (if s.sys.pwr ≠ .valid then s
  else
    let i := s.iso.read mv s.cyc
    if ranFor i.okRun (msCyc 10) s.cyc ∧ !i.vfok then
      let s := { s with iso := { i with vfok := true } }
      let s := (List.range 16).foldl (fun s n => if s.isoOn n then s.setIsoCh n { s.isoCh n with blank := some (s.cyc + usCyc 500) } else s) s
      s.condition 0x74 0 false
    else { s with iso := i })

/-- VFIELD_LOSS (17 R443): VFIELD reads `mv`; 100 us below 14 V clear VFOK: every output is off and keeps its commanded value. -/
def execVfieldLoss (mv : Nat) (s : State) : Out :=
  .next (if s.sys.pwr ≠ .valid then s
  else
    let i := s.iso.read mv s.cyc
    if ranFor i.lowRun (usCyc 100) s.cyc ∧ i.vfok then ({ s with iso := { i with vfok := false } }).condition 0x74 0 true
    else { s with iso := i })

/-- ISO_LINK_SILENT (17 R444): the barrier link has been silent for 20 us; every output is off with commanded value 0. -/
def execIsoLinkSilent (s : State) : Out :=
  .next (if s.iso.linkok then
    (({ s with iso := { s.iso with linkok := false } }).isoOff fun _ => true).condition 0x75 0 true else s)

/-- BARRIER_LINK_RETURN (17 R444): LINKOK is set again and the ISO_LINK condition ends. -/
def execBarrierLinkReturn (s : State) : Out :=
  .next (if s.sys.pwr ≠ .valid then s else ({ s with iso := { s.iso with linkok := true } }).condition 0x75 0 false)

/-- ISO_ORPHAN_TIMEOUT (17 R445): 100 ms after the detection every output still held switches off. -/
def execIsoOrphanTimeout (s : State) : Out :=
  .next (if s.iso.die.absentAt + msCyc 100 ≤ s.cyc then
    (List.range 16).foldl (fun s n =>
      if (s.isoCh n).hold then (let s := s.isoSet n false; s.setIsoCh n { s.isoCh n with hold := false }) else s) s
  else s)

/-- A debounced level accepted on an isolated channel (17 R421, R422). -/
def State.isoAccept (s : State) (n : Nat) (level : Bool) : State :=
  let x := s.isoCh n
  if x.mode = 3 ∨ x.filt = some level ∨ runDone 41 x.deb x.filtAt s.cyc = false then s
  else s.setIsoCh n { x with filt := some level, unset := false, filtAt := s.cyc,
                             tedge := if x.filt.isNone then x.tedge else s.isoNow - (debSamples 41 x.deb - 1) * 250 }

/-- INPUT_LEVEL_ACCEPT (17 R420 to R424, R434): a debounce run of TDEB completes on switch input `i` (kind 0), on input
`i` of the position counters (kind 1), or on isolated channel `i` (kind 2). -/
def execInputLevelAccept (kind i : Nat) (level : Bool) (s : State) : Out :=
  unitEvent (decide ((kind = 0 ∧ i < 48) ∨ (kind = 1 ∧ i < 12) ∨ (kind = 2 ∧ i < 16)))
    (if kind = 0 then s.swAccept i level else if kind = 1 then s.pcAccept i level else s.isoAccept i level)

/-- Fabric cycles after which an input that does not settle is UNSET (17 R427). -/
def unsetCyc (deb : Nat) : Nat := Nat.max (4 * debCyc 41 deb) (msCyc 1)

/-- INPUT_UNSET (17 R427): the samples of a switch input (kind 0) or an isolated channel (kind 2) have differed from the debounced state, without
an accepted change, for longer than the larger of 4 TDEB and 1 ms. -/
def execInputUnset (kind i : Nat) (s : State) : Out :=
  unitEvent (decide ((kind = 0 ∧ i < 48) ∨ (kind = 2 ∧ i < 16)))
    (if kind = 0 then
       (if s.live ∧ (s.sw i).conf ∧ (s.sw i).filtAt + unsetCyc (s.sw i).deb < s.cyc then s.setSw i { s.sw i with unset := true } else s)
     else if (s.isoCh i).mode ≠ 3 ∧ (s.isoCh i).filtAt + unsetCyc (s.isoCh i).deb < s.cyc then s.setIsoCh i { s.isoCh i with unset := true }
     else s)

/-- An extra sample (17 R429): stored in SMP, inverted where active low, with the trigger instant; false when the input is
not configured. Targets from 256 on are isolated channels. -/
def State.inSample (s : State) (t : Nat) (raw : Bool) (trig : Nat) : Bool × State :=
  if t < 256 then
    let x := s.sw t
    if x.conf then (true, s.setSw t { x with smp := raw != x.low, tsmp := trig % 2 ^ 32 }) else (false, s)
  else
    let x := s.isoCh (t - 256)
    if x.mode = 3 then (false, s) else (true, s.setIsoCh (t - 256) { x with smp := raw, tsmp := trig % 2 ^ 32 })

/-! ### Over a reset of the C-die (02 R47; 03 R60; log 62) -/

/-- A switch input: its settings stay with the front end, and VALUE at its level; its filter starts again. -/
def Sw.kept (x : Sw) (cyc : Nat) : Sw :=
  { conf := x.conf, wet := x.wet, deb := x.deb, wake := x.wake, low := x.low, maxAct := x.maxAct, chat := x.chat, win := x.win,
    value := x.value, unset := x.conf, actAt := cyc, winAt := cyc, filtAt := cyc, armed := x.armed, ref := x.ref, diff := x.diff }

/-- An analogue input keeps its assignment, a converter that it is configured. -/
def An.kept (x : An) : An := { conv := x.conv, deb := x.deb }
def Conv.kept (x : Conv) : Conv := { conf := x.conf, last := x.last }

/-- A position counter keeps its settings; its count and its filters start again. -/
def Pc.kept (x : Pc) (cyc : Nat) : Pc :=
  { conf := x.conf, mode := x.mode, deb := x.deb, zpre := x.zpre, preset := x.preset, aAt := cyc, bAt := cyc, zAt := cyc }

/-- The inputs: front ends on the M-die stay, the C-die filters are reset. -/
def Inp.kept (i : Inp) (cyc : Nat) : Inp :=
  { i with sw := i.sw.map fun (p : Nat × Sw) => (p.1, p.2.kept cyc), an := i.an.map fun (p : Nat × An) => (p.1, p.2.kept),
           conv := i.conv.map fun (p : Nat × Conv) => (p.1, p.2.kept), pc := i.pc.map fun (p : Nat × Pc) => (p.1, p.2.kept cyc) }

end Sys2Proof.Machine
end

