-- ==== Sys2Proof/Machine/Segments.lean ====
section
/-! DEFINITION. Waking a segment, and the Pennant exchange of sleep master and nodes (13 R331, R339 to R345). -/
namespace Sys2Proof.Machine
open Sys2Proof

/-- The LINK request that moves a segment of SP10 to SP15 to Normal (13 R331): an automatic move has ORIGIN 4, a command its own tag. -/
def State.askNormal (s : State) (g : Nat) (tag : Nat := 0) (origin : Nat := 4) : State :=
  if (s.seg g).handle ≠ noHandle then s
  else s.request { typ := 7, bud := 4, amount := 350, dur := 0xFFFFFFFF, tag := tag, origin := origin, client := .seg g } 0
    (fun s hd => s.setSeg g { s.seg g with handle := hd, retryLink := none }) id

/-- A segment in Standby or Sleep wakes (13 R339). -/
def State.wakeSeg (s : State) (g : Nat) (tag : Nat := 0) (origin : Nat := 4) : State :=
  if (s.seg g).xst < 2 then s
  else
    let s := { s with wake := { s.wake with wakeCnt := satAdd 32 s.wake.wakeCnt 1 } }
    if g < 16 then s.normal g else s.askNormal g tag origin

/-! ### Pennant frames -/

/-- TREADY, TCOMMIT, TRETRY of a segment in ms (13 R336). -/
def State.tready (s : State) (g : Nat) : Nat := byteAt (s.segRec g) 8
def State.tcommit (s : State) (g : Nat) : Nat := byteAt (s.segRec g) 9
def State.tretry (s : State) (g : Nat) : Nat := byteAt (s.segRec g) 11

/-- PENNANT, TXWAKE and WAKESRC of a segment entry (13 R336). -/
def State.pennant (s : State) (g : Nat) : Bool := bit (byteAt (s.segRec g) 0) 2
def State.txWake (s : State) (g : Nat) : Bool := bit (byteAt (s.segRec g) 0) 3
def State.wakeSrc (s : State) (g : Nat) : Bool := bit (byteAt (s.segRec g) 0) 0

/-- A Pennant frame of the master (13 R340): types 1 INDICATE, 3 COMMIT, 4 ABORT, 5 WAKE. -/
def State.penFrame (s : State) (g typ : Nat) : List Byte :=
  let x := s.seg g
  let b := fun n => BitVec.ofNat 8 n
  let r := s.segRec g
  if typ = 1 then [b 0x11, b x.seq, b (byteAt r 8), b x.tries, b (byteAt r 6), b (byteAt r 7), 0, 0]
  else if typ = 3 then [b 0x13, b x.seq, b (byteAt r 9), 0] ++ toLE 4 (x.commit / 256)
  else [b (0x10 + typ), b x.seq, 0, 0, 0, 0, 0, 0]

/-- What the start of frame of a Pennant frame sets (13 R342): the READY window, the commit point, the retry pause. -/
def State.penSof (s : State) (g typ : Nat) : State :=
  let x := s.seg g
  if typ = 1 then s.setSeg g { x with winAt := some (s.cyc + msCyc (s.tready g)) }
  else if typ = 3 then s.setSeg g { x with commit := s.now + s.tcommit g * 1000000, commitAt := some (s.cyc + msCyc (s.tcommit g)) }
  else if typ = 4 then s.setSeg g { x with retryAt := some (s.cyc + msCyc (s.tretry g)) }
  else s

/-- The commit point still lies ahead. -/
def State.beforeCommit (s : State) (g : Nat) : Bool :=
  match (s.seg g).commitAt with
  | none => true
  | some t => decide (s.cyc < t)

/-- An ABORT has ended (13 R344): one that ended before the commit point stands. -/
def State.penAbortEnd (s : State) (g : Nat) : State :=
  let x := s.seg g
  if x.pst = 2 ∧ x.abort ∧ s.beforeCommit g then s.setSeg g { x with pst := 3, abort := false, commitAt := none } else s

/-- The octets of a Pennant frame of the master on SP10 to SP15 (13 R341), its FCS included. -/
def State.penOctets (s : State) (g typ : Nat) : List Byte :=
  let b : List Byte := [0x03, 0, 0, 0, 0x50, 0x4E, 0x02, 0, 0, 0, 0x50, BitVec.ofNat 8 (segPort g), 0x88, 0xB5] ++ s.penFrame g typ ++ zeros 38
  b ++ toLE 4 (crc32 b)

/-- The master sends a Pennant frame: on CAN it waits in its controller, which outside normal mode cannot send (R343); on
SP10 to SP15 the port inserts it at once (13 R340, R341; log 18). -/
def State.sendPen (s : State) (g typ : Nat) : State :=
  if g < 8 then (if (s.ctl g).mode ≠ 1 then s else s.setCtl g { s.ctl g with pen := (s.ctl g).pen ++ [s.penFrame g typ] })
  else if g < 16 then s
  else
    let s := s.penSof g typ
    let s := s.setPort (segPort g) { s.port (segPort g) with last := s.penOctets g typ }
    if typ = 4 then s.penAbortEnd g else s

/-- A round starts (13 R342 step 1). A LIN segment has no round: its go-to-sleep frame waits for the next slot (R341). -/
def State.indicate (s : State) (g : Nat) : State :=
  let x := s.seg g
  let s := s.setSeg g { x with pst := 1, seq := (x.seq + 1) % 256, tries := x.tries + 1, ready := 0, winAt := none, retryAt := none,
                               abort := false, woken := false, commitAt := none }
  s.sendPen g 1

/-- The segment counts as asleep (13 R342). -/
def State.asleep (s : State) (g : Nat) : Bool := decide (2 ≤ (s.seg g).xst)

/-- The segments of an indication. -/
def Ind.segs (i : Ind) : List Nat := maskList 22 i.mask

/-- An indication that can end does (13 R343): OK once every named segment sleeps; TIMEOUT, once decided, when no
commit point is awaited. -/
def State.indCheck (s : State) : State :=
  let done := s.wake.ind.filter fun (i : Ind) => i.segs.all (fun g => s.asleep g) || (i.past && i.segs.all fun g => (s.seg g).pst != 2)
  let s := { s with wake := { s.wake with ind := s.wake.ind.filter fun (i : Ind) => !done.contains i } }
  let s := if done.isEmpty then s else s.syncWake
  done.foldl (fun s i =>
    let m := listMask (i.segs.filter fun g => s.asleep g)
    if i.segs.all fun g => s.asleep g then s.ok i.h m else s.fail i.h .timeout 0x10 m) s

/-- An indication is over without every segment asleep (13 R343): INDICATING segments send ABORT and stay in Normal. -/
def State.indOver (s : State) (i : Ind) : State :=
  let s := { s with wake := { s.wake with ind := s.wake.ind.map fun (j : Ind) => if j.h = i.h then { j with past := true } else j } }
  let s := i.segs.foldl (fun s g =>
    let x := s.seg g
    if x.pst = 1 then (s.sendPen g 4).setSeg g { (s.sendPen g 4).seg g with pst := 0, winAt := none, retryAt := none }
    else if x.pst = 3 then s.setSeg g { x with pst := 0, retryAt := none } else s) s
  s.indCheck

/-- After a round that failed, or that an ABORT ended: the command has used its attempts, or is over (13 R342, R343). -/
def State.roundChecked (s : State) (g : Nat) : State :=
  if (s.seg g).pst ≠ 3 then s
  else match s.wake.ind.find? fun i => !i.past && i.segs.contains g with
    | none => s.setSeg g { s.seg g with pst := 0 }
    | some i => if i.attempts ≤ (s.seg g).tries then s.indOver i else s

/-- A round has failed (13 R342, R343): the segment waits TRETRY, or its command has used its attempts. Where no ABORT can
be sent, TRETRY counts from now (log 18). -/
def State.roundFailed (s : State) (g : Nat) : State :=
  let mute := decide (g < 8) && (s.ctl g).mode != 1
  let s := s.setSeg g { s.seg g with pst := 3, winAt := none,
                                     retryAt := if mute then some (s.cyc + msCyc (s.tretry g)) else (s.seg g).retryAt }
  s.roundChecked g

/-- A wake event during an exchange (13 R344). -/
def State.segEvent (s : State) (g : Nat) : State :=
  let x := s.seg g
  let count := fun (s : State) => { s with wake := { s.wake with abortCnt := satAdd 32 s.wake.abortCnt 1 } }
  if x.pst = 1 then
    let s := (count s).sendPen g 4
    let s := if 8 ≤ g ∧ g < 16 then s.setSeg g { s.seg g with retryAt := some (s.cyc + msCyc (s.tretry g)) } else s
    s.roundFailed g
  else if x.pst = 2 then
    if !(decide (8 ≤ g) && decide (g < 16)) && s.beforeCommit g then
      (if x.abort then s else (((count s).setSeg g { x with abort := true }).sendPen g 4).roundChecked g)
    else s.setSeg g { x with woken := true, latch := true }
  else s

/-- A segment's own wake, a WAKE.XCVR to Normal or a pending frame with TXWAKE: it wakes a sleeping segment and is an
event during an exchange. -/
def State.segWake (s : State) (g : Nat) : State := if s.asleep g then s.wakeSeg g else s.segEvent g

/-- A latched wake ends module sleep (13 R335, R346): a segment's with WAKESRC, a T1 port's with PORTWAKE, and every other one. -/
def State.moduleWake (s : State) : Bool :=
  let m := s.wake.modLatch
  bits m 3 0 != 0 || bits m 13 12 != 0 || bits m 11 4 &&& byteAt s.wake.rcd 4 != 0 ||
    (List.range 22).any fun g => (s.seg g).latch && s.wakeSrc g

/-- The start condition of a wake (03 R57, R62; 13 R334): the rails start, and every INH output is driven again. -/
def State.wakeStart (s : State) : State :=
  { s with sys := { s.sys with pwr := .starting, boot := 0, nextCause := 6, nextFull := false, resetAt := s.cyc }
           wake := { s.wake with phase := 0, level := 0xF, inhOff := false } }

/-- A wake that module sleep sees ends it where it may (13 R346). -/
def State.sleepEnds (s : State) : State := if s.wake.phase = 3 ∧ s.moduleWake then s.wakeStart else s

/-- The module is awake and its segments are served (03 R62; 13 R346). -/
def State.servesWakes (s : State) : Bool := decide (5 ≤ s.sys.boot) && s.wake.phase == 0

/-- A sleeping segment's own wake is detected (13 R337 to R339): its latch bit sets; it wakes the segment while the module serves wakes, and
may end module sleep. -/
def State.wokenSeg (s : State) (g : Nat) : State :=
  let s := s.setSeg g { s.seg g with latch := true }
  if s.servesWakes then s.segWake g else s.sleepEnds

end Sys2Proof.Machine
end

