-- ==== Sys2Proof/Machine/Can.lean ====
section
/-! DEFINITION. CAN controllers and CAN and LIN objects: records, modes, error states, objects, protected identifiers and the
time master (12 R297 to R319; 05 R121). -/
namespace Sys2Proof.Machine
open Sys2Proof

/-! ### The controller record -/

/-- One prescaler and its segments lie within their ranges (12 R300). -/
def phaseOK (brp t1 t2 sjw mb m1 m2 : Nat) : Bool :=
  decide (1 ≤ brp ∧ brp ≤ mb ∧ 1 ≤ t1 ∧ t1 ≤ m1 ∧ 1 ≤ t2 ∧ t2 ≤ m2 ∧ 1 ≤ sjw ∧ sjw ≤ t2)

/-- Kernel clocks of a bit (12 R299). -/
def bitClocks (brp t1 t2 : Nat) : Nat := brp * (1 + t1 + t2)

/-- FD and XL of a controller record (12 R300). -/
def fdOn (r : List Byte) : Bool := bit (byteAt r 1) 0
def xlOn (r : List Byte) : Bool := bit (byteAt r 1) 1
/-- ONESHOT of a controller record. -/
def oneShot (r : List Byte) : Bool := bit (byteAt r 1) 2

/-- A field of the controller record lies outside its range (12 R300, R301). -/
def ctlRange (r : List Byte) : Bool :=
  let b := byteAt r
  b 0 != 1 || !(decide (2 ≤ le r 4 2) && decide (2 ≤ b 6) && phaseOK (le r 2 2) (le r 4 2) (b 6) (b 7) 256 256 128) ||
    (fdOn r && !phaseOK (b 8) (b 9) (b 10) (b 11) 32 64 32) || (xlOn r && !phaseOK (b 12) (b 13) (b 14) (b 15) 32 64 32) ||
    decide (127 < b 16) || decide (127 < b 17) || decide (60000 < le r 18 2)

/-- A combination of the controller record is not allowed (12 R297, R301; log 17 for XL without XLFAST). -/
def ctlMix (c : Nat) (r : List Byte) : Bool :=
  let b := byteAt r
  let d := bitClocks (le r 2 2) (le r 4 2) (b 6)
  let df := bitClocks (b 8) (b 9) (b 10)
  let dx := bitClocks (b 12) (b 13) (b 14)
  let fast := bit (b 1) 5
  decide (d < 80 ∨ 1600 < d) || (fdOn r && decide (d < df ∨ df < 10)) ||
    (xlOn r && decide (d < dx ∨ dx < (if fast then 8 else 10))) || (decide (8 ≤ c) && xlOn r && !fast) ||
    (decide (8 ≤ c) && bit (b 1) 4) || (!fdOn r && !allZero (slice r 8 4)) || (!xlOn r && !allZero (slice r 12 4))

/-- CAN.CTRL (05 R121; 12 R300, R301). -/
def execCanCtrl (h : Hdr) (addr len ctrl : Nat) (s : State) : Out :=
  fwCmd h s (s.withDesc h addr len [noEpoch h, bp (decide (11 < ctrl)) 0x11, t01 h] (decide (len = 64)) fun r s =>
    s.guarded h [bp (decide (64 ≤ byteAt r 1) || !allZero (r.drop 20)) 0x01, bp (ctlRange r) 0x12, bp (ctlMix ctrl r) 0x13, s.gated (ctlGate ctrl),
                 bst (decide ((s.ctl ctrl).mode ≠ 0)) 0x10]
      ((s.setCtl ctrl { s.ctl ctrl with rcd := r }).ok h))

/-! ### Modes and error states -/

/-- Every pending transmit object of a controller is cancelled (12 R302, R304, R310). -/
def State.cancelTx (s : State) (c : Nat) : State :=
  (s.objsOf c true).foldl (fun s (p : Nat × CObj) =>
    if p.2.st = 1 then (s.setCobj p.1 { p.2 with st := 0, h := none, built := none }).txFails p.2.h .badState 0x16 0 else s) s

/-- The error-active, error-passive and bus-off states of ISO 11898-1 (12 R303), and their fault sources (R305). -/
def State.updErr (s : State) (c : Nat) : State :=
  let x := s.ctl c
  let e := if x.err = 2 ∨ 255 < x.tec then 2 else if 127 < x.tec ∨ 127 < x.recv then 1 else 0
  let s := s.setCtl c { x with err := e, boffAt := if e = 2 ∧ x.err ≠ 2 then s.cyc else x.boffAt,
                               errs := if e = 2 ∧ x.err ≠ 2 then bump 16 x.errs 6 else x.errs }
  (s.condition 0x50 c (e == 1)).condition 0x51 c (e == 2)

/-- Bus-off, its counters and its recovery end (12 R303). -/
def State.endBusOff (s : State) (c : Nat) : State :=
  (s.setCtl c { s.ctl c with err := 0, tec := 0, recv := 0, recov := false }).updErr c

/-- A controller enters a mode (12 R302): leaving normal mode cancels what is pending; configuration mode resets the
error counters; bus-off ends. Every CAN.MODE that waits completes with OK, one that named an earlier mode too: the spec gives no outcome
for it (DESIGN CHOICE, log 61). -/
def State.enterMode (s : State) (c m : Nat) : State :=
  let x := s.ctl c
  let s := if x.mode = 1 ∧ m ≠ 1 then s.cancelTx c else s
  let s := if x.err = 2 ∨ m = 0 then s.endBusOff c else s
  let y := s.ctl c
  let s := s.setCtl c { y with mode := m, want := none, wantH := [], integ := false }
  y.wantH.foldl (fun s h => s.ok h) s

/-- The CAN commands that wait for a mode end without it. -/
def State.dropWant (s : State) (c : Nat) : State :=
  let x := s.ctl c
  x.wantH.foldl (fun s h => s.fail h .badState 0x11) (s.setCtl c { x with want := none, wantH := [], integ := if x.mode = 0 then false else x.integ })

/-- A fault reaction or device safe state stands on controller `c`, 0 to 11 CAN and 12 to 19 LIN (21 R522, R524). -/
def State.canHeld (s : State) (c : Nat) : Bool :=
  s.flt.safe || s.flt.holds.any fun (p : Nat × Nat) => decide (0x50 ≤ p.1) && decide (p.1 ≤ 0x54) && p.2 == c

/-- A fault reaction reaches controller `c` (12 R304, R324): normal mode becomes restricted operation, after the frame in
progress, and any other mode is kept; the mode held on entry is kept in mind; publish slots of a LIN commander fall silent. A mode change on its way other than to restricted operation ends
with BAD_STATE 0x11. -/
def State.holdCan (s : State) (c : Nat) : State :=
  if 12 ≤ c then (if c < 20 then s.setLin (c - 12) { s.lin (c - 12) with hold := true } else s)
  else
    let s := if (s.ctl c).want = none ∨ (s.ctl c).want = some 2 then s else s.dropWant c
    let x := s.ctl c
    if x.mode ≠ 1 then s.setCtl c { x with back := x.back.or (some x.mode) }
    else
      let s := s.setCtl c { x with back := x.back.or (some 1), want := some 2 }
      if x.err = 2 then s.enterMode c 2 else s

/-- A fault reaction leaves controller `c` (12 R304, R324; 21 R522): where nothing else holds it, it returns to the mode
it held on entry, through bus integration. -/
def State.unholdCan (s : State) (c : Nat) : State :=
  if s.canHeld c then s
  else if 12 ≤ c then (if c < 20 then s.setLin (c - 12) { s.lin (c - 12) with hold := false } else s)
  else
    let x := s.ctl c
    match x.back with
    | none => s
    | some m =>
      if x.mode = m then
        x.wantH.foldl (fun s h => s.ok h) (s.setCtl c { x with back := none, want := none, wantH := [] })
      else if m = 0 then (s.setCtl c { x with back := none }).enterMode c 0
      else s.setCtl c { x with back := none, want := some m, integ := true }

/-- CAN.MODE (05 R121; 12 R302 to R304). One that has to wait writes ACCEPTED (04 R98). From configuration, and on return from a hold, bus integration comes first
(CAN_BUS_INTEGRATION); out of normal mode, the end of any frame in progress (CAN_MODE_FRAME_END). -/
def execCanMode (h : Hdr) (ctrl mode : Nat) (s : State) : Out :=
  let x := s.ctl ctrl
  fwCmd h s (s.guarded h
    [noEpoch h, bp (decide (11 < ctrl)) 0x11, t01 h, bp (decide (3 < mode)) 0x12,
     s.gated (ctlGate ctrl), bst (s.canHeld ctrl && decide (mode ≠ 2)) 0x11, bst (decide (mode ≠ 0 ∧ byteAt x.rcd 0 ≠ 1)) 0x1A]
    (if x.mode = mode ∧ x.want = none then
       (if mode = 1 ∧ x.err = 2 then (s.setCtl ctrl { x with recov := true }).ok h else s.ok h)
     else if x.mode = mode then
       x.wantH.foldl (fun s g => s.ok g) ((s.setCtl ctrl { x with want := none, wantH := [], integ := false }).ok h)
     else if x.mode = 0 then
       (s.setCtl ctrl { x with want := some mode, wantH := x.wantH ++ [h], integ := true }).waits h
     else if x.mode = 1 ∧ x.err ≠ 2 then
       (s.setCtl ctrl { x with want := some mode, wantH := x.wantH ++ [h] }).waits h
     else (s.enterMode ctrl mode).ok h))

/-- CAN_BUS_INTEGRATION (12 R302; 13 R331, R332): eleven consecutive recessive bits; the mode on its way takes effect. -/
def execCanBusIntegration (c : Nat) (s : State) : Out :=
  unitEvent (decide (c < 12))
    (let x := s.ctl c
     if !x.integ || (decide (c < 8) && decide (2 ≤ (s.seg c).xst) && x.mode != 0) then s
     else match x.want with
       | some m => if x.mode = 1 then s.setCtl c { x with integ := false } else s.enterMode c m
       | none => s.setCtl c { x with integ := false })

/-- CAN_MODE_FRAME_END (12 R302, R304): no frame is in progress, and a change out of normal mode takes effect. -/
def execCanModeFrameEnd (c : Nat) (s : State) : Out :=
  unitEvent (decide (c < 12))
    (let x := s.ctl c
     match x.want with
     | some m => if x.mode = 1 ∧ x.tx = none then s.enterMode c m else s
     | none => s)

/-- CAN_BUSOFF_RECOVERY_START (12 R303): BOFFREC ms have passed since bus-off was entered. -/
def execCanBusoffRecoveryStart (c : Nat) (s : State) : Out :=
  unitEvent (decide (c < 12))
    (let x := s.ctl c
     let ms := le x.rcd 18 2
     if x.mode = 1 ∧ x.err = 2 ∧ ms ≠ 0 ∧ x.boffAt + msCyc ms ≤ s.cyc then s.setCtl c { x with recov := true } else s)

/-- CAN_BUSOFF_RECOVERY_END (12 R303): 128 occurrences of eleven consecutive recessive bits. -/
def execCanBusoffRecoveryEnd (c : Nat) (s : State) : Out :=
  unitEvent (decide (c < 12)) (if (s.ctl c).mode = 1 ∧ (s.ctl c).err = 2 ∧ (s.ctl c).recov then s.endBusOff c else s)

/-! ### Objects -/

/-- The frame format is allowed in a controller record (12 R306). -/
def fmtAllowed (r : List Byte) (fmt : Nat) : Bool := fmt == 0 || (fmt == 1 && fdOn r) || (fmt == 2 && xlOn r)

/-- A data length the format can carry (12 R298). -/
def lenValid (fmt n : Nat) : Bool :=
  if fmt = 0 then decide (n ≤ 8)
  else if fmt = 1 then decide (n ≤ 8) || ([12, 16, 20, 24, 32, 48, 64] : List Nat).contains n
  else decide (1 ≤ n ∧ n ≤ 2048)

/-- The smallest data length of the format that holds `n` bytes. -/
def lenFit (fmt n : Nat) : Option Nat :=
  if fmt = 0 then (if n ≤ 8 then some n else none)
  else if fmt = 1 then (if n ≤ 8 then some n else ([12, 16, 20, 24, 32, 48, 64] : List Nat).find? fun m => decide (n ≤ m))
  else if n ≤ 2048 then some (Nat.max n 1) else none

/-- A segment's Pennant identifiers on CAN (13 R336): PID_M and PID_N to PID_N + 15. -/
def State.pennantId (s : State) (c id : Nat) : Bool :=
  let r := s.segRec c
  decide (c < 8) && bit (byteAt r 0) 2 && (id == le r 2 2 || (decide (le r 4 2 ≤ id) && decide (id ≤ le r 4 2 + 15)))

/-- CAN.OBJ's fields breach 12 R306. -/
def State.objMix (s : State) (fmt enable id ctrl : Nat) : Bool :=
  decide (1 < enable) ||
    (if ctrl < 12 then !fmtAllowed (s.ctl ctrl).rcd fmt || (fmt == 2 && decide (0x800 ≤ id)) else fmt != 0 || decide (63 < id))

/-- A classical or FD identifier whose bits [30:29] are set, or a base identifier above 11 bits (05 R121; log 17). -/
def badCanId (id : Nat) : Bool := bits id 30 29 != 0 || (!bit id 31 && decide (0x800 ≤ id))

/-- CAN.OBJ (05 R121; 12 R306, R311, R312). One that changes only the controller counts as a change of identifier: R311 does not name the
controller, but an identifier is held of its controller (DESIGN CHOICE, log 61). -/
def execCanObj (h : Hdr) (obj fmt enable id ctrl : Nat) (s : State) : Out :=
  let x := s.cobj obj
  let tx := decide (2048 ≤ obj)
  let held := (s.objsOf ctrl tx).any fun (p : Nat × CObj) => p.1 != obj && p.2.id == id
  let tm := tx && decide (ctrl < 12) && (s.ctl ctrl).tm && (s.ctl ctrl).tmId == id
  fwCmd h s (s.guarded h
    [bp (decide (2559 < obj ∨ 19 < ctrl)) 0x11, den (decide (s.objOwner obj ≠ h.ring)) 0x01, role h x.epoch,
     bp (decide (ctrl < 12 ∧ fmt < 2) && badCanId id) 0x12, bp (s.objMix fmt enable id ctrl) 0x13, s.gated (ctlGate ctrl), bst (held || tm) 0x12, bst (tx && s.pennantId ctrl id) 0x15]
    (if x.conf && x.fmt == fmt && x.id == id && x.ctrl == ctrl then (s.setCobj obj { x with en := enable == 1 }).ok h x.epoch
     else if x.st = 2 then
       (s.setCobj obj { x with role := x.role ++ [{ h := h, fmt := fmt, id := id, ctrl := ctrl, en := enable == 1 }] }).waits h
     else
       let s := s.newRole obj true (enable == 1) fmt id ctrl
       s.ok h (s.cobj obj).epoch))

/-- The protection of an identifier of a controller (12 R316). -/
def State.protOf (s : State) (c id : Nat) : Option Prot := s.can.prot.find? fun p => p.ctrl == c && p.id == id

/-- Data come to a transmit object (12 R310, R323): on CAN it becomes PENDING, the later data replacing pending ones and
waiting behind an active frame; on LIN they wait for the frame's slot. TXWAKE wakes the segment (13 R339). -/
def State.queueTx (s : State) (o : Nat) (h : Option Hdr) (data xl : List Byte) : State :=
  let x := s.cobj o
  if 12 ≤ x.ctrl then s.setCobj o { x with data := data, len := data.length, unsent := true, at_ := s.cyc }
  else if x.st = 2 then
    let s := s.setCobj o { x with later := some (h, data, xl) }
    match x.later with
    | some (g, _, _) => s.txEnds g 2 0 s.now
    | none => s
  else
    let s := if x.st = 1 then s.txEnds x.h 2 x.retr s.now else s
    let s := s.setCobj o { x with st := 1, h := h, data := data, xl := xl, len := data.length, retr := 0, built := none, at_ := s.cyc,
                                  auth := (s.protOf x.ctrl x.id).isSome }
    if x.ctrl < 8 ∧ s.txWake x.ctrl then s.segWake x.ctrl else s

/-- Data field and XL control bytes of the data given to an object (12 R310). -/
def State.txSplit (s : State) (obj : Nat) (d : List Byte) : List Byte × List Byte :=
  let x := s.cobj obj
  if x.conf && x.fmt == 2 then (d.drop 8, d.take 8) else (d, zeros 8)

/-- The checks of the data and of the controller a CAN.TX meets (12 R310, R318, R323). -/
def State.txChecks (s : State) (obj : Nat) (d : List Byte) : List Chk :=
  let x := s.cobj obj
  let isXl := x.conf && x.fmt == 2
  let (data, xl) := s.txSplit obj d
  let lin := decide (12 ≤ x.ctrl)
  let p := if lin then none else s.protOf x.ctrl x.id
  let fits := match p with
    | none => true
    | some p => (lenFit x.fmt (data.length + 1 + p.maclen)).isSome
  let okLen := if lin then decide (1 ≤ data.length ∧ data.length ≤ 8)
               else (p.isSome || lenValid x.fmt data.length) && (!isXl || decide (9 ≤ d.length))
  [bp (isXl && (decide (1 < byteAt xl 2) || byteAt xl 3 != 0)) 0x01, bp (x.conf && !okLen) 0x12, bp (x.conf && !fits) 0x13,
   bst (x.conf && s.shutGate (ctlGate x.ctrl)) 0x1F, bst (!x.conf || (!lin && (s.ctl x.ctrl).mode != 1)) 0x13]

/-- The effect of CAN.TX on the data given (12 R310, R318, R323). -/
def State.canTx (s : State) (h : Hdr) (obj : Nat) (d : List Byte) : State :=
  let (data, xl) := s.txSplit obj d
  s.guarded h (s.txChecks obj d)
    (if 12 ≤ (s.cobj obj).ctrl then (s.queueTx obj (some h) data xl).ok h 3 else (s.accepted h 0x01).queueTx obj (some h) data xl)

/-- CAN.TX (05 R121; 12 R310, R312). -/
def execCanTx (h : Hdr) (obj : Nat) (desc : Bool) (addr len : Nat) (data : List Byte) (s : State) : Out :=
  let pre := [bp (decide (obj < 2048 ∨ 2559 < obj)) 0x11, den (decide (s.objOwner obj ≠ h.ring)) 0x01, role h (s.cobj obj).epoch]
  fwCmd h s (if desc then s.withDesc h addr len pre true fun r s => s.canTx h obj r
             else s.guarded h (pre ++ [bp (decide (48 < data.length)) 0x12]) (s.canTx h obj data))

/-! ### Protected identifiers and the time master -/

/-- Where freshness counters resume (12 R317): the saved transmit value plus 256, the saved receive value. -/
def State.savedFresh (s : State) (c id : Nat) : Nat × Nat :=
  match look? s.can.saved (c * 2 ^ 32 + id) with
  | some (t, r) => (t + 256, r)
  | none => (0, 0)

/-- CAN.AUTH (05 R121; 12 R316; 19 R487, R490). Releasing an identifier that is not protected completes with OK: the spec gives no outcome
(DESIGN CHOICE, log 61). -/
def execCanAuth (h : Hdr) (ctrl op id locket maclen : Nat) (s : State) : Out :=
  let s' := if op = 0 ∧ locket < 128 then s.checkSlot locket else s
  let found := s.protOf ctrl id
  let (t, r) := s.savedFresh ctrl id
  fwCmd h s (match firstBad
    [noEpoch h, bp (decide (19 < ctrl ∨ 127 < locket)) 0x11, t01 h, den (decide (op = 0 ∧ s.owner 10 locket ≠ h.ring)) 0x01,
     bp (decide (1 < op) || badCanId id || decide (op = 0 ∧ (maclen < 4 ∨ 16 < maclen))) 0x12, bp (decide (12 ≤ ctrl)) 0x13] with
    | some (st, d, x) => s.fail h st d x
    | none =>
      if op = 1 then
        (({ s with can := { s.can with prot := s.can.prot.filter fun p => !(p.ctrl == ctrl && p.id == id) } }).freeHandle
          ((found.map fun (p : Prot) => p.handle).getD noHandle)).settle.ok h
      else s'.guarded h
        [bst (!s.codeOk locket) 0x14, bst (decide (s.ktype locket ≠ 2 ∨ byteAt (s.slot0 locket) 1 % 4 ≠ 3)) 0x19,
         bst (found.isNone && decide (256 ≤ s.can.prot.length)) 0x18]
        (let p : Prot := { (found.getD { txc := t, rxc := r, savedT := t - 256, savedR := r }) with
                             ctrl := ctrl, id := id, locket := locket, key := slice (s.slot0 locket) 16 32, maclen := maclen }
         let rest := s.can.prot.filter fun q => !(q.ctrl == ctrl && q.id == id)
         ({ s' with can := { s'.can with prot := rest ++ [p] } }).ok h))

/-- CAN.TMASTER (05 R121; 12 R314). Switching it off asks for no more than the entry's owner (log 17). -/
def execCanTmaster (h : Hdr) (ctrl enable entry id : Nat) (s : State) : Out :=
  let e := s.sent entry
  let held := (s.objsOf ctrl true).any fun (p : Nat × CObj) => p.2.id == id
  fwCmd h s (s.guarded h
    [noEpoch h, bp (decide (11 < ctrl ∨ 1023 < entry)) 0x11, t01 h, den (decide (s.owner 9 entry ≠ h.ring)) 0x01,
     bp (decide (1 < enable) || badCanId id) 0x12,
     bp (decide (enable = 1) && !(decide (e.st ≠ 0) && e.action == 6 && e.target == ctrl)) 0x13, s.gated (ctlGate ctrl), bst (decide (enable = 1) && held) 0x12]
    (let x := s.ctl ctrl
     (s.setCtl ctrl (if enable = 1 then { x with tm := true, tmEnt := entry, tmId := id }
                     else { x with tm := false, refQ := none })).ok h))

/-- A CAN_REF firing of entry `n` on controller `c` (06 R152; 12 R314): one reference message is queued; one still queued
from before is abandoned. Reference messages are sent only in normal mode (R302), so no other mode permits the firing (06 R154). Whether
it is applied. -/
def State.canRef (s : State) (n c : Nat) (trigCyc : Nat) : Bool × State :=
  let x := s.ctl c
  if c < 12 ∧ x.tm ∧ x.tmEnt = n ∧ x.mode = 1 ∧ s.cut (ctlGate c) = false then
    (true, s.setCtl c { x with refMiss := if x.refQ.isSome then satAdd 16 x.refMiss 1 else x.refMiss, refQ := some trigCyc, refBeg := false })
  else (false, s)

/-- CAN_REFMSG_TIMEOUT (12 R314): the queued reference message has not started within 10 ms of its trigger. -/
def execCanRefmsgTimeout (c : Nat) (s : State) : Out :=
  unitEvent (decide (c < 12))
    (let x := s.ctl c
     match x.refQ with
     | some t => if !x.refBeg ∧ t + msCyc 10 ≤ s.cyc then s.setCtl c { x with refQ := none, refMiss := satAdd 16 x.refMiss 1 } else s
     | none => s)

/-- FRESHNESS_SAVE (12 R317): protected identifier `i` has a save due; the MP asks for its NVM leave, and saves both counters
once it holds it. -/
def execFreshnessSave (i : Nat) (s : State) : Out :=
  .next (match s.can.prot[i]? with
    | none => s
    | some p =>
      let setP := fun (s : State) (q : Prot) => { s with can := { s.can with prot := s.can.prot.set i q } }
      if !s.mpUp || !p.due then s
      else if p.granted then
        let s := setP s { p with due := false, asked := false, granted := false, handle := noHandle, savedT := p.txc, savedR := p.rxc }
        (({ s with can := { s.can with saved := put s.can.saved (p.ctrl * 2 ^ 32 + p.id) (p.txc, p.rxc) } }).freeHandle p.handle).settle
      else if p.asked then s
      else (setP s { p with asked := true }).requestInternal 3 300 0 (.fresh (p.ctrl * 2 ^ 32 + p.id)) fun s hd =>
        { s with can := { s.can with prot := s.can.prot.modify i fun q => { q with handle := hd } } })

end Sys2Proof.Machine
end

