-- ==== Sys2Proof/Machine/CanBus.lean ====
section
/-! DEFINITION. What happens on a CAN bus: frames received and sent, errors, the ingress of the frame bridge, and the copies on
their way to a destination (12 R303 to R319; 14 R355 to R363). -/
namespace Sys2Proof.Machine
open Sys2Proof

/-! ### The frame bridge's ends and counters -/

/-- A route entry. -/
def State.route (s : State) (e : Nat) : Route := look (fun _ => {}) s.brg.route e

/-- A route entry changed. -/
def State.setRoute (s : State) (e : Nat) (x : Route) : State := { s with brg := { s.brg with route := put s.brg.route e x } }

/-- A device counter of the bridge, by its register offset / 4 (14 R365). -/
def State.brgCnt (s : State) (k : Nat) : State := { s with brg := { s.brg with cnt := bump 32 s.brg.cnt k } }

/-- A copy of entry `e` is dropped under counter `k` (14 R356 to R365). -/
def State.dropCopy (s : State) (e k : Nat) : State :=
  (s.setRoute e { s.route e with drop := satAdd 32 (s.route e).drop 1 }).brgCnt k

/-- A copy of entry `e` is delivered (14 R365). -/
def State.delivered (s : State) (e : Nat) : State :=
  let s := s.setRoute e { s.route e with fwd := satAdd 32 (s.route e).fwd 1 }
  { s with brg := { s.brg with fwd := (s.brg.fwd + 1) % 2 ^ 32 } }

/-- The tag owns the object of controller `c` and direction that holds `id` (14 R353). -/
def State.ownsObj (s : State) (tag c id : Nat) (tx : Bool) : Bool :=
  (s.objsOf c tx).any fun (p : Nat × CObj) => p.2.id == id && s.objOwner p.1 == tag

/-- The route owner owns an end (14 R353): `d` 0 to 11 CAN, 12 to 19 LIN, 20 Ethernet. -/
def State.endOwned (s : State) (tag d id vid : Nat) (dest : Bool) : Bool :=
  if d < 12 then decide (tag ≤ 1) || s.ownsObj tag d id dest
  else if d < 20 then s.owner 6 (d - 12) == tag
  else s.owner 7 vid == tag

/-- MAXAGE of a route in cycles (14 R351). -/
def Route.maxAge (r : Route) : Nat := msCyc (if byteAt r.rcd 11 = 0 then 20 else byteAt r.rcd 11)

/-- The source time of a copy plus MAXAGE has passed (14 R359). -/
def State.aged (s : State) (c : Rtd) : Bool := decide (c.src + (s.route c.entry).maxAge * 5 / 2 ≤ s.now)

/-- What drops a routed copy for destination `d` (14 R359): the counter, if any. -/
def State.copyBad (s : State) (c : Rtd) (d : Nat) : Option Nat :=
  let r := s.route c.entry
  if r.epoch ≠ c.epoch then some 3
  else if !s.endOwned (s.owner 8 c.entry) d c.frame.id (le r.rcd 14 2 % 4096) true then some 4
  else if s.aged c then some 8
  else if d < 20 ∧ s.cut (ctlGate d) then some 9
  else if d < 12 ∧ (s.ctl d).mode ≠ 1 then some 9
  else none

/-- Routed copies that reach MAXAGE while bus-off or Listen-only keeps them queued leave the queue (14 R359). -/
def State.ageRouted (s : State) (c : Nat) : State :=
  let x := s.ctl c
  if x.routed.isEmpty || !(x.err == 2 || (decide (c < 8) && (s.seg c).xst == 1)) then s
  else
    (x.routed.filter fun r => s.aged r).foldl (fun s (r : Rtd) => s.dropCopy r.entry 8)
      (s.setCtl c { x with routed := x.routed.filter fun r => !s.aged r })

/-- A frame is offered to the bridge (14 R355, R356): queue 0 to 11 CAN, 12 to 19 LIN, 20 SP19. -/
def State.offer (s : State) (q : Nat) (f : InF) : State :=
  let l := look (fun _ => []) s.brg.inq q
  if 32 ≤ l.length then s.brgCnt 11 else { s with brg := { s.brg with inq := put s.brg.inq q (l ++ [f]) } }

/-! ### Receiving -/

/-- A frame a CAN bus can carry (12 R298). -/
def validFrame (f : CanFrame) : Bool :=
  decide (f.fmt ≤ 2) && lenValid f.fmt f.data.length && bits f.id 30 29 == 0 && decide (f.id < 2 ^ 32) &&
    (bit f.id 31 || decide (f.id < 0x800)) && (!f.rtr || f.fmt == 0)

/-- A segment of CAN0 to CAN7 that sleeps with wake on a wake-up frame (13 R336, R337). -/
def State.selWake (s : State) (c : Nat) : Bool :=
  decide (c < 8) && s.asleep c && bit (byteAt (s.segRec c) 0) 1 && s.sys.pwr != .off

/-- The frame is the wake-up frame of the segment (13 R337): a classical frame whose identifier matches under WUFMASK, with the DLC where it
must match, and a set bit in common with WUFDATA unless that is zero. -/
def State.wakeUpFrame (s : State) (c : Nat) (f : CanFrame) : Bool :=
  let r := s.segRec c
  let dlc := byteAt r 20
  let mask := slice r 24 8
  f.fmt == 0 && (f.id ^^^ le r 12 4) &&& le r 16 4 == 0 && (!bit dlc 4 || f.data.length == Nat.min 8 (dlc % 16)) &&
    (allZero mask || (List.zipWith (· &&& ·) f.data mask).any fun b => b != 0)

/-- A Pennant frame of a CAN segment (13 R340). -/
def State.isPennant (s : State) (c : Nat) (f : CanFrame) : Bool := f.fmt == 0 && !f.rtr && f.data.length == 8 && s.pennantId c f.id

/-- A frame is stored in a receive object, as one update (12 R308). -/
def State.storeObj (s : State) (o : Nat) (f : CanFrame) (data : List Byte) (len : Nat) (auth : Bool) (t : Nat) : State :=
  let x := s.cobj o
  let s := if x.new && decide (x.ctrl < 12) then s.setCtl x.ctrl { s.ctl x.ctrl with lost := satAdd 16 (s.ctl x.ctrl).lost 1 } else s
  s.setCobj o { x with data := data.take 64, len := len, xl := f.xl, brs := f.brs, esi := f.esi, auth := auth, time := t,
                       cnt := (x.cnt + 1) % 65536, new := true, lost := x.lost || x.new, trunc := decide (64 < data.length), at_ := s.cyc }

/-- CMAC input of a protected frame (12 R318). -/
def macInput (id ctr : Nat) (body : List Byte) : List Byte := toLE 4 id ++ toLE 4 ctr ++ body

/-- The candidate counter of a received protected frame (12 R319). -/
def candidate (last fv : Nat) : Nat :=
  let c := last / 256 * 256 + fv
  (if c ≤ last then c + 256 else c) % 2 ^ 32

/-- CAN_AUTH_VERIFY (12 R319): the accepted counter, and the length of payload and padding. -/
def Prot.verify (p : Prot) (f : CanFrame) : Option (Nat × Nat) :=
  let n := f.data.length
  if n < 1 + p.maclen then none
  else
    let body := f.data.take (n - 1 - p.maclen)
    let c := candidate p.rxc (byteAt f.data (n - 1 - p.maclen))
    if (aesCmac p.key (macInput p.id c body)).take p.maclen = f.data.drop (n - p.maclen) then some (c, body.length) else none

/-- The controller takes part in the bus (12 R302; 13 R332; 18 R464): not cut, integrated, and its segment in Normal or Listen-only. -/
def State.onBus (s : State) (c : Nat) : Bool :=
  (s.ctl c).mode != 0 && !s.cut (ctlGate c) && !(s.ctl c).integ && (decide (8 ≤ c) || decide ((s.seg c).xst ≤ 1))

/-- Error counters count (12 R302; 13 R332): normal mode, segment not in Listen-only. -/
def State.counts (s : State) (c : Nat) : Bool := (s.ctl c).mode == 1 && (decide (8 ≤ c) || (s.seg c).xst == 0)

/-- A frame that carries no protection, or has passed verification, is matched and offered (12 R307; 14 R355). -/
def State.matchFrame (s : State) (c : Nat) (f : CanFrame) (auth : Option Nat) (t : Nat) : State :=
  let hit := (s.objsOf c false).find? fun (p : Nat × CObj) => p.2.en && p.2.id == f.id
  let s := match hit with
    | none => s
    | some (o, x) =>
      if f.rtr then s
      else if x.fmt ≠ f.fmt then s.setCtl c { s.ctl c with fmtMiss := satAdd 16 (s.ctl c).fmtMiss 1 }
      else
        let n := auth.getD f.data.length
        s.storeObj o f (f.data.take n) n auth.isSome t
  s.offer c { fmt := f.fmt, frame := f, time := t }

/-- CAN_FRAME_RECEIVE (12 R307, R308, R319; 13 R337, R344; 14 R355): a valid frame ends on the bus of controller `c`; its start-of-frame bit
was sampled `ago` fabric cycles before (RXTIME). The receive error counter falls as ISO 11898-1 states (log 19). On a segment that sleeps
under SELWAKE it may be the wake-up frame. -/
def execCanFrameReceive (c : Nat) (frame : CanFrame) (ago : Nat) (s : State) : Out :=
  unitEvent (decide (c < 12))
    (if s.selWake c then (if validFrame frame && s.wakeUpFrame c frame then s.wokenSeg c else s)
     else if !s.live || !s.onBus c || !validFrame frame then s
     else
       let x := s.ctl c
       let t := s.now - ago * 5 / 2
       let (k, s) := s.draw
       let recv := if !s.counts c then x.recv else if 127 < x.recv then 119 + k % 9 else x.recv - 1
       let s := (s.setCtl c { x with rxfrm := (x.rxfrm + 1) % 2 ^ 32, recv := recv }).updErr c
       let s := if c < 8 ∧ !s.isPennant c frame then s.segEvent c else s
       match (if frame.rtr then none else s.protOf c frame.id) with
       | none => s.matchFrame c frame none t
       | some p =>
         match p.verify frame with
         | none => (s.setCtl c { s.ctl c with authFail := satAdd 16 (s.ctl c).authFail 1 }).raise 0x52 c
         | some (n, len) =>
           let q := { p with rxc := n, due := p.due || n / 256 != p.rxc / 256 }
           let l := s.can.prot.map fun r => if r.ctrl == c && r.id == frame.id then q else r
           ({ s with can := { s.can with prot := l } }).matchFrame c frame (some len) t)

/-- A receive error (12 R303, R305, R326; log 19) of the given kind while receiving. -/
def State.rxError (s : State) (c kind : Nat) (dominant : Bool) : State :=
  let x := s.ctl c
  let n := if s.counts c then Nat.min 255 (x.recv + if dominant then 8 else 1) else x.recv
  (s.setCtl c { x with recv := n, errs := bump 16 x.errs kind, last := kind }).updErr c

/-- CAN_RECEIVE_ERROR (12 R303; 13 R337): an error on a frame being received. The decoder of a segment that sleeps under SELWAKE counts it,
and the 32nd is a wake. -/
def execCanReceiveError (c kind : Nat) (dominant : Bool) (s : State) : Out :=
  unitEvent (decide (c < 12))
    (if s.selWake c then
       (let x := s.seg c
        if 31 ≤ x.wufErr then (s.setSeg c { x with wufErr := 0 }).wokenSeg c else s.setSeg c { x with wufErr := x.wufErr + 1 })
     else if !s.live || !s.onBus c || decide (kind = 0) || decide (5 < kind) || (s.ctl c).tx.isSome then s else s.rxError c kind dominant)

/-! ### Sending -/

/-- Rank of an identifier in arbitration, lower wins (12 R310). -/
def arbKey (id : Nat) : Nat := if bit id 31 then bits id 28 18 * 2 ^ 19 + 2 ^ 18 + bits id 17 0 else id * 2 ^ 19

/-- The reference message with its own start of frame as reference mark (12 R315). -/
def State.refFrame (s : State) (c : Nat) : CanFrame :=
  let x := s.ctl c
  let t := s.now
  { fmt := 0, id := x.tmId,
    data := [BitVec.ofNat 8 x.refCyc, BitVec.ofNat 8 ((t % 1000) * 8 / 1000 * 32)] ++ toLE 2 (t / 1000) ++ toLE 4 (t / 256) }

/-- A protected frame is paused (12 R317): its next counter would be a multiple of 256 with a save incomplete. -/
def Prot.paused (p : Prot) : Bool := p.due && (p.txc + 1) % 256 == 0

/-- The protected frame of a payload under the counter `n` (12 R318). -/
def Prot.build (p : Prot) (fmt n : Nat) (payload : List Byte) : List Byte :=
  let len := (lenFit fmt (payload.length + 1 + p.maclen)).getD 0
  let body := fitTo (len - 1 - p.maclen) payload
  body ++ [BitVec.ofNat 8 n] ++ fitTo p.maclen (aesCmac p.key (macInput p.id n body))

/-- A PENDING object that can start (12 R306, R310, R317; log 17: one disabled keeps its data). -/
def State.startable (s : State) (x : CObj) : Bool :=
  x.st == 1 && x.en && (x.built.isSome || match s.protOf x.ctrl x.id with | some p => !p.paused | none => true)

/-- The object or routed copy that would win arbitration (12 R310; 14 R358): the oldest copy of each identifier competes. -/
def State.arbWinner (s : State) (c : Nat) : Option (Sum Nat Rtd) :=
  let objs := ((s.objsOf c true).filter fun (p : Nat × CObj) => s.startable p.2).map fun (p : Nat × CObj) =>
    (arbKey p.2.id * 2, (Sum.inl p.1 : Sum Nat Rtd))
  let rts := (s.ctl c).routed.map fun (r : Rtd) => (arbKey r.frame.id * 2 + 1, (Sum.inr r : Sum Nat Rtd))
  ((objs ++ rts).foldl (fun (m : Option (Nat × Sum Nat Rtd)) e => match m with
    | none => some e
    | some b => if e.1 < b.1 then some e else some b) none).map (·.2)

/-- A routed copy leaves its queue. -/
def State.unroute (s : State) (c : Nat) (r : Rtd) : State :=
  s.setCtl c { s.ctl c with routed := dropFirst (· == r) (s.ctl c).routed }

/-- An object's frame starts (12 R310, R318): it becomes ACTIVE. Whether an FD object's frame switches its bit rate, which the
spec leaves open, is a free value. -/
def State.startObj (s : State) (c o : Nat) : State :=
  let (k, s) := s.draw
  let x := s.cobj o
  let esi := x.fmt == 1 && (s.ctl c).err == 1
  let plain : CanFrame := { fmt := x.fmt, id := x.id, data := x.data, xl := x.xl, brs := x.fmt == 1 && bit k 0, esi := esi }
  let (f, s) := match x.built, s.protOf c x.id with
    | some f, _ => (f, s)
    | none, none => (plain, s)
    | none, some p =>
      let n := (p.txc + 1) % 2 ^ 32
      let l := s.can.prot.map fun (q : Prot) => if q.ctrl == c && q.id == x.id then { q with txc := n, due := q.due || n % 256 == 0 } else q
      ({ plain with data := p.build x.fmt n x.data }, { s with can := { s.can with prot := l } })
  let s := s.setCobj o { x with st := 2, built := if (s.protOf c x.id).isSome then some f else none }
  s.setCtl c { s.ctl c with tx := some { kind := 2, obj := o, frame := f, sof := s.now } }

/-- A routed copy starts (14 R359), or is dropped at its start of arbitration. -/
def State.startRouted (s : State) (c : Nat) (r : Rtd) : State :=
  match s.copyBad r c with
  | some k => (s.unroute c r).dropCopy r.entry k
  | none => s.setCtl c { s.ctl c with tx := some { kind := 3, rtd := r, frame := r.frame, sof := s.now } }

/-- The bus of controller `c` is idle, and it starts the frame that comes first (12 R310, R314; 13 R340; 14 R358): a reference
message, a Pennant frame, a copy held under a wake list, then arbitration. Copies that fail 14 R359 are dropped on the way. -/
def State.startFrame (s : State) (c : Nat) : Nat → State
  | 0 => s
  | fuel + 1 =>
    let x := s.ctl c
    match x.refQ, x.pen, x.routed.find? fun (r : Rtd) => r.held with
    | some t, _, _ =>
      s.setCtl c { x with refQ := none, refBeg := true, tx := some { kind := 0, frame := s.refFrame c, sof := s.now, trig := t } }
    | none, b :: _, _ =>
      let typ := byteAt b 0 % 16
      let s := s.penSof c typ
      let f : CanFrame := { id := le (s.segRec c) 2 2, data := if typ = 3 then s.penFrame c 3 else b }
      s.setCtl c { x with tx := some { kind := 1, frame := f, sof := s.now } }
    | none, [], some r =>
      let s := s.startRouted c r
      if (s.ctl c).tx.isSome then s else s.startFrame c fuel
    | none, [], none =>
      match s.arbWinner c with
      | none => s
      | some (.inl o) => s.startObj c o
      | some (.inr r) =>
        let s := s.startRouted c r
        if (s.ctl c).tx.isSome then s else s.startFrame c fuel

/-- CAN_TX_START (12 R310): the controller starts a frame at a bus idle, in normal mode, not in bus-off, with no mode change
waiting and its transceiver in Normal. -/
def execCanTxStart (c : Nat) (s : State) : Out :=
  unitEvent (decide (c < 12))
    (let x := s.ctl c
     if s.live && !s.cut (ctlGate c) && x.mode == 1 && x.err != 2 && !x.integ && x.want.isNone && x.tx.isNone && (decide (8 ≤ c) || (s.seg c).xst == 0) then
       s.startFrame c 65
     else s)

/-- CAN_TX_DONE (12 R310, R314, R326; 13 R344; 14 R358): the frame on the bus was sent without error; a frame other than a Pennant frame is a
wake event of an exchange on its segment. `tdc` is the measured transmitter
delay of a frame with a data phase. -/
def execCanTxDone (c tdc : Nat) (s : State) : Out :=
  unitEvent (decide (c < 12))
    (match (s.ctl c).tx with
     | none => s
     | some t =>
       let x := s.ctl c
       let x := { x with tx := none, txfrm := (x.txfrm + 1) % 2 ^ 32, tec := x.tec - 1, tdc := if t.frame.fmt = 0 then x.tdc else tdc }
       let s := (s.setCtl c x).updErr c
       let x := s.ctl c
       if t.kind = 1 then
         let s := s.setCtl c { x with pen := x.pen.drop 1 }
         if byteAt t.frame.data 0 % 16 = 4 then (s.penAbortEnd c).roundChecked c else s
       else
       let s := if c < 8 then s.segEvent c else s
       let x := s.ctl c
       if t.kind = 0 then s.setCtl c { x with refCyc := (x.refCyc + 1) % 64, refBeg := false }
       else if t.kind = 2 then
         let o := s.cobj t.obj
         let s := s.setCobj t.obj { o with st := 0, h := none, built := none, sdata := o.data, sxl := o.xl, cnt := (o.cnt + 1) % 65536, time := t.sof }
         (s.txEnds o.h 1 o.retr t.sof).objFree t.obj
       else (s.unroute c t.rtd).delivered t.rtd.entry)

/-- A transmit error (12 R303, R310, R314, R326; 14 R358): the frame on the bus lost arbitration (kind 0) or met an error: 1 bit,
2 stuff, 3 form, 4 ACK, 5 CRC. Error counters follow ISO 11898-1 (log 19): `exc` tells that one of its two exceptions holds, a stuff error
in arbitration on a recessive stuff bit seen dominant, or, error-passive, no dominant bit seen in the passive error flag after an ACK
error; TEC then stays. -/
def State.txError (s : State) (c kind : Nat) (exc : Bool) : State :=
  match (s.ctl c).tx with
  | none => s
  | some t =>
    let x := s.ctl c
    let free := exc && (kind == 2 || (kind == 4 && x.err == 1))
    let up := if kind = 0 ∨ free then 0 else 8
    let x := { x with tx := none, tec := x.tec + up, errs := if kind = 0 then x.errs else bump 16 x.errs kind,
                      last := if kind = 0 then x.last else kind }
    let s := (s.setCtl c x).updErr c
    let o := s.cobj t.obj
    if oneShot x.rcd ∧ t.kind = 2 ∧ o.later.isNone then
      ((s.setCobj t.obj { o with st := 0, h := none, built := none }).txFails o.h .badState 0x17 0).roleDue t.obj
    else if oneShot x.rcd ∧ t.kind = 3 then (s.unroute c t.rtd).dropCopy t.rtd.entry 9
    else s.txBack c t

/-- CAN_TX_ERROR (12 R310). -/
def execCanTxError (c kind : Nat) (exc : Bool) (s : State) : Out :=
  unitEvent (decide (c < 12)) (if 5 < kind then s else s.txError c kind exc)

/-- D2D_ERROR (12 R305): the die-to-die link corrupted the bit stream of CAN0 to CAN7 or, from 12 on, LIN0 to LIN7. The
controller takes the affected bit as a bit error. -/
def execD2dError (link : Nat) (s : State) : Out :=
  unitEvent (decide (link < 8 ∨ (12 ≤ link ∧ link < 20)))
    (if !s.live then s
     else if link < 8 then
       let x := s.ctl link
       let s := (s.setCtl link { x with d2d := satAdd 32 x.d2d 1 }).raise 0x53 link
       if x.tx.isSome then s.txError link 1 false else if s.onBus link then s.rxError link 1 false else s
     else
       let s := s.raise 0x53 link
       let l := s.lin (link - 12)
       if l.wait.isSome then (s.setLin (link - 12) { l with bitErr := satAdd 16 l.bitErr 1 }).raise 0x54 link else s)

end Sys2Proof.Machine
end

