-- ==== Sys2Proof/Machine/LinBus.lean ====
section
/-! DEFINITION. The LIN commanders: their record, their schedule, slots and responses (12 R320 to R325; 13 R341; 14 R360). -/
namespace Sys2Proof.Machine
open Sys2Proof

/-! ### The LIN record (12 R321) -/

/-- NFRAMES and NTABLES. -/
def linFrames (r : List Byte) : Nat := byteAt r 5
def linTables (r : List Byte) : Nat := byteAt r 6

/-- Offsets of `n` schedule tables from `o` on. -/
def linTabsFrom (r : List Byte) : Nat → Nat → List Nat
  | 0, _ => []
  | n + 1, o => o :: linTabsFrom r n (o + 2 + 2 * byteAt r o)

/-- Offsets of the schedule tables. -/
def linTabs (r : List Byte) : List Nat := linTabsFrom r (linTables r) (16 + 4 * linFrames r)

/-- The length the record's own counts give. -/
def linLength (r : List Byte) : Nat := 16 + 4 * linFrames r + ((linTabs r).map fun o => 2 + 2 * byteAt r o).sum

/-- Slots of table `t`. -/
def linN (r : List Byte) (t : Nat) : Nat := ((linTabs r)[t]?.map fun o => byteAt r o).getD 0

/-- Frame index and delay in ms of slot `i` of table `t`. -/
def linSlot (r : List Byte) (t i : Nat) : Nat × Nat :=
  let o := (linTabs r)[t]?.getD 0 + 2 + 2 * i
  (byteAt r o, byteAt r (o + 1))

/-- FID, LEN, flags and collision table of frame definition `k`. -/
def linFid (r : List Byte) (k : Nat) : Nat := byteAt r (16 + 4 * k)
def linLen (r : List Byte) (k : Nat) : Nat := byteAt r (17 + 4 * k)
def linFlags (r : List Byte) (k : Nat) : Nat := byteAt r (18 + 4 * k)
def linColl (r : List Byte) (k : Nat) : Nat := byteAt r (19 + 4 * k)
def linPublish (r : List Byte) (k : Nat) : Bool := bit (linFlags r k) 1
def linType (r : List Byte) (k : Nat) : Nat := bits (linFlags r k) 3 2

/-- Bit times of a frame's maximum time, times ten (12 R321). -/
def linMax10 (len : Nat) : Nat := 14 * (34 + 10 * (len + 1))

/-- Every slot of every table, as (frame index, delay). -/
def linSlots (r : List Byte) : List (Nat × Nat) :=
  ((List.range (linTables r)).map fun t => (List.range (linN r t)).map fun i => linSlot r t i).flatten

/-- A reserved bit or byte of the record is not 0. -/
def linReserved (r : List Byte) : Bool :=
  decide (1 < byteAt r 1) || !allZero (slice r 7 9) || ((List.range (linFrames r)).any fun k => decide (16 ≤ linFlags r k)) ||
    ((linTabs r).any fun o => byteAt r (o + 1) != 0)

/-- A field of the record lies outside its range. -/
def linRange (r : List Byte) : Bool :=
  let baud := le r 2 2
  byteAt r 0 != 1 || decide (baud < 1000 ∨ 20000 < baud) || decide (byteAt r 4 < 13 ∨ 26 < byteAt r 4) ||
    decide (linFrames r < 1 ∨ 64 < linFrames r) || decide (linTables r < 1 ∨ 8 < linTables r) ||
    ((List.range (linFrames r)).any fun k =>
      decide (63 < linFid r k) || decide (linLen r k < 1 ∨ 8 < linLen r k) || decide (2 < linType r k) ||
        (if linType r k = 1 then decide (linTables r ≤ linColl r k) else linColl r k != 0xFF)) ||
    ((linTabs r).any fun o => decide (byteAt r o < 1 ∨ 64 < byteAt r o)) ||
    ((linSlots r).any fun p => decide (linFrames r ≤ p.1) || p.2 == 0)

/-- A combination of the record is not allowed. -/
def linMix (r : List Byte) : Bool :=
  ((linSlots r).any fun p => decide (p.2 * le r 2 2 * 10 < linMax10 (linLen r p.1) * 1000)) ||
    ((List.range (linFrames r)).any fun k =>
      (linType r k != 0 && bit (linFlags r k) 0) ||
        (linType r k == 2 && !((linFid r k == 60 && linPublish r k) || (linFid r k == 61 && !linPublish r k))))

/-- CAN.LIN (05 R121; 12 R321). -/
def execCanLin (h : Hdr) (addr len lin : Nat) (s : State) : Out :=
  fwCmd h s (s.withDesc h addr len [noEpoch h, bp (decide (7 < lin)) 0x11, den (decide (s.owner 6 lin ≠ h.ring)) 0x01] true fun r s =>
    s.guarded h [bp (decide (r.length < 16) || r.length != linLength r) 0x05, bp (linReserved r) 0x01, bp (linRange r) 0x12,
                 bp (linMix r) 0x13, s.gated (0x30 + lin), bst (s.lin lin).run 0x15]
      ((s.setLin lin { s.lin lin with rcd := r }).ok h))

/-- A table takes over at once (12 R322); a frame in progress completes first, and slot 0 starts after it. -/
def State.linStart (s : State) (l t : Nat) : State :=
  let x := s.lin l
  if t = 0xFF then s.setLin l { x with run := false, chg := none, coll := none }
  else s.setLin l { x with run := true, tab := t, next := 0, nextAt := s.now, fresh := true, chg := none, coll := none }

/-- CAN.LINRUN (05 R121; 12 R322). WHEN 1 with no schedule running applies at once (log 17). -/
def execCanLinrun (h : Hdr) (lin table mode : Nat) (s : State) : Out :=
  let x := s.lin lin
  fwCmd h s (s.guarded h
    [noEpoch h, bp (decide (7 < lin)) 0x11, den (decide (s.owner 6 lin ≠ h.ring)) 0x01,
     bp (decide (table ≠ 0xFF ∧ linTables x.rcd ≤ table)) 0x12, bp (decide (1 < mode)) 0x12, s.gated (0x30 + lin)]
    ((if mode = 0 ∨ x.run = false then s.linStart lin table else s.setLin lin { x with chg := some table }).ok h))

/-- LIN_ERR of a commander (12 R325). -/
def State.linErr (s : State) (l : Nat) : State := s.raise 0x54 (12 + l)

/-- The schedule stands before its next slot (12 R322, R323): a collision table that has run once gives way to the interrupted
table; after the last slot a change takes effect, or the table repeats. -/
def Lin.atSlot (x : Lin) : Lin :=
  let x := match x.coll with
    | some c => if linN x.rcd c ≤ x.next then { x with coll := none, next := x.ret } else x
    | none => x
  if x.coll = none ∧ linN x.rcd x.tab ≤ x.next then
    match x.chg with
    | some t => if t = 0xFF then { x with run := false, chg := none } else { x with tab := t, next := 0, chg := none }
    | none => { x with next := 0 }
  else x

/-- The enabled transmit object of a FID. -/
def State.linTxObj (s : State) (l fid : Nat) : Option (Nat × CObj) :=
  (s.objsOf (12 + l) true).find? fun (p : Nat × CObj) => p.2.en && p.2.id == fid

/-- A routed buffer that fails 14 R359 as its slot starts is emptied and counted. -/
def State.linBufCheck (s : State) (l fid : Nat) : State :=
  match look? (s.lin l).buf fid with
  | none => s
  | some c =>
    match s.copyBad c (12 + l) with
    | none => s
    | some k => (s.setLin l { s.lin l with buf := del (s.lin l).buf fid }).dropCopy c.entry k

/-- A publish slot (12 R323, R324; 14 R360): the newer of the object's data and the routed buffer is sent; `diag` sends an
object's data once only, whatever their length. -/
def State.linPublishSlot (s : State) (l k : Nat) (diag err : Bool) : State :=
  let fid := linFid (s.lin l).rcd k
  let len := linLen (s.lin l).rcd k
  if (s.lin l).hold then s
  else
    let s := s.linBufCheck l fid
    let x := s.lin l
    let obj := (s.linTxObj l fid).filter fun p => if diag then p.2.unsent else p.2.len == len
    let rt := look? x.buf fid
    let useRt := match rt, obj with
      | some c, some p => decide (p.2.at_ ≤ c.at_)
      | some _, none => true
      | _, _ => false
    let head := fun (s : State) => s.setLin l { s.lin l with hdr := ((s.lin l).hdr + 1) % 2 ^ 32 }
    let bad := fun (s : State) => (s.setLin l { s.lin l with bitErr := satAdd 16 (s.lin l).bitErr 1 }).linErr l
    let sent3 := fun (s : State) => if diag then s.setLin l { s.lin l with sent3c := true } else s
    match useRt, rt, obj with
    | true, some c, _ =>
      let s := head s
      if err then bad s
      else sent3 ((s.setLin l { s.lin l with buf := del (s.lin l).buf fid }).delivered c.entry)
    | _, _, some p =>
      let s := head s
      if err then bad s
      else sent3 (s.setCobj p.1 { p.2 with unsent := false, cnt := (p.2.cnt + 1) % 65536, time := x.start, sdata := p.2.data })
    | _, _, none => if diag then s else s.setLin l { x with skipped := satAdd 16 x.skipped 1 }

/-- A slot whose header the commander sends for a responder (12 R323). -/
def State.linHeaderSlot (s : State) (l k : Nat) (err : Bool) : State :=
  let x := s.lin l
  let x := { x with hdr := (x.hdr + 1) % 2 ^ 32 }
  if err then (s.setLin l { x with bitErr := satAdd 16 x.bitErr 1 }).linErr l
  else s.setLin l { x with wait := some k }

/-- At entry to COMMITTED the routed frames for a segment that its wake list does not name are dropped (14 R363). -/
def State.dropSleeping (s : State) (g : Nat) : State :=
  let wl := look (fun _ => []) s.brg.wake g
  if g < 8 then
    let x := s.ctl g
    let keep := fun (r : Rtd) => wl.contains r.entry || (match x.tx with | some t => t.kind == 3 && t.rtd == r | none => false)
    let s := s.setCtl g { x with routed := x.routed.filter keep }
    (x.routed.filter fun r => !keep r).foldl (fun s (r : Rtd) => s.dropCopy r.entry 6) s
  else if g < 16 then
    let x := s.lin (g - 8)
    let gone := x.buf.filter fun (p : Nat × Rtd) => !wl.contains p.2.entry
    let s := s.setLin (g - 8) { x with buf := x.buf.filter fun (p : Nat × Rtd) => wl.contains p.2.entry }
    gone.foldl (fun s (p : Nat × Rtd) => s.dropCopy p.2.entry 6) s
  else s

/-- The go-to-sleep command is sent (13 R341): from its start on the segment is COMMITTED. -/
def State.linCommit (s : State) (l : Nat) : State :=
  let s := s.setLin l { s.lin l with hdr := ((s.lin l).hdr + 1) % 2 ^ 32 }
  (s.setSeg (8 + l) { s.seg (8 + l) with pst := 2, abort := false, woken := false, commitAt := none }).dropSleeping (8 + l)

/-- LIN_SLOT_START (12 R322, R323, R325; 13 R341): a slot of LIN `l` is due. `err` is a bit error in what the commander
sends. -/
def execLinSlotStart (l : Nat) (err : Bool) (s : State) : Out :=
  unitEvent (decide (l < 8))
    (let x := s.lin l
     if !s.live || !x.run || s.cut (0x30 + l) || decide (s.now < x.nextAt) || x.wait.isSome || (s.seg (8 + l)).xst != 0 then s
     else
       let x := x.atSlot
       let s := s.setLin l x
       if !x.run then s
       else if (s.seg (8 + l)).pst = 1 ∧ !x.hold then
         (if err then (s.setLin l { x with bitErr := satAdd 16 x.bitErr 1, hdr := (x.hdr + 1) % 2 ^ 32 }).linErr l else s.linCommit l)
       else
         let (k, d) := linSlot x.rcd (x.coll.getD x.tab) x.next
         let t := if x.fresh then s.now else x.nextAt
         let s := s.setLin l { x with slot := x.next, next := x.next + 1, start := t, nextAt := t + d * 1000000, fresh := false }
         let ty := linType x.rcd k
         if ty = 0 ∧ linPublish x.rcd k then s.linPublishSlot l k false err
         else if ty = 2 ∧ linPublish x.rcd k then s.linPublishSlot l k true err
         else if ty = 2 ∧ x.sent3c = false then s
         else s.linHeaderSlot l k err)

/-- A response stored and offered to the bridge under its FID (12 R308, R323; 14 R355). -/
def State.linStore (s : State) (l fid : Nat) (data : List Byte) (t : Nat) : State :=
  let f : CanFrame := { id := fid, data := data }
  let s := match (s.objsOf (12 + l) false).find? fun (p : Nat × CObj) => p.2.en && p.2.id == fid with
    | none => s
    | some (o, _) => s.storeObj o f data data.length false t
  s.offer (12 + l) { frame := f, time := t }

/-- LIN_RESPONSE_RX (12 R308, R323, R325): the awaited response, its frame's start `ago` fabric cycles before (RXTIME): good (code 0), or with a checksum (1) or framing (2) error. In an
event-triggered frame either error is a collision. -/
def execLinResponseRx (l : Nat) (data : List Byte) (code ago : Nat) (s : State) : Out :=
  unitEvent (decide (l < 8))
    (let x := s.lin l
     match x.wait with
     | none => s
     | some k =>
       let ty := linType x.rcd k
       let s := s.setLin l { x with wait := none }
       let x := s.lin l
       if code = 0 then
         (if data.length ≠ linLen x.rcd k then s.setLin l { x with wait := some k }
          else
            let s := if ty = 2 then s.setLin l { x with sent3c := false } else s
            let s := s.segEvent (8 + l)
            s.linStore l (if ty = 1 then byteAt data 0 % 64 else linFid x.rcd k) data (s.now - ago * 5 / 2))
       else if ty = 1 then
         s.setLin l { x with colls := satAdd 16 x.colls 1, coll := some (linColl x.rcd k), next := 0,
                             ret := if x.coll.isSome then x.ret else x.next }
       else if code = 1 then (s.setLin l { x with csum := satAdd 16 x.csum 1 }).linErr l
       else (s.setLin l { x with noresp := satAdd 16 x.noresp 1 }).linErr l)

/-- LIN_NO_RESPONSE (12 R323, R325): the frame's maximum time has passed without a complete response. -/
def execLinNoResponse (l : Nat) (s : State) : Out :=
  unitEvent (decide (l < 8))
    (let x := s.lin l
     match x.wait with
     | none => s
     | some k =>
       if (s.now - x.start) * le x.rcd 2 2 * 10 < linMax10 (linLen x.rcd k) * 1000000000 then s
       else (s.setLin l { x with wait := none, noresp := satAdd 16 x.noresp 1 }).linErr l)

/-- BRIDGE_LIN_AGE_EXPIRY (14 R360): a routed buffer was not sent within MAXAGE. -/
def execBridgeLinAgeExpiry (l fid : Nat) (s : State) : Out :=
  unitEvent (decide (l < 8))
    (match look? (s.lin l).buf fid with
     | none => s
     | some c => if s.aged c then (s.setLin l { s.lin l with buf := del (s.lin l).buf fid }).dropCopy c.entry 8 else s)

end Sys2Proof.Machine
end

