-- ==== Sys2Proof/Machine/WakeCmd.lean ====
section
/-! DEFINITION. Sleep and wake of segments: the WAKE commands and the Pennant exchange (13 R330 to R345; 05 R122). -/
namespace Sys2Proof.Machine
open Sys2Proof

/-! ### The wake record -/

/-- Entry `g` of a wake record (13 R335). -/
def wakeEnt (r : List Byte) (g : Nat) : List Byte := slice r (16 + 32 * g) 32

/-- A reserved bit or byte of the wake record is not 0 (13 R335, R336). -/
def wakeReserved (r : List Byte) : Bool :=
  decide (16 ≤ byteAt r 1) || byteAt r 3 != 0 || !allZero (slice r 5 3) || !allZero (slice r 12 4) ||
    (List.range 22).any fun g =>
      let e := wakeEnt r g
      decide (16 ≤ byteAt e 0) || bits (le e 12 4) 30 29 != 0 || decide (32 ≤ byteAt e 20) || !allZero (slice e 21 3)

/-- PENNANT of an entry. -/
def entPennant (e : List Byte) : Bool := bit (byteAt e 0) 2

/-- A field of the wake record lies outside its range (13 R335, R336). -/
def wakeRange (r : List Byte) : Bool :=
  byteAt r 0 != 1 || ((List.range 4).any fun n => bits (byteAt r 2) (2 * n + 1) (2 * n) == 3) || decide (86400 < le r 8 4) ||
    (List.range 22).any fun g =>
      let e := wakeEnt r g
      let b := byteAt e
      let can := decide (g < 8)
      let lin := decide (8 ≤ g) && decide (g < 16)
      let p := entPennant e
      (decide (3 < b 1) && b 1 != 0xFF) ||
        (if can then decide (0x7FF < le e 2 2) || decide (0x7F0 < le e 4 2) else le e 2 2 != 0 || le e 4 2 != 0) ||
        (if p && !lin then decide (b 8 < 5) || decide (b 9 < 10) else b 8 != 0 || b 9 != 0) ||
        (if p then decide (b 11 < 10) else b 11 != 0)

/-- A combination of the wake record is not allowed (13 R336). -/
def wakeMix (r : List Byte) : Bool :=
  (List.range 22).any fun g =>
    let e := wakeEnt r g
    let lin := decide (8 ≤ g) && decide (g < 16)
    let p := entPennant e
    (bit (byteAt e 0) 1 && decide (8 ≤ g)) || (p && !lin && le e 6 2 == 0) || (lin && le e 6 2 != 0) ||
      (p && decide (g < 8) && decide (le e 4 2 ≤ le e 2 2) && decide (le e 2 2 ≤ le e 4 2 + 15))

/-- A Pennant identifier of the record is held by a transmit object of its controller (13 R336). -/
def State.wakeHeld (s : State) (r : List Byte) : Bool :=
  (List.range 8).any fun g =>
    let e := wakeEnt r g
    entPennant e && (s.objsOf g true).any fun (p : Nat × CObj) =>
      p.2.id == le e 2 2 || (decide (le e 4 2 ≤ p.2.id) && decide (p.2.id ≤ le e 4 2 + 15))

/-- SELWAKE at a nominal rate the decoder cannot take (13 R337): 125, 250, 500 and 1000 kbit/s are 640, 320, 160 and 80 kernel
clocks a bit. -/
def State.wakeRate (s : State) (r : List Byte) : Bool :=
  (List.range 8).any fun g =>
    let c := (s.ctl g).rcd
    bit (byteAt (wakeEnt r g) 0) 1 && !([640, 320, 160, 80] : List Nat).contains (bitClocks (le c 2 2) (le c 4 2) (byteAt c 6))

/-- WAKE.SOURCE (05 R122; 13 R335 to R337). -/
def execWakeSource (h : Hdr) (addr len : Nat) (s : State) : Out :=
  fwCmd h s (s.withDesc h addr len [noEpoch h, t01 h] (decide (len = 720)) fun r s =>
    s.guarded h [bp (wakeReserved r) 0x01, bp (wakeRange r) 0x12, bp (wakeMix r) 0x13,
                 bst ((List.range 22).any fun g => (s.seg g).pst != 0) 0x10, bst (s.wakeHeld r) 0x15, bst (s.wakeRate r) 0x16]
      (s.farWrite h 0 0x4E000100 0x20 (({ s with wake := { s.wake with rcd := r } }).syncWake.ok h)))

/-- An INHn output is driven high (13 R334). -/
def State.inhOut (s : State) (n : Nat) : Bool :=
  !s.wake.inhOff && (bit s.wake.level n ||
    (List.range 22).any fun g => byteAt (s.segRec g) 1 == n && decide ((s.seg g).xst ≤ 2))

/-- WAKE.INH (05 R122; 13 R334). -/
def execWakeInh (h : Hdr) (mask level : Nat) (s : State) : Out :=
  fwCmd h s (s.guarded h [noEpoch h, t0 h, bp (decide (15 < mask ∨ 15 < level)) 0x01]
    (s.farWrite h 0 0x4E000010 0x20
      (let v := listMask ((List.range 4).filter fun n => if bit mask n then bit level n else bit s.wake.level n)
       ({ s with wake := { s.wake with level := v } }).syncWake.ok h)))

/-! ### Transceiver states -/

/-- A WAKE.XCVR to Normal of a sleeping segment (13 R331, R339): SP10 to SP15 ask for their LINK leave first. -/
def State.xcvrNormal (s : State) (h : Hdr) (g : Nat) : State :=
  if g < 16 then (s.wakeSeg g).ok h
  else
    let s := { s with wake := { s.wake with wakeCnt := satAdd 32 s.wake.wakeCnt 1 } }
    let queued := (s.seg g).handle != noHandle
    let s := s.setSeg g { s.seg g with xh := (s.seg g).xh ++ [h] }
    if queued then (s.accepted h 0x02).inflightState h 5
    else
      s.request { typ := 7, bud := 4, amount := 350, dur := 0xFFFFFFFF, tag := h.ring, client := .seg g } 0
        (fun s hd => s.setSeg g { s.seg g with handle := hd, retryLink := none })
        (fun s => (s.accepted h 0x02).inflightState h 5)

/-- A segment enters Listen-only (13 R330, R332): a controller drops the frame it is sending; a port has LSTATE UP and cannot transmit. -/
def State.listen (s : State) (g : Nat) : State :=
  if (s.seg g).xst = 1 then s
  else
    let s := if 2 ≤ (s.seg g).xst then s.normal g else s
    let l := (s.port (segPort g)).lst
    let s := s.setSeg g { s.seg g with xst := 1, lup := decide (16 ≤ g) && l == .up }
    if g < 16 then s.stopTx g
    else if l = .disabled then s
    else (if l = .up then s else s.setLink (segPort g) .up).flushPort (segPort g)

/-- A segment returns from Listen-only to Normal (13 R330): a port that had no link before waits for it as 11 R271 states. -/
def State.unlisten (s : State) (g : Nat) : State :=
  let x := s.seg g
  if x.xst ≠ 1 then s
  else
    let s := s.setSeg g { x with xst := 0, lup := false }
    if g < 16 ∨ x.lup ∨ s.selfUp (segPort g) ∨ (s.port (segPort g)).lst ≠ .up then s else s.setLink (segPort g) .down

/-- WAKE.XCVR (05 R122; 13 R330, R331). During an exchange a change to Normal is a wake event (R344) and every other one is
refused. From Standby the change to Sleep is at once (log 18). -/
def execWakeXcvr (h : Hdr) (seg st : Nat) (s : State) : Out :=
  let x := s.seg seg
  fwCmd h s (s.guarded h
    [noEpoch h, bp (decide (21 < seg)) 0x11, t01 h, bp (decide (3 < st)) 0x12, bp (decide (st = 1 ∧ 8 ≤ seg ∧ seg < 16)) 0x13,
     bst (decide (x.pst ≠ 0 ∧ st ≠ 0)) 0x10]
    (s.farWrite h 0 0x4E000014 0x20
      ((if x.pst ≠ 0 then ((s.segEvent seg).unlisten seg).ok h
        else if st = 0 then (if 2 ≤ x.xst then s.xcvrNormal h seg else (s.unlisten seg).ok h)
        else if st = 1 then (s.listen seg).ok h
        else if st ≤ x.xst then s.ok h
        else if x.xst = 2 then (s.setSeg seg { x with xst := 3, sleepAt := none }).ok h
        else (s.standby seg (st == 3)).ok h).syncWake)))

/-- SEGMENT_SLEEP_ENTRY (13 R330): TSTBY has passed in Standby. -/
def execSegmentSleepEntry (sg : Nat) (s : State) : Out :=
  unitEvent (decide (sg < 22))
    (let x := s.seg sg
     match x.sleepAt with
     | some t => if x.xst = 2 ∧ t ≤ s.cyc then s.setSeg sg { x with xst := 3, sleepAt := none } else s
     | none => s)

/-! ### The Pennant exchange -/

/-- A round starts on a segment (13 R341, R342): a LIN commander sends its go-to-sleep command in place of the next slot, or at
once when no schedule runs. -/
def State.startRound (s : State) (g : Nat) : State :=
  if g < 8 ∨ 16 ≤ g then s.indicate g
  else
    let x := s.seg g
    let s := s.setSeg g { x with pst := 1, tries := x.tries + 1, ready := 0, winAt := none, retryAt := none, abort := false, woken := false }
    if (s.lin (g - 8)).run || (s.lin (g - 8)).hold then s else s.linCommit (g - 8)

/-- WAKE.INDICATE (05 R122; 13 R342, R343). A segment already in Standby or Sleep counts as asleep, whatever its controller or
port does. -/
def execWakeIndicate (h : Hdr) (mask deadline attempts : Nat) (s : State) : Out :=
  let l := maskList 22 mask
  let up := fun g => s.asleep g || (if g < 8 then (s.ctl g).mode == 1 else if g < 16 then true else (s.port (segPort g)).lst == .up)
  fwCmd h s (s.guarded h
    [noEpoch h, t01 h, bp (decide (2 ^ 22 ≤ mask)) 0x12, bp (decide (attempts < 1 ∨ 15 < attempts)) 0x12,
     bp (l.any fun g => !s.pennant g) 0x13, bst (l.any fun g => (s.seg g).pst != 0) 0x10, bst (l.any fun g => !up g) 0x14]
    (s.farWrite h 0 0x4E000020 0x20
      (if l.all fun g => s.asleep g then s.ok h mask
       else
         let s := (s.accepted h 0x01).inflightState h 4
         let i : Ind := { h := h, mask := mask, dead := s.cyc + msCyc deadline, attempts := attempts }
         let s := { s with wake := { s.wake with ind := s.wake.ind ++ [i] } }
         ((l.filter fun g => !s.asleep g).foldl (fun s g => (s.setSeg g { s.seg g with tries := 0 }).startRound g) s).syncWake)))

/-- PENNANT_READY_RX (13 R340, R342): a READY counts inside the window, with the current SEQ, from a node of NODES. All ready:
COMMIT. A node that stays awake fails the round. -/
def execPennantReadyRx (sg seq node : Nat) (ready : Bool) (s : State) : Out :=
  unitEvent (decide (sg < 22))
    (let x := s.seg sg
     let inWin : Bool := match x.winAt with | some t => decide (s.cyc < t) | none => false
     let nodes := le (s.segRec sg) 6 2
     if !s.live || x.pst != 1 || !inWin || seq != x.seq || !bit nodes node || decide (2 ≤ x.xst) then s
     else if !ready then (s.sendPen sg 4).roundFailed sg
     else
       let m := if bit x.ready node then x.ready else x.ready + 2 ^ node
       let s := s.setSeg sg { x with ready := m }
       if (List.range 16).all fun n => !bit nodes n || bit m n then
         ((s.setSeg sg { x with ready := m, pst := 2, winAt := none, abort := false, woken := false, commitAt := none }).sendPen sg 3).dropSleeping sg
       else s)

/-- PENNANT_READY_TIMEOUT (13 R342, R343): the window has ended without every READY, or a CAN segment cannot send. -/
def execPennantReadyTimeout (sg : Nat) (s : State) : Out :=
  unitEvent (decide (sg < 22))
    (let x := s.seg sg
     let past : Bool := match x.winAt with | some t => decide (t ≤ s.cyc) | none => decide (sg < 8) && (s.ctl sg).mode != 1
     if x.pst = 1 ∧ past then (s.sendPen sg 4).roundFailed sg else s)

/-- PENNANT_COMMIT_POINT (13 R341, R342, R344): the segment enters Standby and counts as asleep; a wake since makes it return to
Normal at once, with the latch set and a WAKE frame. On LIN it is the end of the go-to-sleep frame, and the commander's wake is a dominant
pulse of 1 ms. -/
def execPennantCommitPoint (sg : Nat) (s : State) : Out :=
  unitEvent (decide (sg < 22))
    (let x := s.seg sg
     let lin := decide (8 ≤ sg) && decide (sg < 16)
     let due : Bool := lin || match x.commitAt with | some t => decide (t ≤ s.cyc) | none => false
     if x.pst ≠ 2 ∨ !due then s
     else
       let wake := x.woken || x.abort
       let s := s.setSeg sg { x with pst := 0, commitAt := none, abort := false, woken := false }
       let s := s.standby sg (!wake)
       let s := s.indCheck
       if wake then
         let s := s.setSeg sg { s.seg sg with latch := true }
         let s := if lin then s.setLin (sg - 8) { s.lin (sg - 8) with pulse := s.cyc + msCyc 1 } else s
         (s.wakeSeg sg).sendPen sg 5
       else s)

/-- PENNANT_RETRY (13 R342): TRETRY has passed since the ABORT. -/
def execPennantRetry (sg : Nat) (s : State) : Out :=
  unitEvent (decide (sg < 22))
    (let x := s.seg sg
     match x.retryAt with
     | some t => if x.pst = 3 ∧ t ≤ s.cyc ∧ s.wake.ind.any (fun (i : Ind) => !i.past && i.segs.contains sg) then s.startRound sg else s
     | none => s)

/-- WAKE_INDICATE_DEADLINE (13 R343). -/
def execWakeIndicateDeadline (ring ctag : Nat) (s : State) : Out :=
  .next (match s.wake.ind.find? fun (i : Ind) => i.h.ring == ring && i.h.ctag == ctag && !i.past with
    | some i => if i.dead ≤ s.cyc then s.indOver i else s
    | none => s)

end Sys2Proof.Machine
end

