-- ==== Sys2Proof/Machine/FrameBridge.lean ====
section
/-! DEFINITION. The frame bridge: routes, lookup, conversion, wake lists and its Ethernet end (14; 05 R123). -/
namespace Sys2Proof.Machine
open Sys2Proof

/-! ### Route records (14 R351, R352) -/

def rtSrc (r : List Byte) : Nat := byteAt r 0
def rtSfmt (r : List Byte) : Nat := byteAt r 1
def rtEnable (r : List Byte) : Bool := bit (byteAt r 2) 0
def rtNdest (r : List Byte) : Nat := byteAt r 3
def rtSid (r : List Byte) : Nat := le r 4 4
def rtRate (r : List Byte) : Nat := le r 8 2
def rtBurst (r : List Byte) : Nat := byteAt r 10
def rtUid (r : List Byte) : Nat := le r 12 2
def rtVid (r : List Byte) : Nat := le r 14 2 % 4096
def rtBus (r : List Byte) : Nat := byteAt r 16
def rtDst (r : List Byte) (d : Nat) : Nat := byteAt r (24 + 6 * d)
def rtDfmt (r : List Byte) (d : Nat) : Nat := byteAt r (25 + 6 * d)
def rtDid (r : List Byte) (d : Nat) : Nat := le r (26 + 6 * d) 4

/-- The destinations in use. -/
def rtDests (r : List Byte) : List Nat := List.range (Nat.min (rtNdest r) 4)

/-- Some end of the route is Ethernet. -/
def rtEth (r : List Byte) : Bool := rtSrc r == 20 || (rtDests r).any fun d => rtDst r d == 20

/-- A reserved bit or byte of the route record is not 0. -/
def routeReserved (r : List Byte) : Bool :=
  decide (1 < byteAt r 2) || !allZero (slice r 17 7) || bit (le r 14 2) 15 ||
    ((List.range 4).any fun d => decide (8 ≤ rtDfmt r d)) ||
    ((List.range 4).any fun d => decide (rtNdest r ≤ d) && !allZero (slice r (24 + 6 * d) 6))

/-- An identifier out of its encoding for an end (14 R351): LIN identifiers have a check of their own (R352). -/
def idBad (d fmt id : Nat) : Bool :=
  if d < 12 then (if fmt = 2 then decide (0x800 ≤ id) else badCanId id) else if d = 20 then badCanId id else false

/-- A field of the route record lies outside its range. -/
def routeRange (r : List Byte) : Bool :=
  let src := rtSrc r
  decide (20 < src) || (if src < 12 then decide (3 < rtSfmt r) else if src < 20 then rtSfmt r != 0 else decide (1 < rtSfmt r)) ||
    decide (rtNdest r < 1 ∨ 4 < rtNdest r) || idBad src (rtSfmt r) (rtSid r) || ((rtRate r == 0) != (rtBurst r == 0)) ||
    (if src = 20 then false else if rtEth r then decide (0xFDFF < rtUid r) else rtUid r != 0) ||
    (if rtEth r then decide (rtVid r < 1 ∨ 4094 < rtVid r) || decide (31 < rtBus r) else le r 14 2 != 0 || rtBus r != 0) ||
    ((rtDests r).any fun d =>
      decide (20 < rtDst r d) || (if rtDst r d < 12 then rtDfmt r d % 4 == 3 || (bit (rtDfmt r d) 2 && rtDfmt r d % 4 != 1) else rtDfmt r d != 0) ||
        idBad (rtDst r d) (rtDfmt r d % 4) (rtDid r d))

/-- The frame definition a LIN destination uses: its LEN, if the commander publishes the FID (14 R352, R357). -/
def State.linPubLen (s : State) (l fid : Nat) : Option Nat :=
  let r := (s.lin l).rcd
  ((List.range (linFrames r)).find? fun k => linFid r k == fid && linPublish r k).map fun k => linLen r k

/-- A combination of the route record is not allowed (14 R352). -/
def State.routeMix (s : State) (r : List Byte) : Bool :=
  let src := rtSrc r
  let ds := rtDests r
  let rec_ := fun c => (s.ctl c).rcd
  (src == 20 && ds.any fun d => rtDst r d == 20) || decide (1 < (ds.filter fun d => rtDst r d == 20).length) ||
    (ds.any fun d => rtDst r d == src && rtDid r d == rtSid r) ||
    (decide (src < 12) && rtSfmt r == 2 && rtEth r) || (src == 20 && ds.any fun d => decide (rtDst r d < 12) && rtDfmt r d % 4 == 2) ||
    (decide (src < 12) && !(if rtSfmt r = 3 then fdOn (rec_ src) else fmtAllowed (rec_ src) (rtSfmt r))) ||
    (ds.any fun d => decide (rtDst r d < 12) && !fmtAllowed (rec_ (rtDst r d)) (rtDfmt r d % 4)) ||
    ((decide (12 ≤ src ∧ src < 20) || (src == 20 && rtSfmt r == 1)) && decide (63 < rtSid r)) ||
    (ds.any fun d =>
      let l := rtDst r d - 12
      decide (12 ≤ rtDst r d ∧ rtDst r d < 20) && (decide (63 < rtDid r d) ||
        ((s.linPubLen l (rtDid r d)).isNone && (List.range (linFrames (s.lin l).rcd)).any fun k => linFid (s.lin l).rcd k == rtDid r d)))

/-- Two route keys equal or overlap (14 R352; log 20 for UID 0xFFFF). -/
def keysMeet (a b : List Byte) : Bool :=
  let f := fun x y => x == y || (x == 3 && decide (y ≤ 1)) || (y == 3 && decide (x ≤ 1))
  rtSrc a == rtSrc b && (if rtSrc a = 20 then rtSfmt a == rtSfmt b else f (rtSfmt a) (rtSfmt b)) && rtSid a == rtSid b &&
    (rtSrc a != 20 || (rtBus a == rtBus b && rtVid a == rtVid b && (rtUid a == rtUid b || rtUid a == 0xFFFF || rtUid b == 0xFFFF)))

/-- The owner holds every end of a route (14 R353). -/
def State.endsOwned (s : State) (tag : Nat) (r : List Byte) : Bool :=
  s.endOwned tag (rtSrc r) (rtSid r) (rtVid r) false && (rtDests r).all fun d => s.endOwned tag (rtDst r d) (rtDid r d) (rtVid r) true

/-- A rate bucket unit: RATE units a fabric cycle make RATE tokens a second. -/
def tokenUnit : Nat := 400000000

/-- The entry takes a record, or is emptied (14 R354): its epoch rises and its bucket is full. -/
def State.writeRoute (s : State) (e : Nat) (r : List Byte) (written : Bool) : State :=
  let x := s.route e
  s.setRoute e { x with rcd := r, written := written, epoch := (x.epoch + 1) % 65536, tokens := rtBurst r * tokenUnit, fillAt := s.cyc }

/-- BRIDGE.ROUTE (05 R123; 14 R351 to R354). -/
def execBridgeRoute (h : Hdr) (entry : Nat) (rcd : List Byte) (s : State) : Out :=
  let x := s.route entry
  let clash := s.brg.route.any fun (p : Nat × Route) => p.1 != entry && p.2.written && keysMeet p.2.rcd rcd
  fwCmd h s (s.guarded h
    [bp (decide (4095 < entry)) 0x11, den (decide (s.owner 8 entry ≠ h.ring) || !s.endsOwned h.ring rcd) 0x01, role h x.epoch,
     bp (routeReserved rcd) 0x01, bp (routeRange rcd) 0x12, bp (s.routeMix rcd) 0x13, bst clash 0x10]
    ((s.writeRoute entry rcd true).ok h ((x.epoch + 1) % 65536)))

/-- BRIDGE.CLEAR (05 R123; 14 R351, R354). -/
def execBridgeClear (h : Hdr) (entry : Nat) (s : State) : Out :=
  let x := s.route entry
  fwCmd h s (s.guarded h
    [bp (decide (4095 < entry)) 0x11, den (decide (s.owner 8 entry ≠ h.ring)) 0x01, role h x.epoch]
    ((s.writeRoute entry (zeros 48) false).ok h ((x.epoch + 1) % 65536)))

/-- BRIDGE.WAKELIST (05 R123; 14 R363). -/
def execBridgeWakelist (h : Hdr) (seg op entry : Nat) (s : State) : Out :=
  let l := look (fun _ => []) s.brg.wake seg
  let set := fun (l : List Nat) => { s with brg := { s.brg with wake := put s.brg.wake seg l } }
  fwCmd h s (s.guarded h
    [noEpoch h, bp (decide (15 < seg ∨ 4095 < entry)) 0x11, t01 h, bp (decide (1 < op)) 0x12,
     bst (decide (op = 0 ∧ 16 ≤ l.length) && !l.contains entry) 0x11]
    ((if op = 1 then set (l.filter (· != entry)) else if l.contains entry then s else set (l ++ [entry])).ok h))

/-! ### Lookup, conversion and delivery -/

/-- Whether a frame of queue `q` meets the key of a route record (14 R356). -/
def keyMatch (q : Nat) (f : InF) (r : List Byte) : Bool :=
  rtSrc r == q && rtSid r == f.frame.id &&
    (if q < 12 then rtSfmt r == f.fmt || (rtSfmt r == 3 && decide (f.fmt ≤ 1))
     else if q < 20 then true
     else rtSfmt r == f.fmt && rtBus r == f.bus && rtVid r == f.vid && (rtUid r == f.uid || rtUid r == 0xFFFF))

/-- A frame of a LIN commander or an ACF LIN message. -/
def fromLin (q : Nat) (f : InF) : Bool := decide (12 ≤ q ∧ q < 20) || (q == 20 && f.fmt == 1)

/-- The copy of a frame for a CAN destination of format `t` (14 R357); none where it cannot be converted. -/
def convCan (q : Nat) (f : InF) (t : Nat) (brs : Bool) (did : Nat) : Option CanFrame :=
  let d := f.frame.data
  let src := if fromLin q f then 0 else f.frame.fmt
  let out : CanFrame := { fmt := t, id := did, data := d, brs := t == 1 && brs, esi := t == 1 && f.frame.esi }
  if f.frame.rtr then none
  else if t = 2 then
    (if fromLin q f then none
     else if src = 2 then some { out with xl := f.frame.xl }
     else if d.length = 0 then none else some out)
  else if t = 0 then (if d.length ≤ 8 then some out else none)
  else if src = 2 then (lenFit 1 d.length).map fun n => { out with data := fitTo n d }
  else some out

/-- The AVTPDU of a copy for Ethernet, before its FCS and padded to 60 bytes (14 R361; log 21 for the bit places of IEEE
1722-2016). -/
def State.avtpdu (s : State) (e q : Nat) (f : InF) (did : Nat) : List Byte :=
  let r := (s.route e).rcd
  let b := fun n => BitVec.ofNat 8 n
  let be := fun n v => (toLE n v).reverse
  let src := [b 6] ++ s.sys.uid.take 5
  let uid := be 2 (rtUid r)
  let lin := fromLin q f
  let d := f.frame.data
  let pad := (4 - d.length % 4) % 4
  let quads := ((if lin then 12 else 16) + d.length + pad) / 4
  let flags := pad * 64 + 32 + (if bit did 31 then 8 else 0) + (if f.frame.brs then 4 else 0) + (if f.frame.fmt = 1 then 2 else 0) +
    (if f.frame.esi then 1 else 0)
  let acf := if lin then be 2 (3 * 512 + quads) ++ [b (pad * 64 + 32 + rtBus r), b did] ++ be 8 f.time ++ d ++ zeros pad
             else be 2 (1 * 512 + quads) ++ [b flags, b (rtBus r)] ++ be 8 f.time ++ be 4 (did % 2 ^ 29) ++ d ++ zeros pad
  let all := [b 0x91, b 0xE0, b 0xF0, 0] ++ uid ++ src ++ be 2 0x8100 ++ be 2 (bits (le r 14 2) 14 12 * 8192 + rtVid r) ++ be 2 0x22F0 ++
    [b 0x82] ++ be 2 (0x8000 + acf.length) ++ [b (s.route e).seq] ++ src ++ uid ++ acf
  if all.length < 60 then fitTo 60 all else all

/-- The segment of a destination takes only its wake list (13 R345; 14 R363). -/
def State.segShut (s : State) (g : Nat) : Bool := (s.seg g).pst == 2 || decide (2 ≤ (s.seg g).xst)

/-- A copy reaches a CAN controller (14 R358, R359, R363). From an entry on the wake list it wakes a sleeping segment, and is a wake event of
an exchange in progress (13 R344). -/
def State.toCan (s : State) (d : Nat) (c : Rtd) : State :=
  let shut := decide (d < 8) && s.segShut d
  let listed := (look (fun _ => []) s.brg.wake d).contains c.entry
  if shut && !listed then s.dropCopy c.entry 6
  else match s.copyBad c d with
  | some k => s.dropCopy c.entry k
  | none =>
    if 64 ≤ (s.ctl d).routed.length then s.dropCopy c.entry 7
    else
      let s := s.setCtl d { s.ctl d with routed := (s.ctl d).routed ++ [{ c with held := shut }] }
      if listed then s.segWake d else s

/-- A copy reaches a LIN commander's buffer of its FID (14 R360, R363). -/
def State.toLin (s : State) (l : Nat) (c : Rtd) : State :=
  let shut := s.segShut (8 + l)
  let listed := (look (fun _ => []) s.brg.wake (8 + l)).contains c.entry
  if shut && !listed then s.dropCopy c.entry 6
  else match s.copyBad c (12 + l) with
  | some k => s.dropCopy c.entry k
  | none =>
    let s := s.setLin l { s.lin l with buf := put (s.lin l).buf c.frame.id { c with held := shut } }
    if listed then s.segWake (8 + l) else s

/-- The copy of a frame for destination `i` of entry `e` (14 R356 step 3, R357 to R361). -/
def State.copyTo (s : State) (e q : Nat) (f : InF) (i : Nat) : State :=
  let r := s.route e
  let d := rtDst r.rcd i
  let did := rtDid r.rcd i
  let mk := fun (g : CanFrame) => ({ entry := e, epoch := r.epoch, src := f.time, frame := g, at_ := s.cyc } : Rtd)
  if d < 12 then
    match convCan q f (rtDfmt r.rcd i % 4) (bit (rtDfmt r.rcd i) 2) did with
    | none => s.dropCopy e 5
    | some g => if (s.protOf d did).isSome then s.dropCopy e 10 else s.toCan d (mk g)
  else if d < 20 then
    (if f.frame.rtr || s.linPubLen (d - 12) did != some f.frame.data.length then s.dropCopy e 5
     else s.toLin (d - 12) (mk { id := did, data := f.frame.data }))
  else
    match s.copyBad (mk { id := did }) 20 with
    | some k => s.dropCopy e k
    | none =>
      if f.frame.rtr then s.dropCopy e 5
      else
        let pdu := s.avtpdu e q f did
        let s := s.setRoute e { r with seq := (r.seq + 1) % 256 }
        ({ s with brg := { s.brg with eth := s.brg.eth ++ [(s.owner 8 e, pdu)] } }).delivered e

/-- The rate bucket of an entry, refilled to now (14 R356). -/
def Route.refill (r : Route) (cyc : Nat) : Route :=
  { r with tokens := Nat.min (r.tokens + (cyc - r.fillAt) * rtRate r.rcd) (rtBurst r.rcd * tokenUnit), fillAt := cyc }

/-- The first non-empty ingress queue after the one looked up last (14 R356). -/
def State.nextQueue (s : State) : Option Nat :=
  ((List.range 21).map fun i => (s.brg.rr + 1 + i) % 21).find? fun q => !(look (fun _ => []) s.brg.inq q).isEmpty

/-- The last lookup lies 20 fabric cycles back (14 R356). -/
def State.lookupDue (s : State) : Bool :=
  match s.brg.lookAt with
  | none => true
  | some t => decide (t + 20 ≤ s.cyc)

/-- BRIDGE_LOOKUP (14 R354 to R357): one queued frame is looked up, 20 fabric cycles after the one before at the earliest. A frame that meets
no enabled entry is discarded. -/
def execBridgeLookup (s : State) : Out :=
  .next (if !s.lookupDue then s else match s.nextQueue with
    | none => s
    | some q =>
      match look (fun _ => []) s.brg.inq q with
      | [] => s
      | f :: rest =>
        let s := { s with brg := { s.brg with inq := put s.brg.inq q rest, rr := q, lookAt := some s.cyc } }
        match s.brg.route.find? fun (p : Nat × Route) => p.2.written && rtEnable p.2.rcd && keyMatch q f p.2.rcd with
        | none => s
        | some (e, _) =>
          let r := (s.route e).refill s.cyc
          let n := (rtDests r.rcd).length
          let dropAll := fun (k : Nat) => (s.setRoute e { s.route e with drop := satAdd 32 (s.route e).drop n }).brgCnt k
          if !s.endOwned (s.owner 8 e) (rtSrc r.rcd) (rtSid r.rcd) (rtVid r.rcd) false then dropAll 4
          else if rtRate r.rcd ≠ 0 ∧ r.tokens < tokenUnit then dropAll 2
          else
            let s := s.setRoute e (if rtRate r.rcd = 0 then r else { r with tokens := r.tokens - tokenUnit })
            (rtDests r.rcd).foldl (fun s i => s.copyTo e q f i) s)

/-- SP19_AVTPDU_RECEIVE (14 R362): an AVTPDU of NTSCF or TSCF leaves the switch at SP19. `good` tells a good AVTP header. -/
def execSp19AvtpduReceive (vid uid : Nat) (good : Bool) (msgs : List Acf) (s : State) : Out :=
  .next (if !s.live || !bit (look (fun _ => ({} : Vlan)) s.net.vlan vid).member 19 then s
    else if !good then s.brgCnt 12
    else
      let s := (msgs.take 8).foldl (fun (s : State) (m : Acf) =>
        if 2 < m.typ ∨ m.frame.rtr then s.brgCnt 12
        else s.offer 20 { fmt := if m.typ = 2 then 1 else 0, frame := m.frame, bus := m.bus, uid := uid, vid := vid,
                          time := if m.mtv && m.typ != 1 then m.time else s.now }) s
      (msgs.drop 8).foldl (fun (s : State) _ => s.brgCnt 13) s)

end Sys2Proof.Machine
end

