-- ==== Sys2Proof/Machine/Key.lean ====
section
/-! DEFINITION. The key store and attestation commands, and how their operations end (19; 05 R131). -/
namespace Sys2Proof.Machine
open Sys2Proof

/-- The usage bits a key type allows (19 R476); none for a type that is not listed. -/
def usageOf (k : Nat) : Nat := if k = 1 ∨ k = 2 ∨ k = 3 then 3 else if k = 4 then 5 else 0

/-- A slot index (05 R131). -/
def slotChk (i : Nat) : Chk := bp (decide (127 < i)) 0x11

/-- Tag 0 or the slot's owner. -/
def State.slotT0Own (s : State) (h : Hdr) (i : Nat) : Chk := den (decide (h.ring ≠ 0 ∧ s.owner 10 i ≠ h.ring)) 0x01

/-- The slot's owner. -/
def State.slotOwn (s : State) (h : Hdr) (i : Nat) : Chk := den (decide (s.owner 10 i ≠ h.ring)) 0x01

/-- OUT of a command (05 R115, R116). -/
def State.outChk (s : State) (h : Hdr) (out outLen need : Nat) : Chk := bp (!s.outOK h.ring out outLen need) 0x10

/-- A change of the tenancy table is to be saved as an NVM request with ORIGIN 4 (18 R458). -/
def State.saveRequest (s : State) : State :=
  s.requestInternal 3 300 0 .save fun s hd => { s with ten := { s.ten with saveH := hd } }

/-- The tenancy table has changed (18 R458): DIRTY, and the save is asked for unless one is asked for or waits its 100 ms. -/
def State.tenChanged (s : State) : State :=
  let s := { s with ten := { s.ten with dirty := true } }
  if s.ten.saveH = noHandle ∧ s.ten.saveAt ≤ s.cyc then s.saveRequest else s

/-! ### Writing, deriving, erasing -/

/-- KEY.WRITE (05 R131; 19 R476, R481, R482). -/
def execKeyWrite (h : Hdr) (addr len slot : Nat) (s : State) : Out :=
  let may := h.ring == 0 || (s.owner 10 slot == h.ring && look (fun _ => false) s.key.permit slot)
  fwCmd h s (s.withDesc h addr len [noEpoch h, slotChk slot, den (!may) 0x01, bp (decide (len ≠ 64)) 0x14] true fun r s =>
    let k := byteAt r 0
    let u := byteAt r 1
    s.guarded h
      [bp (decide (k < 1 ∨ 4 < k ∨ u = 0) || u &&& usageOf k != u) 0x12,
       bp (!allZero (slice r 2 14) || !allZero (slice r 60 4) || (k != 3 && !allZero (slice r 48 12))) 0x13, s.blankChk]
      (s.requestOp h 3 300 (.keyWrite h addr len slot) r))

/-- KEY.DERIVE (05 R131; 19 R486). -/
def execKeyDerive (h : Hdr) (slot ktype : Nat) (label : List Byte) (s : State) : Out :=
  fwCmd h s (s.guarded h
    [noEpoch h, slotChk slot, s.slotT0Own h slot, bp (decide (ktype < 1 ∨ 4 < ktype ∨ 48 < label.length)) 0x12, s.blankChk]
    (s.requestOp h 3 300 (.keyDerive h slot ktype label) []))

/-- KEY.ERASE (05 R131; 19 R483). -/
def execKeyErase (h : Hdr) (slot : Nat) (s : State) : Out :=
  fwCmd h s (s.guarded h [noEpoch h, slotChk slot, s.slotT0Own h slot, s.blankChk] (s.requestOp h 3 300 (.keyErase h slot) []))

/-- KEY.PERMIT (05 R131; 19 R484). -/
def execKeyPermit (h : Hdr) (slot allow : Nat) (s : State) : Out :=
  fwCmd h s (s.guarded h [noEpoch h, slotChk slot, t0 h, bp (decide (1 < allow)) 0x12, s.blankChk]
    (({ s with key := { s.key with permit := put s.key.permit slot (allow == 1) } }).tenChanged.ok h))

/-- The content KEY.DERIVE builds (19 R486). -/
def State.derived (s : State) (slot ktype : Nat) (label : List Byte) : List Byte :=
  let b := fun n => BitVec.ofNat 8 n
  let x := [b (s.owner 10 slot), b slot, b ktype, b label.length] ++ label
  let k := fitTo 44 (kmac256 s.root x (ascii "VZ484 LOCKET") (if ktype = 3 then 44 else 32))
  [b ktype, b (usageOf ktype)] ++ zeros 14 ++ k.take 32 ++ (if ktype = 3 then k.drop 32 else zeros 12) ++ zeros 4

/-- A slot whose rewrite was found wrong twice (19 R482): it reads BAD. What stands in it is left open; only that its code
does not match is fixed. -/
def State.spoilSlot (s : State) (i : Nat) : State :=
  let (k, s) := s.draw
  let a := slotAddr i + 112
  let s := (s.store a [s.byte a ^^^ BitVec.ofNat 8 (1 + k % 255)]).2
  s.checkSlot i

/-- A slot takes its new content (19 R482): OK, or BAD_STATE 0x11 where both checks of the write failed. -/
def State.slotDone (s : State) (h : Hdr) (slot : Nat) (ok : Bool) : State :=
  if ok then s.ok h else (s.spoilSlot slot).fail h .badState 0x11

/-- KEY.WRITE ends (19 R482). -/
def State.keyWriteEnd (s : State) (h : Hdr) (slot : Nat) (content : List Byte) (ok : Bool) : State :=
  (s.writeSlot slot content (s.wcount slot) 1 []).slotDone h slot ok

/-- KEY.DERIVE ends (19 R486). -/
def State.keyDeriveEnd (s : State) (h : Hdr) (slot ktype : Nat) (label : List Byte) (ok : Bool) : State :=
  (s.writeSlot slot (s.derived slot ktype label) (s.wcount slot) 2 (fitTo 4 (shake256 label 64))).slotDone h slot ok

/-- KEY.ERASE ends (19 R483, R490). -/
def State.keyEraseEnd (s : State) (h : Hdr) (slot : Nat) (ok : Bool) : State :=
  ((s.eraseSlot slot).dropCopies slot).slotDone h slot ok

/-! ### Using keys -/

/-- A use of slot `i` by a command that ends at once: its code is checked first (19 R479, R487). -/
def State.useSlot (s : State) (h : Hdr) (i k u : Nat) (g : Nat) (pre : List Chk) (effect : State → State) : State :=
  match firstBad pre with
  | some (st, d, r) => s.fail h st d r
  | none =>
    if s.shutGate g then s.fail h .badState 0x1F
    else
      let s := s.checkSlot i
      s.guarded h (s.useChecks i k u) (effect s)

/-- The 32 key bytes of a slot. -/
def State.keyBytes (s : State) (i : Nat) : List Byte := slice (s.slot0 i) 16 32

/-- A command's output, and RESULT with the bytes written (05 R116). -/
def State.output (s : State) (h : Hdr) (out : Nat) (bs : List Byte) : State := (s.writeOut out bs).ok h bs.length

/-- KEY.AEAD (05 R131; 19 R487, R488). -/
def execKeyAead (h : Hdr) (addr len slot op : Nat) (iv : List Byte) (out outLen : Nat) (s : State) : Out :=
  fwCmd h s (s.withDesc h addr len [noEpoch h, slotChk slot, s.slotOwn h slot] true fun r s =>
    let al := le r 0 2
    let aad := slice r 4 al
    let d := r.drop (4 + al)
    let n := d.length
    let short := decide (r.length < 4 + al) || (op == 1 && decide (n < 16))
    let need := if op = 0 then n + 16 else n - 16
    s.useSlot h slot 1 (if op = 0 then 1 else 2) 2
      [bp (le r 2 2 != 0) 0x01, bp (decide (1 < op)) 0x12, bp short 0x13, s.outChk h out outLen need, s.blankChk]
      fun s =>
        if op = 0 then
          let (c, t) := gcmSeal (s.keyBytes slot) (fitTo 12 iv) aad d
          s.output h out (fitTo n c ++ fitTo 16 t)
        else match gcmOpen (s.keyBytes slot) (fitTo 12 iv) aad (d.take (n - 16)) (d.drop (n - 16)) with
          | some p => s.output h out (fitTo (n - 16) p)
          | none => ({ s with key := { s.key with aeadFail := satAdd 32 s.key.aeadFail 1 } }).fail h .badState 0x13)

/-- KEY.CMAC (05 R131; 19 R489). -/
def execKeyCmac (h : Hdr) (addr len slot out outLen : Nat) (s : State) : Out :=
  fwCmd h s (s.withDesc h addr len [noEpoch h, slotChk slot, s.slotOwn h slot] true fun r s =>
    s.useSlot h slot 2 1 2 [s.outChk h out outLen 16, s.blankChk] fun s =>
      s.output h out (fitTo 16 (aesCmac (s.keyBytes slot) r)))

/-- KEY.SIGN (05 R131; 19 R491, R492). The message is read when the command is applied; the Locket after the grant. -/
def execKeySign (h : Hdr) (addr len slot out outLen : Nat) (s : State) : Out :=
  fwCmd h s (s.withDesc h addr len [noEpoch h, slotChk slot, s.slotOwn h slot] true fun r s =>
    s.guarded h [s.outChk h out outLen 3309, s.blankChk] (s.requestOp h 5 900 (.keySign h addr len slot out outLen) r))

/-- A Signet operation ends: a signature has been made. -/
def State.signed (s : State) : State := { s with key := { s.key with signCnt := satAdd 32 s.key.signCnt 1 } }

/-- KEY.SIGN ends (19 R492). -/
def State.keySignEnd (s : State) (h : Hdr) (o : Op) (out : Nat) : State :=
  s.signed.output h out (fitTo 3309 (dsaSign o.key (pureMsg [] o.data)))

/-- KEY.VERIFY (05 R131; 19 R492). -/
def execKeyVerify (h : Hdr) (addr len : Nat) (s : State) : Out :=
  fwCmd h s (s.withDesc h addr len [noEpoch h] (decide (5261 ≤ len)) fun r s =>
    s.guarded h [s.blankChk, bst (s.shutGate 1) 0x1F]
      (({ s with key := { s.key with verCnt := satAdd 32 s.key.verCnt 1 } }).ok h
        (b2n (dsaVerify (r.take 1952) (pureMsg [] (r.drop 5261)) (slice r 1952 3309)))))

/-- KEY.PUBKEY (05 R131; 19 R492). -/
def execKeyPubkey (h : Hdr) (out outLen slot : Nat) (s : State) : Out :=
  fwCmd h s (s.useSlot h slot 4 4 1
    [noEpoch h, slotChk slot, s.slotOwn h slot, s.outChk h out outLen 1952, s.blankChk] fun s =>
      s.output h out (fitTo 1952 (dsaPublic (s.keyBytes slot))))

/-! ### Attestation -/

/-- In BLANK and RETIRED no attestation key exists (05 R131). -/
def State.attestChk (s : State) : Chk := bst (decide (s.sys.lcCur = 0 ∨ s.sys.lcCur = 5)) 0x10

/-- ATTEST.REPORT (05 R131; 19 R496). -/
def execAttestReport (h : Hdr) (out outLen : Nat) (nonce : List Byte) (s : State) : Out :=
  fwCmd h s (s.guarded h [noEpoch h, s.outChk h out outLen 4016, s.attestChk]
    (s.requestOp h 5 900 (.attestReport h out outLen nonce) []))

/-- ATTEST.REPORT ends (19 R494, R496, R497): TIME is the capture instant. -/
def State.attestEnd (s : State) (h : Hdr) (o : Op) (out : Nat) : State :=
  let sig := fitTo 3309 (dsaSign s.attestSeed (pureMsg (ascii "VZ484-HALLMARK") o.key))
  (s.signed.writeOut out (o.key ++ sig ++ zeros 3)).replyAt h .ok 0 4016 o.t true

/-- ATTEST.EXTEND (05 R131; 19 R495). -/
def execAttestExtend (h : Hdr) (len : Nat) (data : List Byte) (s : State) : Out :=
  fwCmd h s (s.guarded h [noEpoch h, bp (!allZero (data.drop len)) 0x01, bp (decide (len < 1 ∨ 48 < len)) 0x12, s.blankChk]
    (let b := fun n => BitVec.ofNat 8 n
     let s := s.extend 7 (shake256 ([7, b h.ring, b len] ++ data.take len) 64)
     (({ s with sys := { s.sys with ext7 := satAdd 16 s.sys.ext7 1 } }).recapture).ok h))

/-- ATTEST.IDENTITY (05 R131; 19 R494). -/
def execAttestIdentity (h : Hdr) (out outLen : Nat) (s : State) : Out :=
  fwCmd h s (s.guarded h [noEpoch h, s.outChk h out outLen 1952, s.attestChk, bst (s.shutGate 1) 0x1F]
    (({ s with key := { s.key with idKey := true } }).output h out (fitTo 1952 (dsaPublic s.attestSeed))))

end Sys2Proof.Machine
end

