-- ==== Sys2Proof/Machine/FaultCmd.lean ====
section
/-! DEFINITION. The fault collector's commands and events, device safe state, the log mirror, the event lines and the fault
signals at the contacts (21; 05 R132). -/
namespace Sys2Proof.Machine
open Sys2Proof

/-! ### Configuration, injection and the log -/

/-- A fault source number (21 R519). -/
def srcChk (n : Nat) : Chk := bp (srcRow n).isNone 0x11

/-- FAULT.CFG (05 R132; 21 R520). -/
def execFaultCfg (h : Hdr) (src sev event line : Nat) (s : State) : Out :=
  let low := ((srcRow src).map fun r => r.2.1).getD 0
  fwCmd h s (s.guarded h
    [noEpoch h, srcChk src, t0 h, bp (decide (3 < sev ∨ 1 < event ∨ 511 < line)) 0x12, bp (decide (sev < low)) 0x14]
    (({ s with flt := { s.flt with cfg := put s.flt.cfg src { sev := sev, ev := event == 1, line := line } } }).ok h))

/-- FAULT.LOGCLR (05 R132; 21 R534): its change passes admission as an NVM request. -/
def execFaultLogclr (h : Hdr) (count : Nat) (s : State) : Out :=
  fwCmd h s (s.guarded h [noEpoch h, t0 h] (s.requestOp h 3 300 (.faultLogclr h count) []))

/-- SEV and FLAGS of a log entry (21 R530). -/
def LogEnt.flags (e : LogEnt) : Nat :=
  e.sev + b2n e.inj * 4 + b2n e.restored * 8 + b2n e.pending * 16 + b2n e.done * 32 + b2n e.preempted * 64

/-- A log entry from byte 4 on (21 R530). -/
def LogEnt.body (e : LogEnt) : List Byte :=
  [BitVec.ofNat 8 e.src, BitVec.ofNat 8 e.flags] ++ toLE 2 e.count ++ toLE 8 e.tfirst ++ toLE 4 e.tlast ++ toLE 4 e.info ++
    toLE 4 e.seq ++ toLE 2 e.starts ++ [0, 0]

/-- The log mirror in eMRAM (21 R533): the entry units, then the header. -/
def State.mirrorLog (s : State) : State :=
  let f := s.flt
  let ents := (f.log.map fun (e : LogEnt) => zeros 4 ++ e.body).flatten
  let head := fitTo 64 (toLE 4 0x474F4C46 ++ toLE 4 f.seq ++ toLE 4 f.lost ++ [BitVec.ofNat 8 f.log.length])
  let s := if ents.isEmpty then s else (s.store 0x22370040 ents).2
  let s := (s.store 0x22370000 head).2
  { s with flt := { s.flt with dirty := false } }

/-- FAULT.LOGCLR ends (21 R521, R534): the oldest COUNT entries, 0 for all, leave the log and the mirror. -/
def State.logclrEnd (s : State) (h : Hdr) (count : Nat) : State :=
  let l := if count = 0 then [] else s.flt.log.drop count
  let s := { s with flt := { s.flt with log := l, degr := s.flt.degr && l.any fun (e : LogEnt) => decide (1 ≤ e.sev) } }
  s.mirrorLog.ok h

/-- FAULT_LOG_MIRROR (21 R533). -/
def execFaultLogMirror (s : State) : Out := .next (if s.live && s.flt.dirty then s.mirrorLog else s)

/-! ### Reactions, holds and device safe state -/

/-- Class of a source. -/
def srcClass (n : Nat) : SrcClass := ((srcRow n).map fun r => r.2.2.2).getD .none

/-- The log entry of a raise changed. -/
def State.setLog (s : State) (src info : Nat) (f : LogEnt → LogEnt) : State :=
  { s with flt := { s.flt with log := updFirst (fun (e : LogEnt) => e.src == src && e.info == info) f s.flt.log, dirty := true } }

/-- The reaction in progress has reached its units (21 R522, R529). -/
def State.reactionDone (s : State) : State :=
  match s.flt.cur with
  | none => s
  | some (src, info) =>
    let s := s.setLog src info fun e => { e with done := true }
    { s with flt := { s.flt with cur := none } }

/-- FAULT_REACTION_START (21 R522, R529): the oldest waiting CH, CAN or ISO reaction starts; the one before it has reached its
units. An injected one names no unit (R538). -/
def execFaultReactionStart (s : State) : Out :=
  .next (match s.flt.waiting with
    | [] => s
    | (src, info) :: rest =>
      if !s.live then s else
      let s := s.reactionDone
      let s := { s with flt := { s.flt with waiting := rest, cur := some (src, info), curAt := s.cyc } }
      let s := s.setLog src info fun e => { e with pending := false }
      let c := srcClass src
      let s := if c == .ch || c == .can then
          { s with flt := { s.flt with holds := if s.flt.holds.contains (src, info) then s.flt.holds else s.flt.holds ++ [(src, info)] } } else s
      if c == .ch then
        ((List.range 40).filter fun n => s.srcCovers src info n).foldl (fun s n => s.holdCh n (.src src)) s
      else if c == .can then s.holdCan info
      else if info = 0xFFFFFFFF then s
      else (s.isoOff fun n => src == 0x74 || info % 16 == n).syncIso)

/-- Channels and controllers leave the holds of a source, or of device safe state (09 R236; 12 R304). -/
def State.releaseHolds (s : State) (drop : HoldBy → Bool) : State :=
  let s := (List.range 40).foldl (fun s n => s.unholdCh n drop) s
  ((List.range 20).foldl (fun s c => s.unholdCan c) s).settle.syncPdies

/-- FAULT.RELEASE (05 R132; 21 R523). -/
def execFaultRelease (h : Hdr) (src : Nat) (s : State) : Out :=
  let f := s.flt
  let cls := srcClass src
  let mine := fun (p : Nat × Nat) => p.1 == src
  let held := f.holds.any mine
  let wait := (cls == .ch || cls == .can) && f.waiting.any mine
  fwCmd h s (s.guarded h
    [noEpoch h, srcChk src, t0 h, bst (s.condActive src) 0x13, bst (!held && !wait) 0x14]
    (let s := if wait then
        (let s := (f.waiting.filter mine).foldl (fun s (p : Nat × Nat) => s.setLog p.1 p.2 fun e => { e with pending := false }) s
         { s with flt := { s.flt with waiting := s.flt.waiting.filter fun p => !mine p } }) else s
     let s := { s with flt := { s.flt with holds := s.flt.holds.filter fun p => !mine p } }
     (s.releaseHolds (· == .src src)).ok h))

/-- SAFE_LINE_DEMAND (21 R524): the SAFE line is driven; channels, isolated outputs, CAN controllers and LIN commanders take
their safe values. -/
def State.driveSafe (s : State) : State :=
  let s := { s with flt := { s.flt with safe := true, safeReq := false } }
  let s := (List.range 40).foldl (fun s n => s.holdCh n .safe) s
  let s := (s.isoOff fun _ => true).syncIso
  ((List.range 20).foldl (fun s c => s.holdCan c) s).settle

/-- SAFE_LINE_DEMAND (21 R524). -/
def execSafeLineDemand (s : State) : Out := .next (if s.flt.safeReq then s.driveSafe else s)

/-- A condition source set to S3 is active (21 R527). -/
def State.s3Active (s : State) : Bool := srcTable.any fun r => (s.srcCfg r.1).sev == 3 && s.condActive r.1

/-- FAULT.RECOVER (05 R132; 21 R527). -/
def execFaultRecover (h : Hdr) (s : State) : Out :=
  fwCmd h s (s.guarded h [noEpoch h, t0 h, bst s.s3Active 0x10, bst (!s.flt.safe) 0x11]
    (let gone := s.flt.holds.filter fun p => !s.srcActive p.1
     let left := s.flt.holds.filter fun p => s.srcActive p.1
     let s := { s with flt := { s.flt with safe := false, safeReq := false, latch := false, holds := left },
                       fab := { s.fab with initHold := false } }
     (s.releaseHolds fun b => b == .safe || gone.any fun (p : Nat × Nat) => b == .src p.1).ok h))

/-- FAULT_N is driven low (21 R535): until t3, in device safe state, and while an S2 hold stands; it is high impedance in module sleep
and without supply (02 R48). -/
def State.faultN (s : State) : Bool :=
  decide (s.sys.pwr = .starting ∨ s.sys.pwr = .valid) && (decide (s.sys.boot < 3) || s.flt.safe || !s.flt.holds.isEmpty)

/-! ### Signals at the contacts -/

/-- SAFE_N_CHANGE (21 R536): SAFE_N has been low, or high, for 1 us. -/
def execSafeNChange (low : Bool) (s : State) : Out :=
  .next (if s.sys.boot < 2 then s else ({ s with flt := { s.flt with safeLow := low } }).condition 0x03 0 low)

/-- SYS.WDI (05 R118; 21 R537). -/
def execSysWdi (h : Hdr) (enable tmax tmin : Nat) (s : State) : Out :=
  fwCmd h s (s.guarded h
    [noEpoch h, t0 h, bp (decide (enable ≠ 1 ∨ tmax < 100 ∨ 1000000 < tmax ∨ tmax < 2 * tmin)) 0x12, bst s.flt.wdi 0x10]
    (({ s with flt := { s.flt with wdi := true, wdiMax := tmax, wdiMin := tmin, wdiAt := s.cyc, wdiPrev := none } }).ok h))

/-- WDI_TOGGLE (21 R537). -/
def execWdiToggle (s : State) : Out :=
  .next (if !s.flt.wdi then s
    else
      let early := match s.flt.wdiPrev with
        | some p => decide (s.cyc < p + usCyc s.flt.wdiMin)
        | none => false
      let s := { s with flt := { s.flt with wdiPrev := some s.cyc, wdiAt := s.cyc } }
      if early then s.raise 0x04 1 else s)

/-- WDI_TIMEOUT (21 R537): one more TMAX has passed without a toggle. -/
def execWdiTimeout (s : State) : Out :=
  .next (let next := s.flt.wdiAt + usCyc s.flt.wdiMax
    if s.flt.wdi ∧ next ≤ s.cyc then ({ s with flt := { s.flt with wdiAt := next } }).raise 0x04 0 else s)

/-- CLK_LOSS (02 R51; 21 R564; 22 R561): the chosen source is lost. The device never switches to the other source; a loss before t3 is
raised at t3. The condition ends where the clock is chosen anew, at the next rise of the rails. -/
def execClkLoss (s : State) : Out := .next (if s.sys.clkSrc = .unset then s else s.condition 0x02 0 true)

/-- CDIE_OVERTEMP (21 R519): the C-die junction at `temp` C crosses 160 C, or falls back below 150 C. -/
def execCdieOvertemp (temp : Int) (s : State) : Out :=
  .next (if !s.live then s
    else if 160 ≤ temp then s.condition 0x07 0 true else if temp < 150 then s.condition 0x07 0 false else s)

/-- The watchdog of a unit pauses (18 R464, R469): the unit is halted, or it is a real-time pair whose clock is cut. -/
def State.dogPaused (s : State) (unit : Nat) : Bool := s.dbg.halted.contains unit || ((unit == 0x11 || unit == 0x12) && s.cut (unit - 9))

/-- RT_PAIR_FAULT (21 R519, R522): lockstep (kind 0) or watchdog (kind 1) of pair `k`. -/
def execRtPairFault (k kind : Nat) (s : State) : Out :=
  unitEvent (decide (k < 3)) (if !s.live || (kind == 1 && s.dogPaused (0x10 + k)) then s else if k = 0 then s.raise 0x05 kind else s.raise 0x06 k)

/-- A header of a command that has been answered: no unit answers it again. -/
def Hdr.answered (l : List (Nat × Nat)) (h : Hdr) : Hdr := if l.contains (h.ring, h.ctag) then { h with ring := 16 } else h

/-- A waiting command whose header has been answered. -/
def answerLater (f : Hdr → Hdr) : Instr → Instr
  | .keoreForce h a b c => .keoreForce (f h) a b c
  | .keoreUnforce h a => .keoreUnforce (f h) a
  | .keoreStop h => .keoreStop (f h)
  | i => i

/-- The units forget the commands of `l`, whose completions Halyard has written itself (04 R103). -/
def State.forget (s : State) (l : List (Nat × Nat)) : State :=
  let f := Hdr.answered l
  let obj := s.can.obj.map fun (p : Nat × CObj) =>
    (p.1, { p.2 with h := p.2.h.map f, later := p.2.later.map fun q => (q.1.map f, q.2), role := p.2.role.map fun q => { q with h := f q.h } })
  let ctl := s.can.ctl.map fun (p : Nat × Ctl) => (p.1, { p.2 with wantH := p.2.wantH.map f })
  let seg := s.wake.seg.map fun (p : Nat × Seg) => (p.1, { p.2 with xh := p.2.xh.map f })
  let gate := s.ten.gate.map fun (p : Nat × Gate) => (p.1, { p.2 with pend := p.2.pend.map f })
  let iso := s.iso.ch.map fun (p : Nat × IsoCh) => (p.1, { p.2 with wait := p.2.wait.filter fun w => !l.contains (w.1, w.2.1) })
  let chan := s.lch.chan.map fun (p : Nat × Chan) =>
    (p.1, { p.2 with cap := match p.2.cap with
                       | some k => if l.contains (k.tag, k.ctag) then none else some k
                       | none => none })
  { s with can := { s.can with obj := obj, ctl := ctl }, iso := { s.iso with ch := iso, wr := s.iso.wr.map fun w => { w with h := w.h.map f } }, lch := { s.lch with chan := chan },
           wake := { s.wake with seg := seg, h := s.wake.h.map f, ind := s.wake.ind.map fun (i : Ind) => { i with h := f i.h } },
           ten := { s.ten with gate := gate, bezQ := s.ten.bezQ.map fun (q : Hdr × Nat × Bezel) => (f q.1, q.2), fill := s.ten.fill.map fun (x : BezFill) => { x with h := f x.h } },
           keo := { s.keo with startH := s.keo.startH.map f, stopH := s.keo.stopH.map f,
                               x := { s.keo.x with h := f s.keo.x.h, later := s.keo.x.later.map (answerLater f) } },
           net := { s.net with wakeOps := s.net.wakeOps.map fun (w : Nat × Hdr × Nat) => (w.1, f w.2.1, w.2.2) },
           sys := { s.sys with profCmd := s.sys.profCmd.map f, rstWait := s.sys.rstWait.map fun (p : Nat × Hdr) => (p.1, f p.2) },
           fb := { s.fb with pollNew := s.fb.pollNew.map fun p => (f p.1, p.2) },
           hal := { s.hal with mpq := [], ops := s.hal.ops.filter fun (o : Op) => !l.contains (o.h.ring, o.h.ctag) } }

/-- MP_FAULT (04 R103): Halyard completes every firmware command in flight with FAULT 0x02. -/
def execMpFault (kind : Nat) (s : State) : Out :=
  .next (if !s.live || (kind == 1 && s.dogPaused 0x20) then s
    else
      let l := s.hal.inflight.filter fun (e : InFl) => e.fw && e.st != 7
      let s := s.forget (l.map fun e => (e.ring, e.ctag))
      let s := { s with hal := { s.hal with mpFault := true } }
      let s := l.foldl (fun s (e : InFl) => s.fail { ring := e.ring, ctag := e.ctag, irq := e.irq } .fault 0x02) s
      s.raise 0x01 kind)

/-! ### Event lines -/

/-- Event line `n`. -/
def State.evLine (s : State) (n : Nat) : EvLine := look (fun _ => {}) s.flt.line n

/-- Event line `n` changed. -/
def State.setEv (s : State) (n : Nat) (x : EvLine) : State := { s with flt := { s.flt with line := put s.flt.line n x } }

/-- EVREJ rises (21 R540). -/
def State.evReject (s : State) : State := { s with flt := { s.flt with evRej := satAdd 32 s.flt.evRej 1 } }

/-- Function of a pin (02 R46). -/
def State.pinFunc (s : State) (p : Nat) : Nat := (look (fun _ => ({} : Pin)) s.sys.pins p).func

/-- A CFG value passes the checks of 21 R540 for a line of owner `own`. -/
def State.evCfgOk (s : State) (own v : Nat) : Bool :=
  let kind := v % 8
  let idx := bits v 15 8
  decide (v < 2 ^ 17) && bits v 7 3 == 0 &&
    (if kind = 0 then idx == 0
     else if kind = 1 then decide (idx < 64)
     else if kind = 2 then decide (idx < 3) && s.rtTagOf idx == own
     else if kind = 3 then decide (idx < 64) && s.owner 1 idx == own
     else if kind = 4 then decide (idx < 32) && s.owner 2 idx == own
     else if kind = 5 then idx == 0 && own == 0
     else false)

/-- A write to a line's registers: only the owner and tag 0 may (21 R540). -/
def State.evWrite (s : State) (tag n : Nat) (effect : State) : State :=
  if tag = 0 ∨ s.owner 11 n = tag then effect else s.evReject

/-- EVENT_CFG_WRITE (21 R540). -/
def execEventCfgWrite (ini tag n value : Nat) (s : State) : Out :=
  unitEvent (decide (n < 512)) (if !s.live || !s.presents ini tag then s else s.evWrite tag n
    (if s.evCfgOk (s.owner 11 n) value then s.setEv n { s.evLine n with cfg := value } else s.evReject))

/-- EVENT_PEND_CLEAR (21 R540): PEND is write-1-to-clear. -/
def execEventPendClear (ini tag n value : Nat) (s : State) : Out :=
  unitEvent (decide (n < 512)) (if !s.live || !s.presents ini tag then s else s.evWrite tag n
    (if bit value 0 then s.setEv n { s.evLine n with pend := false } else s))

/-- EVENT_SWTRIG (21 R540). -/
def execEventSwtrig (ini tag n value : Nat) (s : State) : Out :=
  unitEvent (decide (n < 512)) (if !s.live || !s.presents ini tag then s else s.evWrite tag n (if bit value 0 then s.pulse n else s))

/-- The target of a pulse is still the line's (21 R540). -/
def State.evTargetOk (s : State) (n : Nat) : Bool :=
  let v := (s.evLine n).cfg
  let own := s.owner 11 n
  let idx := bits v 15 8
  if v % 8 = 2 then s.rtTagOf idx == own
  else if v % 8 = 3 then s.owner 1 idx == own
  else if v % 8 = 4 then s.owner 2 idx == own && s.pinFunc idx == 0
  else true

/-- EVENT_PULSE (21 R540, R541): the producers of one cycle on line `n` give one pulse. -/
def execEventPulse (n : Nat) (s : State) : Out :=
  unitEvent (decide (n < 512))
    (let k := (s.flt.pulses.filter (· == n)).length
     if k = 0 then s
     else
       let x := s.evLine n
       let f := { s.flt with pulses := s.flt.pulses.filter (· != n), evMerge := satAdd 32 s.flt.evMerge (k - 1) }
       let y := { x with cnt := (x.cnt + 1) % 2 ^ 32, pend := x.pend || bit x.cfg 16 }
       let s := ({ s with flt := f }).setEv n y
       if !s.evTargetOk n then s.evReject
       else if x.cfg % 8 = 4 then s.setEv n { y with drove := s.cyc + 1 }
       else s)

end Sys2Proof.Machine
end

