-- ==== Sys2Proof/Machine/Rings.lean ====
section
/-! DEFINITION. Halyard rings: doorbells, attach and detach, and the publication of completions (04 R80 to R88, R107 to
R109). -/
namespace Sys2Proof.Machine
open Sys2Proof

/-- Bytes of a ring area of `n` entries (04 R81). -/
def areaLen (n : Nat) : Nat := 80 * n + 64

/-- Every page of a ring area lies in memory that its tag may read and write (04 R82); regions and Bezel ranges are whole pages
and the area starts on one. -/
def State.areaOK (s : State) (tag base len : Nat) : Bool :=
  (List.range (ceilDiv len 4096)).all fun i =>
    s.mayReach halyardIni tag 0 (base + 4096 * i) && s.mayReach halyardIni tag 1 (base + 4096 * i)

/-- A write of Halyard into the area of ring `n` (04 R83): it presents the ring's tag, and one that is refused changes nothing and is
recorded. -/
def State.ringWrite (s : State) (n a : Nat) (bs : List Byte) : State :=
  if s.spanOK halyardIni n 1 a bs.length then s.writeOut a bs else s.violate halyardIni n 1 a

/-- The control block written (04 R81): CMD_HEAD, CPL_TAIL, and zeros. -/
def State.writeControl (s : State) (n : Nat) : State :=
  let r := s.ring n
  s.ringWrite n (r.base + 80 * r.entries) (toLE 4 r.cmdHead ++ toLE 4 r.cplTail ++ zeros 56)

/-- Code of a status (04 R93). -/
def Status.code : Status → Nat
  | .ok => 0x00 | .accepted => 0x01 | .busy => 0x10 | .denied => 0x20 | .badParam => 0x21 | .badState => 0x22
  | .roleChanged => 0x23 | .deferred => 0x30 | .refused => 0x31 | .fault => 0x40 | .timeout => 0x41 | .unsupported => 0x50

/-- A completion entry (04 R92). -/
def Cpl.bytes (c : Cpl) : List Byte :=
  toLE 2 c.ctag ++ [BitVec.ofNat 8 c.status.code, BitVec.ofNat 8 c.detail] ++ toLE 8 c.result ++ toLE 4 c.time

/-- Publishes the oldest completion that has fallen due on a ring (04 R88): the entry, CPL_TAIL in the control block and the
mirror, then the event line. A final one releases its in-flight entry. -/
def State.publish (s : State) (n : Nat) : State :=
  let r := s.ring n
  match s.hal.due.find? fun (c : Cpl) => c.ring == n with
  | none => s
  | some c =>
    if r.st = 0 ∨ r.entries ≤ idx r.cplTail r.cplHead then s
    else
      let s := { s with hal := { s.hal with due := dropFirst (fun (c : Cpl) => c.ring == n) s.hal.due } }
      let s := s.ringWrite n (r.base + 64 * r.entries + 16 * (r.cplTail % r.entries)) c.bytes
      let s := (s.setRing n { s.ring n with cplTail := (r.cplTail + 1) % 2 ^ 32 }).writeControl n
      let s := if c.irq then s.pulse r.line else s
      if c.final then s.release n c.ctag c.dup else s

/-- Publishes what has a free slot. -/
def State.publishAll (s : State) (n : Nat) : Nat → State
  | 0 => s
  | fuel + 1 => (s.publish n).publishAll n fuel

/-- COMPLETION_PUBLISH (04 R88). -/
def execCompletionPublish (ring : Nat) (s : State) : Out := unitEvent (decide (ring < 16)) (if s.live then s.publish ring else s)

/-- A doorbell write of ring `n` by initiator `ini` under `tag` (04 R80; 01 R16): any other tag's is refused and counted. -/
def State.doorbell (s : State) (ini tag n : Nat) (effect : State) : State :=
  if !s.live || !s.presents ini tag then s
  else if tag ≠ n then s.setRing n { s.ring n with rejCnt := satAdd 32 (s.ring n).rejCnt 1 }
  else effect

/-- STAT.ERR takes a code (04 R109). -/
def State.ringErr (s : State) (n e : Nat) : State := s.setRing n { s.ring n with err := e }

/-- CMD_DB (04 R86). -/
def execCmdDb (ini tag n value : Nat) (s : State) : Out :=
  unitEvent (decide (n < 16)) (s.doorbell ini tag n
    (let r := s.ring n
     if r.st ≠ 1 then s.ringErr n 7
     else if idx value r.cmdHead ≤ r.entries ∧ idx value r.cmdTail ≤ r.entries then s.setRing n { r with cmdTail := value % 2 ^ 32 }
     else (s.ringErr n 1).raise 0x20 n))

/-- CPL_DB (04 R86). -/
def execCplDb (ini tag n value : Nat) (s : State) : Out :=
  unitEvent (decide (n < 16)) (s.doorbell ini tag n
    (let r := s.ring n
     if r.st ≠ 1 then s.ringErr n 7
     else if idx value r.cplHead ≤ idx r.cplTail r.cplHead then s.setRing n { r with cplHead := value % 2 ^ 32 }
     else (s.ringErr n 1).raise 0x20 n))

/-- RING_ATTACH (04 R82, R108): a write of ATTACH_CTL with OP 0b01. -/
def execRingAttach (ini tag n size hi : Nat) (s : State) : Out :=
  unitEvent (decide (n < 16)) (s.doorbell ini tag n
    (let r := s.ring n
     let base := hi % 256 * 2 ^ 32 + r.baseLo / 4096 * 4096
     if !r.enabled then s.ringErr n 5
     else if r.st ≠ 0 then s.ringErr n 3
     else if size < 4 ∨ 10 < size then s.ringErr n 4
     else if !s.areaOK n base (areaLen (2 ^ size)) then s.ringErr n 2
     else
       let s := { s with hal := { s.hal with due := s.hal.due.filter fun (c : Cpl) => c.ring != n } }
       (s.setRing n { r with st := 1, size := size, err := 0, base := base, cmdHead := 0, cmdTail := 0, cplHead := 0, cplTail := 0,
                             stopped := false }).writeControl n))

/-- A ring leaves ATTACHED (04 R84): the completions that wait for a slot are discarded and their entries released. -/
def State.detach (s : State) (n : Nat) : State :=
  let s := s.publishAll n s.hal.due.length
  let gone := s.hal.due.filter fun (c : Cpl) => c.ring == n
  let s := { s with hal := { s.hal with due := s.hal.due.filter fun (c : Cpl) => c.ring != n } }
  let s := s.setRing n { s.ring n with st := 2 }
  (gone.foldl (fun s (c : Cpl) => if c.final then s.release n c.ctag c.dup else s) s).drained n

/-- RING_DETACH (04 R84): a write of ATTACH_CTL with OP 0b10. -/
def execRingDetach (ini tag n : Nat) (s : State) : Out :=
  unitEvent (decide (n < 16)) (s.doorbell ini tag n (if (s.ring n).st = 1 then s.detach n else s.ringErr n 7))

end Sys2Proof.Machine
end

