-- ==== Sys2Proof/Machine/Tenancy.lean ====
section
/-! DEFINITION. Tenancy: resources changing hands, Bezels, ring configuration, Clasps, gates and the tenancy table (18 R452 to
R465; 05 R128 to R130; 02 R46). -/
namespace Sys2Proof.Machine
open Sys2Proof

/-! ### The tenancy table -/

/-- The save has its grant. -/
def State.saveGranted (s : State) : Bool :=
  match s.handleIdx s.ten.saveH with
  | some i => (s.admEnt i).st == 2
  | none => false

/-- TENANCY_TABLE_SAVE (18 R458): the granted save writes the table; a save that did not get its leave is asked for again after
100 ms. -/
def execTenancyTableSave (s : State) : Out :=
  .next (if !s.mpUp || !s.ten.dirty then s
    else if s.saveGranted then
      let t := s.ten
      let cl := t.clasp.map fun (p : Nat × Clasp) =>
        (p.1, { (({} : Clasp)) with ex := p.2.ex, tagA := p.2.tagA, tagB := p.2.tagB, evA := p.2.evA, evB := p.2.evB })
      (({ s with ten := { t with svOwn := t.own, svBez := t.bez, svClasp := cl, svPermit := s.key.permit, dirty := false, saveH := noHandle } }).freeHandle t.saveH).settle
    else if s.ten.saveH = noHandle ∧ s.ten.saveAt ≤ s.cyc then s.saveRequest else s)

/-! ### TEN.ASSIGN -/

/-- The gates that exist (18 R463). -/
def gateExists (g : Nat) : Bool :=
  ([1, 2, 8, 9, 0x10, 0x11, 0x58, 0x60, 0x61] : List Nat).contains g || (decide (0x20 ≤ g) && decide (g ≤ 0x2B)) ||
    (decide (0x30 ≤ g) && decide (g ≤ 0x37)) || (decide (0x40 ≤ g) && decide (g ≤ 0x4D)) || (decide (0x50 ≤ g) && decide (g ≤ 0x53))

/-- A unit of KIND exists (05 R129). -/
def unitExists (kind i : Nat) : Bool :=
  match kind with
  | 1 => decide (i < 64) | 2 => decide (i < 32) | 3 => decide (i < 40) | 4 => decide (i < 2048) | 5 => decide (i < 512)
  | 6 => decide (i < 8) | 7 => decide (1 ≤ i) && decide (i ≤ 4094) | 8 => decide (i < 4096) | 9 => decide (i < 1024)
  | 10 => decide (i < 128) | 11 => decide (i < 512) | 12 => gateExists i | 13 => decide (i < 16) | _ => false

/-- KINDs whose units carry one epoch that the command checks (05 R129). -/
def epochKind (k : Nat) : Bool := k == 3 || k == 8 || k == 9

/-- Epoch of a unit of KIND, as commands carry it (04 R104). -/
def State.unitEpoch (s : State) (kind i : Nat) : Nat :=
  if kind = 3 then s.chEpoch i
  else if kind = 4 then (s.cobj i).epoch
  else if kind = 5 then (s.cobj (2048 + i)).epoch
  else if kind = 8 then (s.route i).epoch
  else if kind = 9 then (s.sent i).epoch
  else 0

/-- A DMA channel (01 R12). -/
def State.dma (s : State) (n : Nat) : Dma := look (fun _ => {}) s.ten.dma n

/-- The condition a moving unit meets (05 R129). -/
def State.unitFree (s : State) (kind i : Nat) : Bool :=
  if kind = 1 then !(s.dma i).en
  else if kind = 3 then (s.chan i).st == .off && !s.bonded i
  else if kind = 4 then !(s.cobj i).en
  else if kind = 5 then !(s.cobj (2048 + i)).en
  else if kind = 6 then !(s.lin i).run
  else if kind = 9 then (s.sent i).st != 2
  else if kind = 12 then (s.gate i).pend.isEmpty
  else if kind = 13 then !s.isoOn i
  else true

/-- A unit as it stands after it has moved (18 R456; 02 R46). -/
def State.cleared (s : State) (kind i : Nat) : State :=
  if kind = 1 then { s with ten := { s.ten with dma := put s.ten.dma i {} } }
  else if kind = 2 then { s with sys := { s.sys with pins := put s.sys.pins i {} } }
  else if kind = 3 then
    (s.setChan i { s.chan i with cfg := chanRecDefault, retry := 0, refCnt := 0, epoch := ((s.chan i).epoch + 1) % 65536 }).syncCh i
  else if kind = 4 then s.newRole i false false 0 0 0
  else if kind = 5 then s.newRole (2048 + i) false false 0 0 0
  else if kind = 6 then s.setLin i { s.lin i with rcd := [] }
  else if kind = 7 then
    { s with net := { s.net with vlan := del s.net.vlan i, fdb := s.net.fdb.filter fun (p : Nat × Fdb) => p.2.vid != i } }
  else if kind = 8 then s.writeRoute i (zeros 48) false
  else if kind = 9 then s.setSent i { epoch := ((s.sent i).epoch + 1) % 65536 }
  else if kind = 10 then
    let s := (s.eraseSlot i).dropCopies i
    { s with key := { s.key with permit := del s.key.permit i } }
  else if kind = 11 then
    let s := s.setEv i { s.evLine i with cfg := 0 }
    { s with hal := { s.hal with rings := s.hal.rings.map fun (p : Nat × Ring) => (p.1, if p.2.line = i then { p.2 with line := 0xFFFF } else p.2) } }
  else if kind = 13 then
    (s.setIsoCh i { s.isoCh i with mode := 3, deb := 0, cmd := false, filt := none, unset := false, mism := false, cause := 0 }).syncIso
  else s

/-- A transmit object whose frame is on the bus (12 R312). -/
def State.onAir (s : State) (kind i : Nat) : Bool := kind == 5 && (s.cobj (2048 + i)).st == 2

/-- A unit moves to TAG; an ACTIVE transmit object once its frame has ended (12 R312). -/
def State.moveUnit (s : State) (h : Hdr) (kind tag i : Nat) : State :=
  if s.onAir kind i then
    let x := s.cobj (2048 + i)
    s.setCobj (2048 + i) { x with role := x.role ++ [{ h := h, owner := some tag }] }
  else (s.cleared kind i).setOwner kind i tag

/-- The epoch that TEN.ASSIGN answers for a single reassignable unit (05 R128; 04 R104, R105), a CAN object among them. -/
def State.assignResult (s : State) (kind index count : Nat) : Nat :=
  if epochKind kind || (decide (kind = 4 ∨ kind = 5) && count == 1) then s.unitEpoch kind index else 0

/-- The units move, reaching the companion die that holds them (20 R511). The command waits while a transmit object is ACTIVE. -/
def State.assign (s : State) (h : Hdr) (kind tag index count : Nat) (l : List Nat) : State :=
  let i := l.headD 0
  let air := l.any (s.onAir kind)
  let effect :=
    let s := l.foldl (fun s i => s.moveUnit h kind tag i) s
    let s := if l.isEmpty then s else s.tenChanged
    if air then s.waits h else s.ok h (s.assignResult kind index count)
  if l.isEmpty then effect
  else if kind = 3 then s.farWrite h (1 + chDie i) (cmdAddr i) 0x20 effect
  else if kind = 13 then s.farWrite h 3 (isoAddr i) 0x20 effect
  else effect

/-- TEN.ASSIGN (05 R128, R129; 18 R456). -/
def execTenAssign (h : Hdr) (kind tag index count : Nat) (s : State) : Out :=
  let known := decide (1 ≤ kind ∧ kind ≤ 13)
  let units := (List.range (if epochKind kind then 1 else Nat.max 1 count)).map (index + ·)
  let moving := units.filter fun i => s.owner kind i != tag
  let e := s.unitEpoch kind index
  fwCmd h s (s.guarded h
    [bp (known && !units.all (unitExists kind)) 0x11, t0 h,
     if epochKind kind then (if count = 1 then role h e else bp false 0) else noEpoch h,
     bp (!known || decide (15 < tag ∨ count = 0)) 0x12, bp (epochKind kind && decide (1 < count)) 0x13,
     bst (!moving.all (s.unitFree kind)) 0x10]
    (if moving.isEmpty then s.ok h (s.assignResult kind index count) else s.assign h kind tag index count moving))

/-- The peripheral instance a function of a pin belongs to (02 R45), numbered within the function. -/
def pinInst (pin func : Nat) : Nat :=
  if func = 1 then pin / 4 else if func = 2 then (if 16 ≤ pin ∧ pin < 24 then 32 + pin / 2 else pin / 4) else pin

/-- SYS.PINCFG (05 R118; 02 R45, R46). -/
def execSysPincfg (h : Hdr) (pin func pull : Nat) (s : State) : Out :=
  let f := fun p => look (fun _ => ({} : Pin)) s.sys.pins p
  let alien := (List.range 32).any fun p =>
    p != pin && (f p).func == func && pinInst p func == pinInst pin func && s.owner 2 p != h.ring
  fwCmd h s (s.guarded h
    [noEpoch h, bp (decide (31 < pin)) 0x11, den (decide (s.owner 2 pin ≠ h.ring)) 0x01, bp (decide (3 < func ∨ 2 < pull)) 0x12,
     den (decide (func ≠ 0) && alien) 0x01]
    (let k := s.sys.pinSeq + 1
     let o := if (f pin).func = func then (f pin).order else k
     ({ s with sys := { s.sys with pins := put s.sys.pins pin { func := func, pull := pull, order := o }, pinSeq := k } }).ok h))

/-! ### Bezels -/

/-- Bezel range `r`. -/
def State.bezel (s : State) (r : Nat) : Bezel := look (fun _ => {}) s.ten.bez r

/-- A range changed. -/
def State.setBezel (s : State) (r : Nat) (b : Bezel) : State := { s with ten := { s.ten with bez := put s.ten.bez r b } }

/-- The range lies wholly in one of system SRAM, the xSPI windows and the fitted LPDDR5 (18 R452). -/
def State.bezInside (s : State) (base size : Nat) : Bool :=
  let a := base * 4096
  let z := (base + size) * 4096
  (decide (0x10000000 ≤ a) && decide (z ≤ 0x11000000)) || (decide (0x60000000 ≤ a) && decide (z ≤ 0x70000000)) ||
    (decide (0x70000000 ≤ a) && decide (z ≤ 0x80000000)) ||
    (decide (0x80000000 ≤ a) && decide (z ≤ 0x80000000 + Nat.min s.sys.ddrSize 0x100000000))

/-- Two ranges share a page. -/
def Bezel.meets (a b : Bezel) : Bool := decide (a.base < b.base + b.size) && decide (b.base < a.base + a.size)

/-- The other enabled ranges. -/
def State.otherBez (s : State) (r : Nat) : List Bezel :=
  ((List.range 32).filter (· != r)).map s.bezel |>.filter fun b => b.en

/-- An attached ring area would lose a byte to its tag (04 R83). -/
def State.ringCut (s : State) (r : Nat) (b : Bezel) : Bool :=
  (List.range 16).any fun n =>
    let x := s.ring n
    x.st != 0 && s.areaOK n x.base (areaLen x.entries) && !(s.setBezel r b).areaOK n x.base (areaLen x.entries)

/-- A byte that leaves the ranges of a tag from 2 to 15 (18 R455): it lies in system SRAM or LPDDR5, the old range covers it, and
no range of that tag covers it afterwards. -/
def State.leaves (s : State) (r : Nat) (b : Bezel) (a : Nat) : Bool :=
  let o := s.bezel r
  let g := s.region a
  decide (2 ≤ o.tag) && o.covers a && (g == .sram || g == .ddr) && !(b.tag == o.tag && b.covers a) &&
    !((s.otherBez r).any fun (x : Bezel) => x.tag == o.tag && x.covers a)

/-- The zero fill (18 R455): every byte that leaves is zero, and words of zeros hold no memory error. -/
def State.zeroFill (s : State) (r : Nat) (b : Bezel) : State :=
  { s with mem := s.mem.filter fun (c : Host.Cell) => !s.leaves r b c.1,
           ecc := s.ecc.filter fun (p : Nat × Nat) => !s.leaves r b (p.1 * 8) }

/-- One TEN.BEZEL reaches its turn (18 R452, R455). -/
def State.applyBezel (s : State) (h : Hdr) (r : Nat) (b : Bezel) : State :=
  s.guarded h
    [bst (b.en && (s.otherBez r).any fun (x : Bezel) => x.tag != b.tag && x.meets b) 0x11, bst (s.ringCut r b) 0x10]
    (let o := s.bezel r
     if (List.range o.size).any fun i => s.leaves r b ((o.base + i) * 4096) then
       let s := s.setBezel r { o with fill := true }
       let s := { s with ten := { s.ten with fill := some { h := h, range := r, bez := b } } }
       (s.accepted h 0x01).inflightState h 4
     else (s.setBezel r b).tenChanged.ok h)

/-- TEN.BEZEL (05 R128; 18 R452, R455): while another one zero-fills it stays queued. -/
def execTenBezel (h : Hdr) (range tag enable perms base size : Nat) (s : State) : Out :=
  let b : Bezel := if enable = 1 then { tag := tag, en := true, r := bit perms 0, w := bit perms 1, x := bit perms 2, base := base, size := size }
                   else {}
  fwCmd h s (s.guarded h
    [noEpoch h, bp (decide (31 < range)) 0x11, t0 h, bp (decide (7 < perms)) 0x01,
     bp (decide (15 < tag ∨ 1 < enable) || (decide (enable = 1) && (decide (size = 0) || !s.bezInside base size))) 0x12,
     bp (decide (enable = 0) && !(decide (tag = 0 ∧ perms = 0 ∧ base = 0 ∧ size = 0))) 0x13]
    (if s.ten.fill.isSome then
       ({ s with ten := { s.ten with bezQ := s.ten.bezQ ++ [(h, range, b)] } }).inflightState h 3
     else s.applyBezel h range b))

/-- The queued TEN.BEZEL commands in their order of arrival, until one of them fills (18 R455). -/
def State.bezNext (s : State) : Nat → State
  | 0 => s
  | fuel + 1 =>
    if s.ten.fill.isSome then s
    else match s.ten.bezQ with
      | [] => s
      | (h, r, b) :: rest => (({ s with ten := { s.ten with bezQ := rest } }).applyBezel h r b).bezNext fuel

/-- BEZEL_FILL_DONE (18 R455): the fill ends, the new range takes effect, and the next queued command has its turn. -/
def execBezelFillDone (s : State) : Out :=
  .next (if !s.mpUp then s else match s.ten.fill with
    | none => s
    | some f =>
      let s := s.zeroFill f.range f.bez
      let s := { s with ten := { s.ten with fill := none } }
      let s := (s.setBezel f.range f.bez).tenChanged.ok f.h
      s.bezNext s.ten.bezQ.length)

/-! ### Rings, Clasps and gates -/

/-- A sum over the 16 rings with ring `n` at `v` (04 R100). -/
def State.quotaSum (s : State) (f : Ring → Nat) (n v : Nat) : Nat :=
  ((List.range 16).map fun k => if k = n then v else f (s.ring k)).sum

/-- TEN.RINGCFG (05 R128; 04 R82, R100). The spec does not say how a parameter is left out here, so a QUOTA of 0 does not take the
default of 48: it lies outside the range and is refused with 0x12 (DESIGN CHOICE, log 63). -/
def execTenRingcfg (h : Hdr) (ring enable quota fwquota event : Nat) (s : State) : Out :=
  fwCmd h s (s.guarded h
    [noEpoch h, bp (decide (15 < ring)) 0x11, t0 h,
     bp (decide (1 < enable ∨ quota = 0 ∨ 768 < quota ∨ 128 < fwquota ∨ (511 < event ∧ event ≠ 0xFFFF))) 0x12,
     bp (decide (enable = 0 ∧ ring ≤ 1) || decide (event ≠ 0xFFFF ∧ s.owner 11 event ≠ ring)) 0x13,
     bp (decide (768 < s.quotaSum (·.quota) ring quota) || decide (128 < s.quotaSum (·.fwQuota) ring fwquota)) 0x14]
    (let was := s.ring ring
     let s := s.setRing ring { was with enabled := enable == 1, quota := quota, fwQuota := fwquota, line := event }
     let s := if enable = 0 ∧ was.st = 1 then s.detach ring else s
     s.ok h))

/-- Clasp `c`. -/
def State.clasp (s : State) (c : Nat) : Clasp := look (fun _ => {}) s.ten.clasp c

/-- A Clasp changed. -/
def State.setClasp (s : State) (c : Nat) (x : Clasp) : State := { s with ten := { s.ten with clasp := put s.ten.clasp c x } }

/-- An event line is none, or a line that TAG owns (18 R459). -/
def State.lineOf (s : State) (ev tag : Nat) : Bool := ev == 0xFFFF || (decide (ev < 512) && s.owner 11 ev == tag)

/-- TEN.CLASP (05 R128; 18 R459, R462). A deleted Clasp remembers its ends, which no register shows. -/
def execTenClasp (h : Hdr) (clasp op tagA tagB evA evB : Nat) (s : State) : Out :=
  let x := s.clasp clasp
  let e := (x.epoch + 1) % 65536
  fwCmd h s (s.guarded h
    [bp (decide (31 < clasp)) 0x11, t0 h, role h x.epoch, bp (decide (1 < op ∨ 15 < tagA ∨ 15 < tagB)) 0x12,
     bp (decide (op = 0) && (!s.lineOf evA tagA || !s.lineOf evB tagB)) 0x13, bp (decide (op = 0 ∧ tagA = tagB)) 0x14,
     bst (if op = 0 then x.ex else !x.ex) 0x10]
    ((s.setClasp clasp (if op = 0 then { ex := true, tagA := tagA, tagB := tagB, evA := evA, evB := evB, epoch := e } else { tagA := x.tagA, tagB := x.tagB, epoch := e })).tenChanged.ok h e))

/-- Index, end tag and epoch of a Clasp command (18 R459, R462; 04 R96). An end of a deleted Clasp meets the epoch that the delete
changed; a command that carries the new epoch finds no end (log 63). -/
def State.claspChecks (s : State) (h : Hdr) (c : Nat) : List Chk :=
  let x := s.clasp c
  [bp (decide (31 < c)) 0x11, den (!((x.ex || x.tagA != x.tagB) && (x.tagA == h.ring || x.tagB == h.ring))) 0x01, role h x.epoch,
   den (!x.ex) 0x01]

/-- TEN.POST (05 R128; 18 R459 to R461). -/
def execTenPost (h : Hdr) (clasp : Nat) (msg : List Byte) (s : State) : Out :=
  let x := s.clasp clasp
  let fromA := x.tagA == h.ring
  let q := if fromA then x.ab else x.ba
  let k := ((if fromA then x.postsAB else x.postsBA) + 1) % 65536
  let m : Msg := { bytes := fitTo 32 msg, t := s.now, sender := h.ring, seq := k }
  let y := if fromA then { x with ab := q ++ [m], postsAB := k } else { x with ba := q ++ [m], postsBA := k }
  fwCmd h s (s.guarded h (s.claspChecks h clasp ++ [bst (decide (64 ≤ q.length)) 0x11])
    (((s.setClasp clasp y).pulse (if fromA then x.evB else x.evA)).ok h (q.length + 1)))

/-- The record TEN.TAKE writes (18 R460). -/
def Msg.record (m : Msg) : List Byte := fitTo 32 m.bytes ++ toLE 8 m.t ++ [BitVec.ofNat 8 m.sender, 0] ++ toLE 2 m.seq ++ zeros 4

/-- TEN.TAKE (05 R128; 18 R460, R461). -/
def execTenTake (h : Hdr) (out outLen clasp : Nat) (s : State) : Out :=
  let x := s.clasp clasp
  let toA := x.tagA == h.ring
  let q := if toA then x.ba else x.ab
  let y := if toA then { x with ba := q.drop 1 } else { x with ab := q.drop 1 }
  fwCmd h s (s.guarded h (s.claspChecks h clasp ++ [s.outChk h out outLen 48, bst q.isEmpty 0x12])
    (let s := s.writeOut out ((q.map Msg.record).headD [])
     let s := s.setClasp clasp y
     let s := if q.length = 64 then s.pulse (if toA then x.evB else x.evA) else s
     s.ok h (48 + 2 ^ 32 * (q.length - 1))))

/-- A gate changed. -/
def State.setGate (s : State) (g : Nat) (x : Gate) : State := { s with ten := { s.ten with gate := put s.ten.gate g x } }

/-- Another tag than the owner holds a use count (05 R130). -/
def State.usedByOther (s : State) (g : Nat) : Bool :=
  (List.range 16).any fun t => t != s.owner 12 g && decide (0 < s.useCount g t)

/-- The block of a gate is at an idle point (18 R464): no frame on its CAN bus, no LIN response awaited, no signing operation
in progress. The transfers of the other blocks are not in State, and each is whole between two commands. -/
def State.gateIdle (s : State) (g : Nat) : Bool :=
  if g = 1 then !(s.hal.ops.any Op.signing)
  else if 0x20 ≤ g ∧ g ≤ 0x2B then (s.ctl (g - 0x20)).tx.isNone
  else if 0x30 ≤ g ∧ g ≤ 0x37 then (s.lin (g - 0x30)).wait.isNone
  else true

/-- The pending CUTs of a gate take effect (18 R464): TIME holds the cut instant. -/
def State.cutGate (s : State) (g : Nat) : State :=
  let x := s.gate g
  x.pend.foldl (fun s (h : Hdr) => s.ok h (s.useCount g h.ring)) (s.setGate g { x with cut := true, pend := [] })

/-- TEN.GATE (05 R130; 18 R464, R465). A CUT waits for the use counts of other tags and for the block's idle point. -/
def execTenGate (h : Hdr) (gate op : Nat) (s : State) : Out :=
  let x := s.gate gate
  let own := s.owner 12 gate == h.ring
  let n := s.useCount gate h.ring
  fwCmd h s (s.guarded h
    [noEpoch h, bp (!gateExists gate) 0x11, den (decide (op = 2 ∨ op = 3) && !own) 0x01, bp (decide (3 < op)) 0x12,
     bst (decide (op = 0) && x.cut) 0x12, bst (decide (op = 0) && !x.pend.isEmpty && !own) 0x11, bst (decide (op = 0 ∧ 15 ≤ n)) 0x14,
     bst (decide (op = 1) && s.heldCount gate h.ring == 0) 0x13]
    (let done := fun (s : State) => s.ok h (s.useCount gate h.ring)
     if op = 0 then done (s.setUse gate h.ring (s.heldCount gate h.ring + 1))
     else if op = 1 then done (s.setUse gate h.ring (s.heldCount gate h.ring - 1))
     else if op = 2 then
       (if x.cut then s.ok h n
        else
          let s := s.setGate gate { x with pend := x.pend ++ [h] }
          if s.usedByOther gate then (s.accepted h 0x03).inflightState h 6
          else if s.gateIdle gate then s.cutGate gate
          else s.waits h)
     else
       let s := s.setGate gate { x with cut := false, pend := [] }
       (x.pend.foldl (fun s g => s.fail g .badState 0x15) s).ok h n))

/-- GATE_CUT_APPLY (18 R464): a pending CUT takes effect at the block's idle point, once no other tag holds a count. -/
def execGateCutApply (gate : Nat) (s : State) : Out :=
  unitEvent (gateExists gate)
    (if s.live && !(s.gate gate).pend.isEmpty && !s.usedByOther gate && s.gateIdle gate then s.cutGate gate else s)

end Sys2Proof.Machine
end

