-- ==== Sys2Proof/Machine/FbCmd.lean ====
section
/-! DEFINITION. The field bridge itself: the side-band poll and keep-alive, posted writes, and data bursts (20 R507 to R512). -/
namespace Sys2Proof.Machine
open Sys2Proof

/-- SYS.FBPOLL (05 R118; 20 R508): the new period starts after the next poll, which completes the command; until then it waits (04 R98). -/
def execSysFbpoll (h : Hdr) (poll : Nat) (s : State) : Out :=
  fwCmd h s (s.guarded h [noEpoch h, t0 h, bp (decide (16 < poll)) 0x12]
    (({ s with fb := { s.fb with pollNew := s.fb.pollNew ++ [(h, if poll = 0 then 2 else poll)] } }).waits h))

/-- The polls that wait for this one take their period and complete (20 R508). -/
def State.pollTaken (s : State) : State :=
  let l := s.fb.pollNew
  let s := { s with fb := { s.fb with pollNew := [], poll := (l.map (·.2)).getLastD s.fb.poll } }
  l.foldl (fun s p => s.ok p.1) s

/-- A good poll is the keep-alive of 09 R237: the first makes the C-die present to the die, whose replica of device time is aligned from
then on (01 R21). -/
def Die.kept (x : Die) (cyc : Nat) : Die := { x with lastKa := cyc, seen := true }

/-- The keep-alive of P-die `d` (09 R237). The first since its power-up aligns the ends of the sample intervals to device time (08 R204). -/
def State.keepAlive (s : State) (d : Nat) : State :=
  let first := !(s.pdie d).seen
  let s := s.setPdie d ((s.pdie d).kept s.cyc)
  if first then s.realign d else s

/-- A poll confirmed (20 R506, R508): the link is UP, the keep-alive is seen, and the changed words reach the shadow. `hot` names
the outputs of the I-die whose junction is not yet below 155 C (17 R442). -/
def State.pollGood (s : State) (die hot : Nat) : State :=
  let f := s.fb
  let s := { s with fb := { f with link := put f.link die 1, missed := put f.missed die 0, bad := put f.bad die 0 } }
  if die = 0 then s.syncWake
  else if die = 3 then
    let ch := s.iso.ch.map fun (p : Nat × IsoCh) => (p.1, { p.2 with hot := bit hot p.1 })
    let i := s.iso
    ({ s with iso := { i with ch := ch, die := i.die.kept s.cyc } }).syncIso
  else (s.keepAlive (die - 1)).syncPdie (die - 1)

/-- A poll failed for good (20 R509, R512): three in a row put the link DOWN and raise FB_LINK. -/
def State.pollBad (s : State) (die code : Nat) : State :=
  let f := s.fb
  let m := look (fun _ => 0) f.missed die + 1
  let s := { s with fb := { f with missed := put f.missed die m, bad := put f.bad die code, retry := satAdd 32 f.retry 3,
                                   link := if 3 ≤ m then put f.link die 2 else f.link } }
  if 3 ≤ m then s.condition 0x91 die true else s

/-- FB_POLL (20 R508, R512): a die is polled at the end of its period. `code` says how the poll ends, and so how transfers to the
die end until the next: 0 confirmed, 1 CRC failures, 2 no answer. A link that is DOWN is polled no more. -/
def execFbPoll (die code hot : Nat) (s : State) : Out :=
  unitEvent (decide (die < 4))
    (let due := match look? s.fb.pollAt die with
       | none => true
       | some t => decide (t + s.fb.poll * 200 ≤ s.cyc)
     if s.live && due && !s.linkDown die then
       let s := { s with fb := { s.fb with pollAt := put s.fb.pollAt die s.cyc } }
       (if code = 0 then s.pollGood die hot else s.pollBad die (code + 1)).pollTaken
     else s)

/-- FB_POSTED_WRITE (20 R509, R510): a processor's write of LCH[ch].CMD, its transfer confirmed after `repeats` repeats (`code` 0),
or failed for good by CRC (1) or without an answer (2). The checks of 08 R209 come first; a write they stop needs no transfer. -/
def execFbPostedWrite (ini tag ch word code repeats : Nat) (s : State) : Out :=
  unitEvent (decide (ch < 40))
    (if s.live && s.presents ini tag then
       let sent := s.directSent tag ch (bits word 31 16) (bits word 15 14) (bits word 13 10)
       let s := if code = 0 ∧ sent then { s with fb := { s.fb with retry := satAdd 32 s.fb.retry repeats } } else s
       s.directWrite ini tag ch (bits word 31 16) (bits word 15 14) (bits word 13 10) (bits word 9 0) (if code = 0 then 0 else code + 1)
     else s)

/-- The 16-byte header of a capture (08 R207). -/
def Capture.header (k : Capture) : List Byte :=
  toLE 8 k.start ++ toLE 2 k.count ++ [BitVec.ofNat 8 k.kind, BitVec.ofNat 8 (b2n k.satF + 2 * b2n k.shut)] ++ zeros 4

/-- Bytes of a capture written by Halyard's side under its tag (20 R507): a refused write changes no byte. -/
def State.captureOut (s : State) (tag a : Nat) (bs : List Byte) : State :=
  if s.spanOK halyardIni tag 1 a bs.length then s.writeOut a bs else s.violate halyardIni tag 1 a

/-- A KIND 1 record (08 R207) of a 1 us sample of current, in 0.1 mA, and output voltage, in 2 mV. -/
def kind1Record (n : Nat) (x : Int × Int) : List Byte :=
  toLE 2 (unsigned 16 ((currentSample n [] x.1).1 / (sampleLsb n : Int))) ++ toLE 2 (unsigned 16 (voltSample x.2).1)

/-- A sample of a KIND 1 record lay beyond its range (08 R204, R207). -/
def kind1Sat (n : Nat) (x : Int × Int) : Bool := (currentSample n [] x.1).2.2 || (voltSample x.2).2

/-- Bytes of the capture's records that have been taken and not yet read (08 R207): of KIND 0 those held, of KIND 1 the samples of 1 us
from the first to now. -/
def State.recorded (s : State) (ch : Nat) (k : Capture) : Nat :=
  if k.kind = 0 then k.buf.length else Nat.min (4 * k.count) (4 * ((s.chNow ch - k.start) / 1000 + 1)) - k.done

/-- FB_DATA_BURST (20 R507, R511; 08 R207): one burst of a started capture, up to the next 64-byte boundary of the far address and no more
than has been recorded; the last one completes the command, and a burst that fails for good ends it. `smp` are the 1 us samples that a KIND 1
burst carries; `far` is the far address of the first record. -/
def execFbDataBurst (ch : Nat) (smp : List (Int × Int)) (far code repeats : Nat) (s : State) : Out :=
  unitEvent (decide (ch < 40))
    (match (s.chan ch).cap with
     | none => s
     | some k =>
       let h : Hdr := { ring := k.tag, ctag := k.ctag, irq := k.irq }
       let die := 1 + chDie ch
       let far := if k.done = 0 then far / 4 * 4 else k.far
       let n := Nat.min (Nat.min (s.recorded ch k) (4 * k.count - k.done)) (64 - far % 64)
       let n := if k.kind = 0 then n else Nat.min n (4 * smp.length)
       if !s.live || !k.started || n == 0 then s
       else if code ≠ 0 ∨ s.linkDown die then
         let c := if s.linkDown die then 3 else code + 1
         let s := { s with fb := { s.fb with retry := if s.linkDown die then s.fb.retry else satAdd 32 s.fb.retry 3 } }
         let s := s.fbLog { addr := far, time := s.now32, die := die, code := c, ini := 0x20, kind := 2, tag := k.tag }
         (s.setChan ch { s.chan ch with cap := none }).fail h .fault 0x04 k.done
       else
         let s := { s with fb := { s.fb with retry := satAdd 32 s.fb.retry repeats } }
         let used := smp.take (n / 4)
         let data := if k.kind = 0 then k.buf.take n else (used.map fun x => kind1Record ch x).flatten
         let s := s.captureOut k.tag (k.addr + 16 + k.done) data
         let k := { k with done := k.done + n, far := far + n, buf := k.buf.drop n,
                           satF := k.satF || (decide (k.kind = 1) && used.any fun x => kind1Sat ch x) }
         if k.done < 4 * k.count then s.setChan ch { s.chan ch with cap := some k }
         else
           let s := s.captureOut k.tag k.addr k.header
           (s.setChan ch { s.chan ch with cap := none }).ok h (16 + 4 * k.count))

end Sys2Proof.Machine
end

