-- ==== Sys2Proof/Machine/NetBase.lean ====
section
/-! DEFINITION. What the switch ports and the fabric share: rates, the fields of a port record, the accounting of the buffer,
gates, credits, and frame octets (10 R241 to R258; 11 R270 to R288). -/
namespace Sys2Proof.Machine
open Sys2Proof

/-! ### Ports -/

/-- Line rate in Mb/s (11 R270). -/
def State.rate (s : State) (p : Nat) : Nat :=
  let m := byteAt (s.portRec p) 2
  if p ≤ 1 then (if m = 0 then 10000 else if m = 1 then 5000 else 2500)
  else if p ≤ 5 then (if m = 0 then 1000 else 100)
  else if p ≤ 9 then 100 else if p ≤ 15 then 10 else 10000

/-- The fabric fields of a port record (10 R257; 11 R274). -/
def recMax (r : List Byte) : Nat := le r 16 2
def recPmax (r : List Byte) : Nat := le r 18 2
def recExp (r : List Byte) : Nat := byteAt r 20
def recRsqto (r : List Byte) : Nat := le r 22 2
def recQmin (r : List Byte) (c : Nat) : Nat := le r (24 + 2 * c) 2
def recQmax (r : List Byte) (c : Nat) : Nat := le r (40 + 2 * c) 2

/-- A port asks for LINK leave (11 R272). -/
def State.requestLink (s : State) (p tag origin : Nat) : State :=
  s.request { typ := 7, bud := 4, amount := 350, dur := 0xFFFFFFFF, tag := tag, origin := origin, client := .port p } 0
    (fun s hd => s.setPort p { s.port p with handle := hd, retryAt := none }) id

/-- A T1 port that is enabled and DOWN, with no request of its own under way, raises one (11 R272). -/
def State.linkWanted (s : State) (p : Nat) : State :=
  let x := s.port p
  if isT1 p ∧ x.lst = .down ∧ x.handle = noHandle ∧ x.retryAt = none then s.requestLink p 0 4 else s

/-- A port reaches UP (11 R271, R272): its LINK grant ends. -/
def State.portUp (s : State) (p : Nat) : State := ((s.endLink p).setLink p .up).settle

/-! ### The accounting of the buffer -/

/-- Queue (o, c). -/
def qIdx (o c : Nat) : Nat := o * 8 + c

/-- QCNT (10 R255). -/
def State.qcnt (s : State) (o c : Nat) : Nat := look (fun _ => 0) s.fab.qcnt (qIdx o c)

/-- PCNT (10 R255). -/
def State.pcnt (s : State) (o : Nat) : Nat := ((List.range 8).map fun c => s.qcnt o c).sum

/-- SHUSED (10 R255). -/
def State.shused (s : State) : Nat := (s.fab.qcnt.map fun (p : Nat × Nat) => p.2 - recQmin (s.portRec (p.1 / 8)) (p.1 % 8)).sum

/-- Sum of QMIN over the queues of a record. -/
def recQminSum (r : List Byte) : Nat := ((List.range 8).map fun c => recQmin r c).sum

/-- SHPOOL (10 R256). -/
def State.shpool (s : State) : Nat := 20480 - ((List.range 20).map fun p => recQminSum (s.portRec p)).sum - 512

/-- A bank as it stands in the present slot (10 R248): cells written are linked in the first two cycles of the slot after, and
cells read return to the free list two slots after. -/
def State.bank (s : State) (k : Nat) : Bank :=
  let b := look (fun _ => ({} : Bank)) s.fab.bank k
  let t := s.fab.slot
  let linked := fun (w : Nat × Nat × Nat) => decide (w.2.2 + 1 < t) || (decide (w.2.2 + 1 = t) && decide (2 ≤ s.fab.phase))
  let back := b.pr.filter fun (r : Nat × Nat) => decide (r.2 ≤ t)
  { b with q := (b.pw.filter linked).foldl (fun q w => put q w.2.1 (look (fun _ => []) q w.2.1 ++ [w.1])) b.q,
           pw := b.pw.filter fun w => !linked w,
           free := if back.isEmpty then b.free else some (b.free.getD (List.range 1024) ++ back.map (·.1)),
           pr := b.pr.filter fun (r : Nat × Nat) => !decide (r.2 ≤ t) }

/-- A bank changed. -/
def State.setBank (s : State) (k : Nat) (b : Bank) : State := { s with fab := { s.fab with bank := put s.fab.bank k b } }

/-- Free cells of a bank. -/
def Bank.nFree (b : Bank) : Nat := (b.free.map List.length).getD 1024

/-- Cells linked in a bank. -/
def Bank.nQueued (b : Bank) : Nat := (b.q.map fun (p : Nat × List Nat) => p.2.length).sum

/-- Cells of a bank in the pipelines of 10 R248. -/
def Bank.nFlight (b : Bank) : Nat := b.pw.length + b.pr.length

/-- Sum over the 20 banks. -/
def State.banks (s : State) (f : Bank → Nat) : Nat := ((List.range 20).map fun k => f (s.bank k)).sum

/-- Cells of class `c` in the egress store of output `o` (10 R250). -/
def State.storeC (s : State) (o c : Nat) : Nat := look (fun _ => 0) s.fab.store (qIdx o c)

/-- Cells in the egress store of an output. -/
def State.storeN (s : State) (o : Nat) : Nat := ((List.range 8).map fun c => s.storeC o c).sum

/-- The store can take a cell of a class (10 R250): its reserve of 32, or a shared cell. -/
def State.storeRoom (s : State) (o c : Nat) : Bool :=
  decide (s.storeC o c < 32) || decide (((List.range 8).map fun d => s.storeC o d - 32).sum < 256)

/-- `n` cells leave the egress store. -/
def State.freeCells (s : State) (o c n : Nat) : State :=
  { s with fab := { s.fab with store := put s.fab.store (qIdx o c) (s.storeC o c - n) } }

/-- A fabric initialisation is in progress or demanded, or admission waits for FAULT.RECOVER (10 R261; 21 R524). -/
def State.fabBusy (s : State) : Bool := s.fab.init != 0 || s.fab.initHold || s.flt.initReq

/-- The express lane takes frames (01 R26, R28; 10 R262, R266). -/
def State.expressOn (s : State) : Bool := s.sys.prof == 0 && !(s.sys.profBusy && s.sys.profTarget == 1)

/-! ### Gates and credits -/

/-- Entries of a gate control list with the time each lasts: the last holds until the cycle ends (11 R283). -/
def Gcl.spans (g : Gcl) : List (Nat × Nat) :=
  let sum := ((g.ents.dropLast).map (·.2)).sum
  g.ents.dropLast ++ (match g.ents.getLast? with
    | some e => [(e.1, g.cycle - sum)]
    | none => [])

/-- Position in a list of spans `off` ns after its start: index and what is left of the span. -/
def spanAt : List (Nat × Nat) → Nat → Nat → Nat × Nat
  | [], _, i => (i - 1, 0)
  | e :: r, off, i => if off < e.2 then (i, e.2 - off) else spanAt r (off - e.2) (i + 1)

/-- The entry of a list in force at device time `now`, and what is left of it (11 R283). -/
def Gcl.at_ (g : Gcl) (now : Nat) : Nat × Nat :=
  spanAt g.spans ((((now : Int) - g.base) % ((Nat.max 1 g.cycle : Nat) : Int)).toNat) 0

/-- How long gate `c` stays open over the spans from the front; none when it is open in all of them. -/
def openRun (c : Nat) : List (Nat × Nat) → Nat → Option Nat
  | [], _ => none
  | e :: r, acc => if bit e.1 c then openRun c r (acc + e.2) else some acc

/-- How long gate `c` of a list stays open from `now`; none for ever. -/
def Gcl.openFor (g : Gcl) (now c : Nat) : Option Nat :=
  if g.ents.isEmpty then none
  else
    let (i, rest) := g.at_ now
    let l := g.spans
    match l[i]? with
    | none => none
    | some e => openRun c ((e.1, rest) :: (l.drop (i + 1) ++ l.take i ++ [(e.1, e.2 - rest)])) 0

/-- How long gate `c` of a port stays open from now (11 R281, R283), over the start of a list that waits for its instant. -/
def State.openFor (s : State) (p c : Nat) : Option Nat :=
  let x := s.port p
  let a := x.gcl.openFor s.now c
  match x.gclNew with
  | none => a
  | some g =>
    let till := g.start - s.now
    let past := match g.openFor g.start c with
      | none => none
      | some b => some (till + b)
    match a with
    | none => past
    | some d => if d < till then some d else past

/-- The gate states of a port at this instant: all open without a list. -/
def State.gatesNow (s : State) (p : Nat) : Nat × Nat :=
  let g := (s.port p).gcl
  if g.ents.isEmpty then (0xFF, 0)
  else
    let i := (g.at_ s.now).1
    ((g.ents[i]?.map (·.1)).getD 0xFF, i)

/-- IDLESLOPE of a class in kb/s; 0 shaper off. -/
def Port.slopeOf (x : Port) (c : Nat) : Nat := look (fun _ => 0) x.slope c

/-- The credits of a port brought to this instant (11 R284), in units of 2.5 * 10^-6 bit: frozen while the gate is closed, falling
at the send slope while the class transmits, rising at the idle slope while it waits or is below zero, else zero. -/
def State.credits (s : State) (p : Nat) : State :=
  let x := s.port p
  let dt : Int := (s.cyc - x.credAt : Nat)
  let rate := s.rate p * 1000
  let top := recMax (s.portRec p) * 8 * 400000
  let one := fun (cr : Tab Int) c =>
    let i := x.slopeOf c
    let v := look (fun _ => (0 : Int)) cr c
    if i = 0 then del cr c
    else if !bit x.gates c then cr
    else
      let sending := match x.tx with
        | some t => t.cls == c
        | none => false
      let waits := !(look (fun _ => []) x.ready c).isEmpty
      let hi : Int := divR (top * i) rate
      let lo : Int := -(divR (top * (rate - i)) rate : Nat)
      let up := v + (i : Int) * dt
      put cr c (if sending then clampI lo hi (v - ((rate : Int) - i) * dt)
                else if waits then clampI lo hi up
                else if v < 0 then (if 0 < up then 0 else up) else 0)
  s.setPort p { x with credit := (List.range 8).foldl one x.credit, credAt := s.cyc }

/-- A class is not shaped, or its credit is zero or more. -/
def Port.credOk (x : Port) (c : Nat) : Bool := x.slopeOf c == 0 || decide (0 ≤ look (fun _ => (0 : Int)) x.credit c)

/-! ### Frame octets -/

/-- A big-endian number of `n` bytes at `o`. -/
def be (l : List Byte) (o n : Nat) : Nat := (slice l o n).foldl (fun a b => a * 256 + b.toNat) 0

/-- `v` as `n` big-endian bytes. -/
def toBE (n v : Nat) : List Byte := (toLE n v).reverse

/-- The frame carries an 802.1Q tag. -/
def hasTag (l : List Byte) : Bool := be l 12 2 == 0x8100

/-- Where the EtherType after the tag stands. -/
def innerOff (l : List Byte) : Nat := if hasTag l then 16 else 12

/-- The mCRC of a fragment that does not end its frame (11 R288): over the frame's octets so far, the two octets sent last inverted
(PRESUMED from IEEE 802.3br, log 59). -/
def mCrc (sofar : List Byte) : List Byte := toLE 4 (crc32 sofar ^^^ 0xFFFF0000)

/-- EtherTypes that MACsec leaves unprotected (11 R290): gPTP and EAPOL. -/
def macsecExempt (l : List Byte) : Bool := be l 12 2 == 0x88F7 || be l 12 2 == 0x888E

/-- The octets of a frame as it leaves a port, before MACsec (11 R277, R287): the tag kept, inserted or removed with its PCP as
received, the R-TAG of a generated sequence, and the FCS. A frame is padded to 64 bytes. -/
def Frame.octets (f : Frame) (untag : Bool) : List Byte :=
  let l := f.bytes
  let body := l.take (l.length - 4)
  let tag := if untag then [] else toBE 2 0x8100 ++ toBE 2 (f.pcp % 8 * 8192 + f.pcp / 8 * 4096 + f.vid)
  let rt := match f.rtag with
    | some n => toBE 2 0xF1C1 ++ [0, 0] ++ toBE 2 n
    | none => []
  let out := body.take 12 ++ tag ++ rt ++ body.drop (innerOff body)
  let out := fitTo (Nat.max 60 out.length) out
  if out = body then l else out ++ toLE 4 (crc32 out)

/-- The 16-byte frame header (10 R243) of a copy for output `o`. -/
def Frame.header (f : Frame) (o : Nat) : List Byte :=
  toLE 8 f.tsin ++ toLE 2 f.len ++ [BitVec.ofNat 8 (f.inp + 32 * f.cls), BitVec.ofNat 8 o] ++ toLE 2 (f.vid + 4096 * f.pcp) ++ toLE 2 f.stream

/-- An SA (11 R290): index port x 8 + DIR x 4 + AN. -/
def State.sa (s : State) (i : Nat) : Sa := look (fun _ => {}) s.net.sa i

/-- An SA changed. -/
def State.setSa (s : State) (i : Nat) (x : Sa) : State := { s with net := { s.net with sa := put s.net.sa i x } }

/-- The transmit SA in use on a port, if it has not stopped (11 R291). -/
def State.txSaOf (s : State) (p : Nat) : Option Nat :=
  match (s.port p).txSa with
  | none => none
  | some an => if (s.sa (p * 8 + an)).st = 2 ∧ !(s.sa (p * 8 + an)).stop then some an else none

/-- The initialisation vector of a protected frame: SCI and PN, or salt and SSCI with the 64-bit PN. -/
def Sa.iv (x : Sa) (pn : Nat) : List Byte :=
  if x.ssci = 0 then toBE 8 x.sci ++ toBE 4 pn
  else List.zipWith (· ^^^ ·) (fitTo 12 (x.key.drop 32)) (toBE 4 x.ssci ++ toBE 8 pn)

/-- The SecTAG, its EtherType included (11 R290): confidentiality on, SCI always carried. -/
def secTag (sci an pn len : Nat) : List Byte :=
  toBE 2 0x88E5 ++ [BitVec.ofNat 8 (0x2C + an), BitVec.ofNat 8 (if len < 48 then len else 0)] ++ toBE 4 (pn % 2 ^ 32) ++ toBE 8 sci

/-- Octets of a frame with MACsec applied (11 R290, R291). -/
def Sa.protect (x : Sa) (an : Nat) (l : List Byte) : List Byte :=
  let body := l.take (l.length - 4)
  let addr := body.take 12
  let plain := body.drop 12
  let tag := secTag x.sci an x.pn plain.length
  let (ct, icv) := gcmSeal (x.key.take 32) (x.iv x.pn) (addr ++ tag) plain
  let out := addr ++ tag ++ fitTo plain.length ct ++ fitTo 16 icv
  out ++ toLE 4 (crc32 out)

/-- Bits of the PN of an SA. -/
def Sa.width (x : Sa) : Nat := if x.ssci = 0 then 32 else 64

end Sys2Proof.Machine
end

