-- ==== Sys2Proof/Machine/Egress.lean ====
section
/-! DEFINITION. Transmission at a switch port: eligibility, gates, preemption and the end of a frame (11 R281 to R291). -/
namespace Sys2Proof.Machine
open Sys2Proof

/-- Classes sent as preemptable (11 R288): those of PREEMPT once verification has succeeded. -/
def State.preemptable (s : State) (p c : Nat) : Bool :=
  decide (p ≤ 5) && (s.port p).pver && bit (byteAt (s.portRec p) 15) c

/-- A frame leaves the port without its tag (11 R277). -/
def State.untagged (s : State) (p : Nat) (f : Frame) : Bool :=
  bit (look (fun _ => ({} : Vlan)) s.net.vlan f.vid).untag p

/-- The octets of a frame as it leaves a port, before MACsec. -/
def State.plainOctets (s : State) (p : Nat) (f : Frame) : List Byte := f.octets (s.untagged p f)

/-- The port applies MACsec to a frame (11 R290): not to gPTP and EAPOL as they leave. -/
def State.macsecOn (s : State) (p : Nat) (f : Frame) : Option Nat :=
  if p ≤ 5 ∧ !macsecExempt (s.plainOctets p f) then s.txSaOf p else none

/-- A frame that MACsec keeps from leaving (11 R291): an SA has been enabled, and none is in use. -/
def State.noSa (s : State) (p : Nat) (f : Frame) : Bool :=
  decide (p ≤ 5) && (s.port p).saEver && (s.txSaOf p).isNone && !macsecExempt (s.plainOctets p f)

/-- The octets of a frame on the line of a port. -/
def State.lineOctets (s : State) (p : Nat) (f : Frame) : List Byte :=
  let l := s.plainOctets p f
  match s.macsecOn p f with
  | some an => (s.sa (p * 8 + an)).protect an l
  | none => l

/-- `n` octets with preamble and inter-frame gap fit into `d` ns (11 R281). -/
def fitsIn (n d rate : Nat) : Bool := decide ((n + 20) * 8000 ≤ d * rate)

/-- The whole transmission fits before the gate next closes. -/
def State.fits (s : State) (p c n : Nat) : Bool :=
  match s.openFor p c with
  | none => true
  | some d => fitsIn n d (s.rate p)

/-- The longest time a gate of a list stays open in one run; none for ever. -/
def Gcl.longest (g : Gcl) (c : Nat) : Option Nat :=
  let l := g.spans
  (List.range l.length).foldl (fun (m : Option Nat) i =>
    match m, openRun c (l.drop i ++ l.take i) 0 with
    | some a, some b => some (Nat.max a b)
    | _, _ => none) (if l.isEmpty then none else some 0)

/-- Why a frame at the head of its class is discarded (11 R277, R281, R291): the counter it raises. -/
def State.headDrop (s : State) (p c f : Nat) : Option Nat :=
  let x := s.frameOf f
  let owner := s.owner 7 x.vid
  if 16 ≤ p ∧ p ≤ 18 ∧ !(List.range 64).any fun d => s.owner 1 d == owner then some 8
  else if s.noSa p x then some 9
  else if s.preemptable p c then none
  else match (s.port p).gcl.longest c with
    | none => none
    | some d => if fitsIn (s.lineOctets p x).length d (s.rate p) then none else some 8

/-- The frames at the heads of a class that can never be sent are discarded. -/
def State.dropHeads (s : State) (p c : Nat) : Nat → State
  | 0 => s
  | fuel + 1 =>
    match look (fun _ => []) (s.port p).ready c with
    | [] => s
    | f :: rest =>
      match s.headDrop p c f with
      | none => s
      | some k =>
        let x := s.port p
        let s := (s.setPort p { x with ready := put x.ready c rest }).portCnt p k
        ((s.freeStore p c f).dropRef f).dropHeads p c fuel

/-- A class is eligible with its oldest ready frame (11 R281). -/
def State.eligible (s : State) (p c : Nat) : Bool :=
  let x := s.port p
  match look (fun _ => []) x.ready c with
  | [] => false
  | f :: _ => bit x.gates c && x.credOk c && (s.preemptable p c || s.fits p c (s.lineOctets p (s.frameOf f)).length)

/-- The eligible class of the highest number; `express` leaves out the preemptable ones. -/
def State.pickClass (s : State) (p : Nat) (express : Bool) : Option Nat :=
  ([7, 6, 5, 4, 3, 2, 1, 0] : List Nat).find? fun c => s.eligible p c && !(express && s.preemptable p c)

/-- Frame octets of the present fragment that have left (11 R288). -/
def State.fragSent (s : State) (p : Nat) (t : Tx) : Nat := (s.cyc - t.at_) * 5 * s.rate p / 16000 - 8

/-- Where the fragment on the line of a port is due to end (11 R288): as decided before, or, when its gate is closed or an express frame
is eligible, at the first boundary from here on after 60 bytes that leaves 64. -/
def State.cutDue (s : State) (p : Nat) (t : Tx) : Option Nat :=
  let x := s.port p
  let b := Nat.max 60 (s.fragSent p t)
  match t.cutAt with
  | some k => some k
  | none =>
    if s.preemptable p t.cls && x.pre.isNone && (!bit x.gates t.cls || (s.pickClass p true).isSome) && decide (t.sent + b + 64 ≤ t.bytes.length)
    then some b else none

/-- The octets of the fragment that ends after `k` bytes, its mCRC included. -/
def Tx.fragment (t : Tx) (k : Nat) : List Byte := (t.bytes.drop t.sent).take k ++ mCrc (t.bytes.take (t.sent + k))

/-- A fragment ends early (11 R288) once its boundary is reached; until then the boundary is kept. -/
def State.fragmentEnd (s : State) (p : Nat) : State :=
  let x := s.port p
  match x.tx with
  | none => s
  | some t =>
    match s.cutDue p t with
    | none => s
    | some k =>
      if k ≤ s.fragSent p t then
        (s.setPort p { x with tx := none, pre := some { t with sent := t.sent + k, cutAt := none }, last := t.fragment k }).portCnt p 10
      else s.setPort p { x with tx := some { t with cutAt := some k } }

/-- The transmit SA is used for one frame (11 R291): its PN rises, MACSEC_PN at three quarters of its range, and it stops at
the last PN. -/
def State.useSa (s : State) (p an : Nat) : State :=
  let i := p * 8 + an
  let x := s.sa i
  let q := 3 * 2 ^ (x.width - 2)
  let last := decide (2 ^ x.width - 1 ≤ x.pn)
  let y := { x with pn := if last then x.pn else x.pn + 1, count := satAdd 32 x.count 1, stop := last }
  let s := s.setSa i y
  if q ≤ y.pn ∧ (x.pn < q ∨ x.count = 0) then s.raise 0x45 (p + 256 * an) else s

/-- A frame starts on the line; the instant is its egress timestamp (01 R22). -/
def State.startTx (s : State) (p c f : Nat) (express stomp : Bool) : State :=
  let x := s.frameOf f
  let t : Tx := { frame := f, cls := c, express := express, stomp := stomp, bytes := s.lineOctets p x, at_ := s.cyc }
  let s := match s.macsecOn p x with
    | some an => s.useSa p an
    | none => s
  s.setPort p { s.port p with tx := some t, txTime := s.now }

/-- TRANSMIT_START (11 R281, R288): a transmission opportunity of a port. -/
def execTransmitStart (p : Nat) (s : State) : Out :=
  unitEvent (decide (p < 20))
    (if !(s.live && s.canSend p) then s
     else
       let s := s.credits p
       let s := (List.range 8).foldl (fun s c => s.dropHeads p c (look (fun _ => []) (s.port p).ready c).length) s
       let x := s.port p
       if x.tx.isSome then s.fragmentEnd p
       else match s.pickClass p x.pre.isSome with
         | some c =>
           match look (fun _ => []) x.ready c with
           | [] => s
           | f :: rest => (s.setPort p { x with ready := put x.ready c rest }).startTx p c f false false
         | none =>
           match x.pre with
           | some t => if bit x.gates t.cls then s.setPort p { x with tx := some { t with at_ := s.cyc }, pre := none } else s
           | none => s)

/-- A frame ended with an inverted FCS (10 R261, R264). -/
def invertFcs (l : List Byte) : List Byte := l.take (l.length - 4) ++ (l.drop (l.length - 4)).map fun b => ~~~b

/-- A frame of SP16 to SP18 is delivered (11 R277): its header and octets are written into memory at `buf` under the owner tag of its VLAN,
by the DMA channel `dma` where that tag holds it, else by the first channel it holds. A refused write ends the channel's transfer
(18 R454). -/
def State.deliverFrame (s : State) (dma buf : Nat) (owner : Nat) (bs : List Byte) : State :=
  match if s.owner 1 dma = owner then some dma else (List.range 64).find? fun d => s.owner 1 d == owner with
  | none => s
  | some d =>
    let ok := s.spanOK (0x30 + d) owner 1 buf bs.length && (List.range bs.length).all fun i => s.region (buf + i) != .regs
    let s := if ok then s.writeOut buf bs else s.violate (0x30 + d) owner 1 buf
    { s with ten := { s.ten with dma := put s.ten.dma d { en := false, err := !ok } } }

/-- TRANSMIT_END (10 R250, R264; 11 R277, R288): the last octet has left; the store cells are freed. A fragment that was due to end has
ended first. An internal port hands the frame over, its header ahead of the octets; `dma` and `buf` are the channel and the buffer the
owner's software has set up for it. On SP10 to SP15 it is a frame on the segment (13 R344). -/
def execTransmitEnd (p dma buf : Nat) (s : State) : Out :=
  unitEvent (decide (p < 20 ∧ dma < 64))
    (let s := s.fragmentEnd p
     match (s.port p).tx with
     | none => s
     | some t =>
       if (t.bytes.length - t.sent + 8) * 16000 ≤ (s.cyc - t.at_) * 5 * s.rate p then
         let s := s.credits p
         let f := s.frameOf t.frame
         let int := decide (16 ≤ p ∧ p ≤ 18)
         let out := (if int then f.header p else []) ++ (if t.stomp then invertFcs t.bytes else t.bytes).drop t.sent
         let s := if t.express then s else s.freeStore p t.cls t.frame
         let s := (s.dropRef t.frame).setPort p { s.port p with tx := none, last := out }
         let s := if int then s.deliverFrame dma buf (s.owner 7 f.vid) out else s
         let s := if isT1s p then s.segEvent (p + 6) else s
         if t.stomp then { s with fab := { s.fab with stomp := satAdd 32 s.fab.stomp 1 } } else s.portCnt p 1
       else s)

/-- The gate states of a port follow its list (11 R283), and a fragment whose gate has closed ends. -/
def State.setGates (s : State) (p : Nat) : State :=
  let (g, i) := s.gatesNow p
  (s.setPort p { s.port p with gates := g, gclIdx := i }).fragmentEnd p

/-- GATE_ENTRY_CHANGE (11 R283): an entry of the list in force begins. -/
def execGateEntryChange (p : Nat) (s : State) : Out :=
  unitEvent (decide (p < 20)) (if s.live then (s.credits p).setGates p else s)

/-- GATE_LIST_SWITCH (11 R283): the list that waits takes effect at its start instant. -/
def execGateListSwitch (p : Nat) (s : State) : Out :=
  unitEvent (decide (p < 20))
    (match (s.port p).gclNew with
     | none => s
     | some g =>
       if g.start ≤ s.now then
         let s := s.credits p
         (s.setPort p { s.port p with gcl := g, gclNew := none }).setGates p
       else s)

/-- PREEMPTION_VERIFICATION (11 R288): the verification of 802.3br with the link partner succeeds or fails. -/
def execPreemptionVerification (p : Nat) (good : Bool) (s : State) : Out :=
  unitEvent (decide (p ≤ 5))
    (if (s.port p).lst = .up then (s.setPort p { s.port p with pver := good }).fragmentEnd p else s)

end Sys2Proof.Machine
end

