-- ==== Sys2Proof/Machine/Fabric.lean ====
section
/-! DEFINITION. The switch fabric: cells into and out of the banks, the resequencer, the leak audit and the initialisation (10
R241 to R261). -/
namespace Sys2Proof.Machine
open Sys2Proof

/-- Lane (i, o, c). -/
def laneIdx (o i c : Nat) : Nat := (o * 20 + i) * 8 + c

/-- A lane. -/
def State.lane (s : State) (k : Nat) : Lane := look (fun _ => {}) s.fab.lane k

/-- A lane changed. -/
def State.setLane (s : State) (k : Nat) (l : Lane) : State := { s with fab := { s.fab with lane := put s.fab.lane k l } }

/-- A SECDED error met in a slot (10 R245): 1 corrected, 2 in cell data, 3 in a descriptor. -/
def State.cellEcc (s : State) (k ecc : Nat) : State :=
  let f := s.fab
  if ecc = 1 then ({ s with fab := { f with eccCor := satAdd 32 f.eccCor 1 } }).raise 0x40 k
  else if ecc = 2 then ({ s with fab := { f with eccUnc := satAdd 32 f.eccUnc 1 } }).raise 0x41 k
  else if ecc = 3 then ({ s with fab := { f with eccUnc := satAdd 32 f.eccUnc 1 } }).raise 0x42 k
  else s

/-- Frame bytes in cell `j` of a frame of `len` bytes (10 R242). -/
def cellBytes (len j : Nat) : Nat := if j = 0 then Nat.min len 112 else Nat.min (len - 112 - 128 * (j - 1)) 128

/-- The copies of a frame that is being written move to their next cell (10 R247). -/
def Copy.next (c : Copy) (n : Nat) : Option Copy :=
  if c.k + 1 < c.outs.length then some { c with k := c.k + 1 }
  else if c.j + 1 < n then some { c with k := 0, j := c.j + 1 }
  else none

/-- CELL_WRITE (10 R246 to R251, R255): input `i` writes its next cell into the bank of the slot; a bank without a free cell is
skipped. `ecc` is 0, 1 for a corrected error or 2 for an uncorrectable one in a descriptor. -/
def execCellWrite (i ecc : Nat) (s : State) : Out :=
  unitEvent (decide (i < 20))
    (let f := s.fab
     let t := f.slot
     match look (fun _ => []) f.inq i with
     | [] => s
     | cp :: rest =>
       if !s.live || decide (2 ≤ f.init) || decide (look (fun _ => 0) f.wSlot i = t + 1) then s
       else
         let k := (i + t) % 20
         let b := s.bank k
         let s := { s with fab := { f with wSlot := put f.wSlot i (t + 1) } }
         match b.free.getD (List.range 1024) with
         | [] => { s with fab := { s.fab with bankSkip := satAdd 32 s.fab.bankSkip 1 } }
         | idx :: free =>
           let x := s.frameOf cp.frame
           let n := cellsOf x.len
           let o := (cp.outs[cp.k]?).getD 0
           let l := laneIdx o i x.cls
           let last := decide (cp.j + 1 = n)
           let cell : Cell := { frame := cp.frame, j := cp.j, out := o, seq := (s.lane l).nextSeq, inp := i, cls := x.cls,
                                first := decide (cp.j = 0), last := last, err := x.err && last, valid := cellBytes x.len cp.j - 1, rd := t + 2 }
           let s := s.setBank k { b with free := some free, pw := b.pw ++ [(idx, qIdx o x.cls, t)] }
           let s := s.setLane l { s.lane l with nextSeq := ((s.lane l).nextSeq + 1) % 4096 }
           let q := qIdx o x.cls
           let g := s.fab
           let s := { s with fab := { g with cells := put g.cells (k * 1024 + idx) cell,
                                             qcnt := if last then put g.qcnt q (look (fun _ => 0) g.qcnt q - (x.maxc - n)) else g.qcnt,
                                             inq := put g.inq i (match cp.next n with
                                               | some c => c :: rest
                                               | none => rest) } }
           s.cellEcc k (if ecc = 2 then 3 else ecc))

/-! ### The resequencer -/

/-- A whole frame of released cells (10 R253): ready, or discarded for DISC or ERR. -/
def State.frameDone (s : State) (o i c : Nat) (cells : List Cell) : State :=
  let f := ((cells.head?).map (·.frame)).getD 0
  let drop := fun (s : State) => (s.freeCells o c cells.length).dropRef f
  if cells.any (·.disc) then
    let s := drop s
    { s with fab := { s.fab with dropLink := bump 32 s.fab.dropLink o } }
  else if cells.any (·.err) then
    let s := drop s
    { s with fab := { s.fab with rsqDisc := bump 32 s.fab.rsqDisc o } }
  else
    let s := s.credits o
    let x := s.port o
    let _ := i
    (s.setPort o { x with ready := put x.ready c (look (fun _ => []) x.ready c ++ [f]) }).fragmentEnd o

/-- A released cell (10 R253): it continues the frame in progress of its lane, or it is discarded with the cells of its frame that
follow. -/
def State.deliver (s : State) (o i c : Nat) (cell : Cell) : State :=
  let k := laneIdx o i c
  let l := s.lane k
  if l.skip ∧ !cell.first then (s.setLane k { l with skip := !cell.last }).freeCells o c 1
  else if cell.first = l.cur.isEmpty then
    if cell.last then (s.setLane k { l with cur := [], skip := false }).frameDone o i c (l.cur ++ [cell])
    else s.setLane k { l with cur := l.cur ++ [cell], skip := false }
  else
    let s := (s.setLane k { l with skip := !cell.last }).freeCells o c 1
    { s with fab := { s.fab with rsqDisc := bump 32 s.fab.rsqDisc o } }

/-- Held cells that are now in order are released (10 R252). -/
def State.releaseRun (s : State) (o i c : Nat) : Nat → State
  | 0 => s
  | fuel + 1 =>
    let k := laneIdx o i c
    let l := s.lane k
    match l.held.find? fun (h : Nat × Cell) => h.1 == l.exp with
    | none => s
    | some h =>
      ((s.setLane k { l with held := dropFirst (fun (x : Nat × Cell) => x.1 == l.exp) l.held, exp := (l.exp + 1) % 4096 }).deliver o i c h.2).releaseRun o i c fuel

/-- A cell arrives at its output (10 R252): released with what follows, held, or late. -/
def State.resequence (s : State) (o : Nat) (cell : Cell) : State :=
  let i := cell.inp
  let c := cell.cls
  let k := laneIdx o i c
  let l := s.lane k
  let d := (cell.seq + 4096 - l.exp % 4096) % 4096
  if 2048 ≤ d then { s with fab := { s.fab with late := bump 32 s.fab.late o } }
  else
    let s := { s with fab := { s.fab with store := put s.fab.store (qIdx o c) (s.storeC o c + 1) } }
    if d = 0 then
      let s := (s.setLane k { l with exp := (l.exp + 1) % 4096 }).deliver o i c cell
      let s := s.releaseRun o i c (l.held.length)
      if (s.lane k).held.isEmpty then s.setLane k { s.lane k with timer := 0, waitDt := 0 } else s
    else
      let l := { l with held := l.held ++ [(cell.seq, cell)] }
      s.setLane k (if l.held.length = 1 then { l with timer := 0, waitDt := s.now } else l)

/-- CELL_READ (10 R246, R249, R250): bank `k` reads the head cell of the highest class that can be read to the output of the slot.
`ecc` is 0, 1 corrected, 2 uncorrectable in the data, 3 uncorrectable in the descriptor. -/
def execCellRead (k ecc : Nat) (s : State) : Out :=
  unitEvent (decide (k < 20))
    (let f := s.fab
     let t := f.slot
     let o := (k + t) % 20
     let b := s.bank k
     let can := s.canSend o
     let head := fun c => (look (fun _ => []) b.q (qIdx o c)).head?.filter fun idx =>
       decide ((look (fun _ => ({} : Cell)) f.cells (k * 1024 + idx)).rd ≤ t)
     if !s.live || decide (2 ≤ f.init) || decide (look (fun _ => 0) f.rSlot k = t + 1) then s
     else match ([7, 6, 5, 4, 3, 2, 1, 0] : List Nat).find? fun c => (head c).isSome && (!can || s.storeRoom o c) with
       | none => s
       | some c =>
         match head c with
         | none => s
         | some idx =>
           let cell := look (fun _ => ({} : Cell)) f.cells (k * 1024 + idx)
           let s := s.setBank k { b with q := put b.q (qIdx o c) ((look (fun _ => []) b.q (qIdx o c)).drop 1), pr := b.pr ++ [(idx, t + 2)] }
           let g := s.fab
           let s := { s with fab := { g with rSlot := put g.rSlot k (t + 1), cells := del g.cells (k * 1024 + idx),
                                             qcnt := put g.qcnt (qIdx o c) (s.qcnt o c - 1) } }
           (s.resequence o { cell with disc := !can, err := cell.err || ecc == 2 }).cellEcc k ecc)

/-- A CELL_READ that waits for this same fabric cycle brings lane `k` its missing cell (10 R254). -/
def State.cellComing (s : State) (k : Nat) : Bool :=
  s.pending.any fun c => match c with
    | .cellRead b ecc => decide ((((execCellRead b ecc s).orElse s).lane k).exp ≠ (s.lane k).exp)
    | _ => false

/-- RSQ_GAP (10 R254): a waiting lane's timer has reached RSQTO; the missing cells are declared lost. An arrival in the same cycle goes
first. -/
def execRsqGap (o i c : Nat) (s : State) : Out :=
  unitEvent (decide (o < 20 ∧ i < 20 ∧ c < 8))
    (let k := laneIdx o i c
     let l := s.lane k
     let dist := fun (q : Nat) => (q + 4096 - l.exp % 4096) % 4096
     match l.held with
     | [] => s
     | h :: rest =>
       if usCyc (recRsqto (s.portRec o)) ≤ l.timer ∧ !s.cellComing k then
         let m := rest.foldl (fun (m : Nat) x => if dist x.1 < dist m then x.1 else m) h.1
         let s := s.freeCells o c l.cur.length
         let s := s.setLane k { l with exp := m, cur := [], skip := false, timer := 0, waitDt := s.now }
         let s := s.releaseRun o i c l.held.length
         let s := if (s.lane k).held.isEmpty then s.setLane k { s.lane k with waitDt := 0 } else s
         ({ s with fab := { s.fab with gaps := bump 32 s.fab.gaps o } }).raise 0x43 (o + 256 * i + 8192 * c)
       else s)

/-- One fabric cycle of the wait timers (10 R254): not counted while the class has no room and the store holds a ready frame of it. -/
def State.waitTick (s : State) : State :=
  let one := fun (p : Nat × Lane) =>
    if p.2.held.isEmpty then p
    else
      let o := p.1 / 160
      let c := p.1 % 8
      if !s.storeRoom o c && !(look (fun _ => []) (s.port o).ready c).isEmpty then p else (p.1, { p.2 with timer := p.2.timer + 1 })
  { s with fab := { s.fab with lane := s.fab.lane.map one } }

/-! ### The leak audit and the initialisation -/

/-- The walk over a free list from its head (10 R259): the cells walked, the marks after it, and whether it met a cell that bore the mark
of this pass. -/
def walkFree (pass : Bool) : List Nat → Nat → Nat → Nat × Nat × Bool
  | [], n, m => (n, m, false)
  | c :: r, n, m => if bit m c == pass then (n, m, true) else walkFree pass r (n + 1) (maskSet m c pass)

/-- The audit of bank `k` (10 R259, R260). -/
def State.auditBank (s : State) (k : Nat) : State :=
  let b := s.bank k
  let (w, mark, loop) := walkFree s.fab.pass (b.free.getD (List.range 1024)) 0 b.mark
  let leak := clampI (-127) 127 (1024 - (w + b.nQueued + b.nFlight : Nat))
  let s := s.setBank k { b with leak := leak, loop := loop, mark := mark }
  let total := (((List.range 20).map fun j => (s.bank j).leak).foldl (· + ·) 0).toNat
  let s := if loop || decide (leak < 0) then s.raise 0x42 k
           else if b.leak < leak then s.raise 0x44 total else s
  if 64 ≤ leak then s.raise 0x42 k else s

/-- LEAK_AUDIT (10 R259): every 10 ms a pass starts with bank 0; the parity toggles. -/
def execLeakAudit (s : State) : Out :=
  .next (if s.live && s.fab.init == 0 && s.fab.auditK == 0 && decide (s.fab.auditCyc + msCyc 10 ≤ s.cyc) then
    ({ s with fab := { s.fab with auditCyc := s.cyc, auditK := 1, pass := !s.fab.pass } } : State).auditBank 0
  else s)

/-- A pass goes on by one bank every 1024 cycles, the longest an audit of a bank takes, and ends after bank 19 (10 R259, R268; log 59). -/
def State.auditTick (s : State) : State :=
  let f := s.fab
  if f.auditK = 0 ∨ s.cyc < f.auditCyc + 1024 * f.auditK then s
  else if f.auditK < 20 then ({ s with fab := { f with auditK := f.auditK + 1 } } : State).auditBank f.auditK
  else { s with fab := { f with auditK := 0, auditCnt := satAdd 32 f.auditCnt 1, auditEnd := s.now } }

/-- FABRIC_INIT_START (10 R261; 21 R522): t0. A pass of the audit in progress ends uncounted (log 59). -/
def execFabricInitStart (s : State) : Out :=
  .next (if s.live && s.flt.initReq && s.fab.init == 0 then
    { s with flt := { s.flt with initReq := false },
             fab := { s.fab with init := 1, initAt := s.cyc, reinit := satAdd 16 s.fab.reinit 1, auditK := 0 } }
  else s)

/-- The octets of a frame that ends before its end, after `n` bytes of its fragment, with an inverted FCS (10 R261): that of the octets
sent. -/
def Tx.broken (t : Tx) (n : Nat) : List Byte :=
  let n := Nat.min n (t.bytes.length - t.sent - 4)
  (t.bytes.drop t.sent).take n ++ (toLE 4 (crc32 (t.bytes.take (t.sent + n)))).map fun b => ~~~b

/-- FABRIC_INIT_DISCARD (10 R261): t1, 2 us later; every cell is discarded, and frames in transmission from a store are ended with
an inverted FCS. -/
def execFabricInitDiscard (s : State) : Out :=
  .next (if s.fab.init = 1 ∧ s.fab.initAt + usCyc 2 ≤ s.cyc then
    let n := s.banks (fun b => b.nQueued + b.pw.length) + (s.fab.store.map fun (p : Nat × Nat) => p.2).sum
    let s := (List.range 20).foldl (fun s p =>
      let x := s.port p
      let hit := fun (t : Option Tx) => match t with
        | some t => !t.express
        | none => false
      let last := match x.tx with
        | some t => if t.express then x.last else t.broken (s.fragSent p t)
        | none => x.last
      let k := b2n (hit x.tx) + b2n (hit x.pre)
      let s := s.setPort p { x with ready := [], tx := if hit x.tx then none else x.tx, pre := if hit x.pre then none else x.pre, last := last }
      { s with fab := { s.fab with stomp := satAdd 32 s.fab.stomp k } }) s
    let kept := (List.range 20).filterMap fun p => (s.port p).tx.map (·.frame)
    let f := s.fab
    { s with fab := { f with init := 2, initAt := s.cyc, reinitCells := satAdd 32 f.reinitCells n, inq := [], cells := [], store := [],
                             bank := f.bank.map fun (p : Nat × Bank) => (p.1, { p.2 with q := [], pw := [], pr := [], free := some [] }),
                             lane := f.lane.map fun (p : Nat × Lane) => (p.1, { p.2 with held := [], cur := [] }),
                             frames := f.frames.filter fun (p : Nat × Frame) => kept.contains p.1 } }
  else s)

/-- FABRIC_INIT_REBUILD (10 R261): t2; free lists, counters, sequence numbers and the slot counter as at the start. -/
def execFabricInitRebuild (s : State) : Out :=
  .next (if s.fab.init = 2 then
    { s with fab := { s.fab with init := 3, initAt := s.cyc, slot := 0, phase := 0, bank := [], cells := [], qcnt := [], lane := [], store := [],
                                 wSlot := [], rSlot := [], pass := false } }
  else s)

/-- FABRIC_INIT_END (10 R261): t3, one slot later; admission resumes. -/
def execFabricInitEnd (s : State) : Out :=
  .next (if s.fab.init = 3 ∧ 1 ≤ s.fab.slot then { s with fab := { s.fab with init := 0 } } else s)

end Sys2Proof.Machine
end

