-- ==== Sys2Proof/Machine/Ingress.lean ====
section
/-! DEFINITION. Reception at a switch port: MACsec validation, classification, filters, learning, 802.1CB, the forwarding decision and
the admission of copies (10 R247, R255 to R258, R262 to R264; 11 R276 to R280, R285 to R287, R290). -/
namespace Sys2Proof.Machine
open Sys2Proof

/-! ### MACsec -/

/-- The packet number of a received frame (11 R290): with an SSCI the upper half is recovered as 802.1AE states (log 22). -/
def Sa.recover (x : Sa) (low : Nat) : Nat :=
  if x.ssci = 0 then low
  else
    let hi := x.pn / 2 ^ 32
    let up := 2 ^ 31 ≤ x.pn % 2 ^ 32 && decide (low < 2 ^ 31)
    ((if up then hi + 1 else hi) * 2 ^ 32 + low) % 2 ^ 64

/-- A received frame with MACsec removed, before step 1 of 11 R276: none where it is dropped. -/
def State.macsecRx (s : State) (p : Nat) (l : List Byte) : Option (List Byte) × State :=
  if !(decide (p ≤ 5) && (s.port p).rxEver) || macsecExempt l then (some l, s)
  else
    let an := be l 14 1 % 4
    let i := p * 8 + 4 + an
    let x := s.sa i
    let pn := x.recover (be l 16 4)
    let body := l.take (l.length - 4)
    let sealed := body.drop 28
    let good := be l 12 2 == 0x88E5 && be l 14 1 == 0x2C + an && be l 20 8 == x.sci && x.st == 2 && decide (x.pn ≤ pn) && decide (16 ≤ sealed.length)
    let plain := if good then
        gcmOpen (x.key.take 32) (x.iv pn) (body.take 28) (sealed.take (sealed.length - 16)) (sealed.drop (sealed.length - 16))
      else none
    match plain with
    | none => (none, s.portCnt p 13)
    | some t =>
      let out := l.take 12 ++ t
      (some (out ++ toLE 4 (crc32 out)),
       (s.setSa i { x with pn := pn + 1, count := satAdd 32 x.count 1 }).portCnt p 12)

/-! ### Stream filters -/

/-- A stream filter (11 R285). -/
def State.filt (s : State) (i : Nat) : Filt := look (fun _ => {}) s.net.filt i

/-- A stream filter changed. -/
def State.setFilt (s : State) (i : Nat) (x : Filt) : State := { s with net := { s.net with filt := put s.net.filt i x } }

/-- The frame matches the entry (11 R285, R286). -/
def filtMatch (r : List Byte) (p dmac vid pcp : Nat) : Bool :=
  let v := le r 6 2
  bit v 15 && (bit v 12 || le r 0 6 == dmac) && (bit v 13 || v % 4096 == vid) && (bit (byteAt r 8) 3 || byteAt r 8 % 8 == pcp) &&
    (byteAt r 9 % 32 == 0x1F || byteAt r 9 % 32 == p)

/-- MAXSDU, CIR, CBS and CBSTREAM of an entry (11 R285). -/
def filtSdu (r : List Byte) : Nat := le r 10 2
def filtCir (r : List Byte) : Nat := le r 12 4
def filtCbs (r : List Byte) : Nat := le r 16 4
def filtCb (r : List Byte) : Nat := le r 20 2

/-- Units of a meter bucket for `n` bytes. -/
def meterUnits (n : Nat) : Nat := n * 8 * 400000

/-- The filter of a frame acts (11 R286): whether the frame passes. -/
def State.filterActs (s : State) (i len : Nat) : Bool × State :=
  let x := s.filt i
  let fill := Nat.min (meterUnits (filtCbs x.rcd)) (x.bucket + (s.cyc - x.since) * filtCir x.rcd)
  let long := filtSdu x.rcd != 0 && decide (filtSdu x.rcd < len)
  let metered := filtCir x.rcd != 0
  let short := metered && decide (fill < meterUnits len)
  let drop := long || short
  (!drop, s.setFilt i { x with bucket := if metered && !drop then fill - meterUnits len else fill, since := s.cyc,
                               drop := if drop then satAdd 32 x.drop 1 else x.drop })

/-! ### The forwarding database -/

/-- An entry of the forwarding database. -/
def State.fdb (s : State) (i : Nat) : Fdb := look (fun _ => {}) s.net.fdb i

/-- An entry changed. -/
def State.setFdb (s : State) (i : Nat) (x : Fdb) : State := { s with net := { s.net with fdb := put s.net.fdb i x } }

/-- The four entries of the set of a key (11 R278). -/
def fdbSet (mac vid : Nat) : List Nat := (List.range 4).map fun j => Config.fdbHash mac vid % 2048 * 4 + j

/-- The entry of a key. -/
def State.fdbFind (s : State) (mac vid : Nat) : Option Nat :=
  (fdbSet mac vid).find? fun i => (s.fdb i).valid && (s.fdb i).mac == mac && (s.fdb i).vid == vid

/-- Where a new entry of a key goes: a free entry of its set, else the oldest dynamic one (11 R278). -/
def State.fdbRoom (s : State) (mac vid : Nat) : Option Nat :=
  match (fdbSet mac vid).find? fun i => !(s.fdb i).valid with
  | some i => some i
  | none => ((fdbSet mac vid).filter fun i => !(s.fdb i).static).foldl (fun (o : Option Nat) i => match o with
      | none => some i
      | some j => if (s.fdb i).since < (s.fdb j).since then some i else some j) none

/-- Learning (11 R278). -/
def State.learn (s : State) (p mac vid : Nat) : State :=
  match s.fdbFind mac vid with
  | some i => if (s.fdb i).static then s else s.setFdb i { s.fdb i with mask := 2 ^ p, since := s.cyc }
  | none =>
    match s.fdbRoom mac vid with
    | some i => s.setFdb i { valid := true, mac := mac, vid := vid, mask := 2 ^ p, since := s.cyc }
    | none => s.portCnt p 7

/-! ### 802.1CB -/

/-- A CB stream (11 R287). -/
def State.cb (s : State) (i : Nat) : Cb := look (fun _ => {}) s.net.cb i

/-- A CB stream changed. -/
def State.setCb (s : State) (i : Nat) (x : Cb) : State := { s with net := { s.net with cb := put s.net.cb i x } }

/-- Bits of FUNC of an enabled stream. -/
def Cb.gen (x : Cb) : Bool := bit (byteAt x.rcd 0) 7 && bit (byteAt x.rcd 0) 0
def Cb.recov (x : Cb) : Bool := bit (byteAt x.rcd 0) 7 && bit (byteAt x.rcd 0) 1

/-- Recovery of one sequence number (11 R287, algorithms of IEEE 802.1CB, log 22): 0 passes, 1 duplicate, 2 out of window, with the
new number of the stream and the numbers in its window. -/
def Cb.take (x : Cb) (n : Nat) : Nat × Option Nat × List Nat :=
  match x.rcv with
  | none => (0, some n, [n])
  | some r =>
    if byteAt x.rcd 1 = 1 then (if n = r then (1, some r, x.hist) else (0, some n, [n]))
    else
      let h := byteAt x.rcd 2
      let d : Int := signed 16 ((n + 65536 - r) % 65536)
      if (h : Int) ≤ d ∨ d ≤ -(h : Int) then (2, some r, x.hist)
      else if d ≤ 0 then (if x.hist.contains n then (1, some r, x.hist) else (0, some r, x.hist ++ [n]))
      else (0, some n, (x.hist.filter fun m => decide ((n + 65536 - m) % 65536 < h)) ++ [n])

/-- The recovery of a stream acts on a frame: what of the frame passes, its R-TAG removed. A frame without an R-TAG passes (log 22). -/
def State.recovery (s : State) (i : Nat) (l : List Byte) : Option (List Byte) × State :=
  let x := s.cb i
  let o := innerOff l
  if be l o 2 ≠ 0xF1C1 then (some l, s)
  else
    let (k, r, hs) := x.take (be l (o + 4) 2)
    let body := (l.take (l.length - 4))
    let out := body.take o ++ body.drop (o + 6)
    if k = 0 then (some (out ++ toLE 4 (crc32 out)), s.setCb i { x with rcv := r, hist := hs, passed := satAdd 32 x.passed 1, since := s.cyc })
    else if k = 1 then (none, s.setCb i { x with dups := satAdd 32 x.dups 1 })
    else (none, s.setCb i { x with oow := satAdd 32 x.oow 1 })

/-- CB_RECOVERY_RESET (11 R287): RESETMS has passed since the last frame that passed. -/
def execCbRecoveryReset (i : Nat) (s : State) : Out :=
  unitEvent (decide (i < 256))
    (let x := s.cb i
     if x.recov && x.rcv.isSome && decide (x.since + msCyc (le x.rcd 8 4) ≤ s.cyc) then s.setCb i { x with rcv := none, hist := [] } else s)

/-- FDB_AGEOUT (11 R278): a dynamic entry ages out 300 s after its last refresh. -/
def execFdbAgeout (i : Nat) (s : State) : Out :=
  unitEvent (decide (i < 8192))
    (let x := s.fdb i
     if x.valid && !x.static && decide (x.since + msCyc 300000 ≤ s.cyc) then s.setFdb i {} else s)

/-! ### Forwarding and admission -/

/-- The egress set before its restriction (11 R279). -/
def State.egressSet (s : State) (dmac vid members : Nat) (gen : Option Nat) : Nat :=
  match gen with
  | some i => le (s.cb i).rcd 4 3
  | none =>
    if dmac = 0xFFFFFFFFFFFF then members
    else match s.fdbFind dmac vid with
      | some i => if bit dmac 0 && !(s.fdb i).static then members else (s.fdb i).mask
      | none => members

/-- The express lane takes the frame to output `o` (10 R262). -/
def State.expressOk (s : State) (p o c : Nat) (metered : Bool) : Bool :=
  let x := s.port o
  s.expressOn && !s.fabBusy && s.canSend o && bit (recExp (s.portRec o)) c && x.tx.isNone && x.pre.isNone && s.pcnt o == 0 && s.storeN o == 0 &&
    decide (s.rate o ≤ s.rate p) && bit x.gates c &&
    (match s.openFor o c with
     | none => true
     | some d => decide (recMax (s.portRec p) * 8000 ≤ d * s.rate o)) &&
    x.credOk c && !metered

/-- One copy meets the checks of 10 R258: 0 admitted, 1 INITDROP, 2 DROPLINK, 3 DROPQ, 4 DROPP, 5 DROPG. -/
def State.admitStep (s : State) (o c maxc : Nat) : Nat :=
  let r := s.portRec o
  let q := s.qcnt o c
  if s.fabBusy then 1
  else if !s.canSend o then 2
  else if recQmax r c < q + maxc then 3
  else if recPmax r < s.pcnt o + maxc then 4
  else if s.shpool < s.shused + (maxc - Nat.min maxc (recQmin r c - q)) ∨ s.banks Bank.nFree < maxc then 5
  else 0

/-- One copy admitted or dropped (10 R255, R258). -/
def State.admitCopy (s : State) (o c maxc : Nat) : Bool × State :=
  let f := s.fab
  let q := qIdx o c
  match s.admitStep o c maxc with
  | 0 => (true, { s with fab := { f with qcnt := put f.qcnt q (s.qcnt o c + maxc) } })
  | 1 => (false, { s with fab := { f with initDrop := satAdd 32 f.initDrop 1 } })
  | 2 => (false, { s with fab := { f with dropLink := bump 32 f.dropLink o } })
  | 3 => (false, { s with fab := { f with dropQ := bump 32 f.dropQ q } })
  | 4 => (false, { s with fab := { f with dropP := bump 32 f.dropP q } })
  | _ => (false, { s with fab := { f with dropG := bump 32 f.dropG q } })

/-- Every copy of a frame in ascending order of output; the outputs admitted. -/
def State.admitAll (s : State) (c maxc : Nat) : List Nat → List Nat × State
  | [] => ([], s)
  | o :: r =>
    let (ok, s) := s.admitCopy o c maxc
    let (l, s) := s.admitAll c maxc r
    (if ok then o :: l else l, s)

/-- Octets of a port's ingress FIFO that wait to be written (10 R247). -/
def State.fifoUsed (s : State) (p : Nat) : Nat :=
  ((look (fun _ => []) s.fab.inq p).map fun (k : Copy) => (s.frameOf k.frame).len - (if k.j = 0 then 0 else 112 + 128 * (k.j - 1))).sum

/-- The output whose express lane a request may take, as things stand (10 R262). -/
def State.expressOf (s : State) (r : FReq) : Option Nat :=
  match r.outs with
  | [o] => if !r.repl && (s.credits o).expressOk r.inp o r.frame.cls r.metered then some o else none
  | _ => none

/-- A frame becomes frame `nextFrame` with `k` copies inside the switch. -/
def State.placeFrame (s : State) (x : Frame) (k : Nat) : State :=
  let n := s.fab.nextFrame
  { s with fab := { s.fab with nextFrame := n + 1, frames := put s.fab.frames n { x with refs := k } } }

/-- A frame takes the express lane to output `o` (10 R263, R264). -/
def State.sendExpress (s : State) (r : FReq) (o : Nat) : State :=
  let n := s.fab.nextFrame
  let s := (s.credits o).placeFrame r.frame 1
  let s := { s with fab := { s.fab with expLast := put s.fab.expLast o r.inp } }
  match s.headDrop o r.frame.cls n with
  | some k => (s.dropRef n).portCnt o k
  | none =>
    let s := s.startTx o r.frame.cls n true r.frame.err
    { s with fab := { s.fab with expFrm := satAdd 32 s.fab.expFrm 1 } }

/-- A frame takes the load-balanced path (10 R258): its copies are admitted or dropped. A frame whose fault is known with its only cell has
failed step 1 of 11 R276. -/
def State.sendBanks (s : State) (r : FReq) : State :=
  if r.frame.err ∧ r.frame.len ≤ 112 then s
  else
    let n := s.fab.nextFrame
    let (l, s) := s.admitAll r.frame.cls r.frame.maxc r.outs
    if l.isEmpty then s
    else
      let s := s.placeFrame r.frame l.length
      { s with fab := { s.fab with inq := put s.fab.inq r.inp (look (fun _ => []) s.fab.inq r.inp ++ [{ frame := n, outs := l }]) } }

/-- The express requests of one output are decided (10 R263): the first input after the one it took last goes, the others are admitted. -/
def State.sendRivals (s : State) (l : List FReq) (o : Nat) : State :=
  let mine := l.filter fun r => r.outs == [o]
  let after := look (fun _ => 19) s.fab.expLast o + 1
  let turn := (List.range 20).flatMap fun j => mine.filter fun r => r.inp == (after + j) % 20
  match turn.find? fun r => (s.expressOf r).isSome with
  | none => mine.foldl State.sendBanks s
  | some w => (mine.filter (· != w)).foldl State.sendBanks (s.sendExpress w o)

/-- The requests of one fabric cycle (10 R258, R263): the load-balanced admissions in ascending order of input, then the express requests of
each output. -/
def State.sendAll (s : State) : State :=
  let l := (List.range 20).flatMap fun p => s.fab.req.filter fun r => r.inp == p
  let s := { s with fab := { s.fab with req := [] } }
  let exp := l.filter fun r => (s.expressOf r).isSome
  let s := (l.filter fun r => !exp.contains r).foldl State.sendBanks s
  (List.range 20).foldl (fun s o => s.sendRivals exp o) s

/-- The fabric decides once every frame of this cycle has been received (10 R258, R263; log 40). -/
def State.sendDue (s : State) : State :=
  if s.pending.any fun c => match c with
    | .frameIngress .. => true
    | _ => false
  then s else s.sendAll

/-- The filter's actions on a frame that it matches (11 R286); a frame in error makes no lasting change (log 22). -/
def State.filterStep (s : State) (fi : Option Nat) (x : Frame) : Bool × State :=
  match fi with
  | some i => if x.err then (true, s) else s.filterActs i x.len
  | none => (true, s)

/-- The octets that go on after the recovery of stream `k` (11 R287), none where the frame is a duplicate; a frame in error goes on. -/
def State.recoverStep (s : State) (k : Option Nat) (x : Frame) : Option (List Byte) × State :=
  match k with
  | some k => if x.err then (some x.bytes, s) else s.recovery k x.bytes
  | none => (some x.bytes, s)

/-- Stream `k` gives the frame its sequence number (11 R287). -/
def State.sequenceStep (s : State) (k : Option Nat) : State :=
  match k with
  | some k => s.setCb k { s.cb k with seq := ((s.cb k).seq + 1) % 65536, passed := satAdd 32 (s.cb k).passed 1 }
  | none => s

/-- Steps 5 and 6 of 11 R276 for a frame whose VLAN and class are known. A frame in error makes no lasting change here (log 22). -/
def State.lookup (s : State) (p : Nat) (x : Frame) : State :=
  let dmac := le x.bytes 0 6
  let fi := (List.range 1024).find? fun i => filtMatch (s.filt i).rcd p dmac x.vid (x.pcp % 8)
  let acts := s.filterStep fi x
  let s := acts.2
  if !acts.1 then s.portCnt p 6
  else
    let s := if !x.err && bit (byteAt (s.portRec p) 1) 1 then s.learn p (le x.bytes 6 6) x.vid else s
    let r := match fi with
      | some i => (s.filt i).rcd
      | none => []
    let st := if fi.isSome && decide (filtCb r < 256) then some (filtCb r) else none
    let gen := st.filter fun k => (s.cb k).gen
    let rec_ := st.filter fun k => (s.cb k).recov
    let got := s.recoverStep rec_ x
    let s := got.2
    match got.1 with
    | none => s
    | some bs =>
      let rtag := gen.map fun k => (s.cb k).seq
      let s := s.sequenceStep gen
      let members := (look (fun _ => ({} : Vlan)) s.net.vlan x.vid).member
      let outs := (maskList 20 (s.egressSet dmac x.vid members gen)).filter fun o => bit members o && o != p
      let q : FReq := { inp := p, frame := { x with bytes := bs, len := bs.length, rtag := rtag, stream := fi.getD 0x7FF }, outs := outs,
                        repl := gen.isSome, metered := fi.isSome && filtCir r != 0 }
      { s with fab := { s.fab with req := s.fab.req ++ [q] } }

/-- Steps 1 to 4 of 11 R276. `tag` is that of the DMA channel that carried the frame, on an internal port. A frame in error goes on, for it
may be on its way before the error shows (10 R244, R264), once the 18 bytes of its lookup key are there. -/
def State.classify (s : State) (p : Nat) (l : List Byte) (good : Bool) (t : Nat) (tag : Option Nat) : State :=
  let r := s.portRec p
  let lenOk := decide (64 ≤ l.length) && decide (l.length ≤ recMax r)
  let bad := !good || !lenOk
  let s := if !good then s.portCnt p 2 else if !lenOk then s.portCnt p 3 else s.portCnt p 0
  if bad ∧ l.length < 18 then s
  else
    let l := l.take (recMax r)
    let tci := be l 14 2
    let tagged := hasTag l && tci % 4096 != 0
    let acc := byteAt r 10
    let vid := if tagged then tci % 4096 else le r 8 2
    let pcp := if hasTag l then tci / 8192 + 8 * (tci / 4096 % 2) else byteAt r 11 % 8
    let cls := bits (le r 12 3) (3 * (pcp % 8) + 2) (3 * (pcp % 8))
    let v := look (fun _ => ({} : Vlan)) s.net.vlan vid
    if (acc == 1 && !tagged) || (acc == 2 && tagged) || !bit v.member p then (if bad then s else s.portCnt p 4)
    else if tag.isSome && tag != some (s.owner 7 vid) then (if bad then s else s.portCnt p 5)
    else s.lookup p { bytes := l, tsin := t, len := l.length, inp := p, cls := cls, vid := vid, pcp := pcp, err := bad, maxc := cellsOf (recMax r) }

/-- A Pennant frame on a port of SP10 to SP15 (13 R341). -/
def State.isPennantEth (s : State) (p : Nat) (l : List Byte) : Bool :=
  isT1s p && s.pennant (p + 6) && be l 0 6 == 0x03000000504E && be l 12 2 == 0x88B5

/-- A frame that port `p` has received goes on into the switch, under the tag `tag` on an internal port (11 R276; 10 R247); the input buffer
must have room for it. A Pennant frame is taken at ingress (13 R341; PENNANT_READY_RX carries its content); any other frame on a segment of SP10
to SP15 is a wake event of its exchange (13 R344). -/
def State.received (s : State) (p : Nat) (l : List Byte) (good : Bool) (ago frags : Nat) (tag : Option Nat) : State :=
  if l.isEmpty then s
  else if 16384 < s.fifoUsed p + recMax (s.portRec p) then { s with fab := { s.fab with inOvf := satAdd 32 s.fab.inOvf 1 } }
  else
    let s := if p ≤ 5 then (List.range frags).foldl (fun s _ => s.portCnt p 11) s else s
    if good && s.isPennantEth p l then s.portCnt p 0
    else
      let s := if isT1s p then s.segEvent (p + 6) else s
      match s.macsecRx p l with
      | (none, s) => s
      | (some l, s) => s.classify p l good (s.now - ago * 5 / 2) tag

/-- A frame is received on port `p` while its link is up; SP19 takes the oldest frame the bridge has handed it, under that frame's owner (14
R361). -/
def State.receive (s : State) (p : Nat) (data : List Byte) (good : Bool) (ago dma frags : Nat) : State :=
  let x := s.port p
  if !(s.live && (x.lst == .up || x.lst == .sleepReq)) then s
  else if p = 19 then
    (match s.brg.eth with
     | [] => s
     | (o, b) :: r => ({ s with brg := { s.brg with eth := r } }).received 19 (b ++ toLE 4 (crc32 b)) true ago frags (some o))
  else s.received p data good ago frags (if 16 ≤ p then some (s.owner 1 dma) else none)

/-- FRAME_INGRESS (11 R276; 10 R247): port `p` has received a frame, whose first byte its MAC took `ago` fabric cycles before (TSIN, 10 R243).
`good` says that its FCS holds, `dma` names the DMA channel that carries it on SP16 to SP18, `frags` counts its fragments; SP19 takes the
oldest frame the bridge has handed it (14 R361). -/
def execFrameIngress (p : Nat) (data : List Byte) (good : Bool) (ago dma frags : Nat) (s : State) : Out :=
  unitEvent (decide (p < 20 ∧ dma < 64)) (s.receive p data good ago dma frags).sendDue

end Sys2Proof.Machine
end

