-- ==== Sys2Proof/Machine/NetCmd.lean ====
section
/-! DEFINITION. The NET commands and the link of each port: port records, VLANs, forwarding entries, TSN tables, MACsec SAs, TC10 and
the 802.1AS record (05 R120; 11 R271 to R275, R277 to R293). -/
namespace Sys2Proof.Machine
open Sys2Proof

/-! ### Links -/

/-- The port is enabled, UP by USXGMII (11 R271, R273): block lock, the exchange ended, the in-band word with link up, full duplex and the
speed of MODE, and the external PHY's link up. -/
def State.usxOk (s : State) (p : Nat) : Bool :=
  let x := s.port p
  let speed := match byteAt (s.portRec p) 2 with
    | 0 => 3
    | 1 => 5
    | _ => 4
  x.lock && x.exch && bit x.word 0 && bit x.word 12 && bit x.word 15 && bits x.word 11 9 == speed && x.mdioUp

/-- SP00 or SP01 follows its conditions. -/
def State.usxCheck (s : State) (p : Nat) : State :=
  let l := (s.port p).lst
  if l = .disabled then s
  else if s.usxOk p then (if l = .up then s else s.portUp p)
  else if l = .up then s.setLink p .down else s

/-- A port has been enabled (11 R271, R272). A T1 PHY that a reset of the C-die left asleep or linked (03 R60) is found so. -/
def State.enablePort (s : State) (p : Nat) : State :=
  if 16 ≤ p then s.setLink p .up
  else if isT1s p then
    if s.asleep (p + 6) then s.setLink p .asleep
    else if s.selfUp p then s.portUp p else s.setLink p .down
  else if isT1 p then
    let y := s.phy p
    if y.asleep then s.setLink p .asleep
    else if y.link ∧ y.mode = byteAt (s.portRec p) 2 ∧ y.role = byteAt (s.portRec p) 3 then s.portUp p
    else (s.setLink p .down).linkWanted p
  else (s.setLink p .down).usxCheck p

/-- A port is disabled (11 R275): its frames are discarded, its LINK request or grant ends. -/
def State.disablePort (s : State) (p : Nat) : State :=
  let s := (s.endLink p).setLink p .disabled
  (s.setPort p { s.port p with retryAt := none }).settle

/-- A linked port loses its link (11 R271, R272). -/
def State.lostLink (s : State) (p : Nat) : State := (s.setLink p .down).linkWanted p

/-- LINK_TRAINING_DONE (11 R271): T1 training is complete, PLCA beacons are received, or block lock is reached. -/
def execLinkTrainingDone (p : Nat) (s : State) : Out :=
  unitEvent (decide (p < 20))
    (let l := (s.port p).lst
     if isT1 p then (if l = .training then s.portUp p else s)
     else if isT1s p then
       (if (s.seg (p + 6)).xst = 1 then s.setSeg (p + 6) { s.seg (p + 6) with lup := true }
        else if l = .down ∧ !s.asleep (p + 6) then s.portUp p else s)
     else if p ≤ 1 then (s.setPort p { s.port p with lock := true }).usxCheck p
     else s)

/-- LINK_TRAINING_TIMEOUT (11 R272): training is not complete 500 ms after the grant. -/
def execLinkTrainingTimeout (p : Nat) (s : State) : Out :=
  unitEvent (decide (p < 20))
    (if (s.port p).lst = .training ∧ (s.port p).trainAt + msCyc 500 ≤ s.cyc then
       let s := (s.endLink p).setLink p .down
       (s.setPort p { s.port p with retryAt := some (s.cyc + msCyc 100) }).settle
     else s)

/-- LINK_RETRY_TIMER (11 R272; 13 R331): the wait has passed, and a new request is raised. -/
def execLinkRetryTimer (p : Nat) (s : State) : Out :=
  unitEvent (decide (p < 20))
    (if isT1s p then
       (match (s.seg (p + 6)).retryLink with
        | some t => if t ≤ s.cyc then (s.setSeg (p + 6) { s.seg (p + 6) with retryLink := none }).askNormal (p + 6) else s
        | none => s)
     else match (s.port p).retryAt with
     | some t => if t ≤ s.cyc then (s.setPort p { s.port p with retryAt := none }).linkWanted p else s
     | none => s)

/-- LINK_LOSS (11 R271): a linked port loses its link; on SP00 and SP01 the block lock. -/
def execLinkLoss (p : Nat) (s : State) : Out :=
  unitEvent (decide (p < 20))
    (if p ≤ 1 then (s.setPort p { s.port p with lock := false, exch := false, txWord := 1 }).usxCheck p
     else if 16 ≤ p then s
     else if (s.port p).lst = .up ∨ (s.port p).lst = .sleepReq then s.lostLink p
     else if isT1 p then s.setPhy p { s.phy p with link := false } else s)

/-- MDIO_POLL (11 R271, R272): the PMA link status read from the external PHY. -/
def execMdioPoll (p : Nat) (up : Bool) (s : State) : Out :=
  unitEvent (decide (p < 2)) (if s.live then (s.setPort p { s.port p with mdioUp := up }).usxCheck p else s)

/-- USXGMII_INBAND_WORD (11 R273): a changed word restarts the exchange, which ends when the word comes with its acknowledge bit. The
device's own word acknowledges a word that has come again (log 23). -/
def execUsxgmiiInbandWord (p w : Nat) (s : State) : Out :=
  unitEvent (decide (p < 2))
    (if !s.live || !bit w 0 then s
     else
       let x := s.port p
       let noAck := fun (v : Nat) => if bit v 14 then v - 16384 else v
       let same := noAck w == noAck x.word
       (s.setPort p { x with word := w, txWord := if same then 0x4001 else 1, exch := same && (x.exch || bit w 14) }).usxCheck p)

/-! ### TC10 -/

/-- TC10_SLEEP_REQUEST_RX (11 R292): the partner asks for sleep; it is acknowledged. -/
def execTc10SleepRequestRx (p : Nat) (s : State) : Out :=
  unitEvent (decide (p < 20)) (if isT1 p && (s.port p).lst == .up then s.setLink p .asleep else s)

/-- TC10_SLEEP_ACK_RX (11 R292): the partner acknowledges within 16 ms. -/
def execTc10SleepAckRx (p : Nat) (s : State) : Out :=
  unitEvent (decide (p < 20))
    (if isT1 p && (s.port p).lst == .sleepReq && decide (s.cyc ≤ (s.port p).sleepAt + msCyc 16) then s.setLink p .asleep else s)

/-- A sleep handshake ends without sleep (11 R292). -/
def State.sleepAborted (s : State) (p : Nat) : State := (s.setLink p .up).portCnt p 14

/-- TC10_SLEEP_ABORT (11 R292): the partner aborts, or does not answer in 16 ms. -/
def execTc10SleepAbort (p : Nat) (s : State) : Out :=
  unitEvent (decide (p < 20)) (if isT1 p && (s.port p).lst == .sleepReq then s.sleepAborted p else s)

/-- Bit `i` of MODLATCH sets (13 R338). -/
def State.latchMod (s : State) (i : Nat) : State :=
  let m := s.wake.modLatch
  { s with wake := { s.wake with modLatch := if bit m i then m else m + 2 ^ i } }

/-- A TC10 wake-up on a T1 port while the module is awake (11 R292; 13 R338). -/
def State.tc10Wake (s : State) (p : Nat) : State :=
  if !isT1 p then s
  else if (s.port p).lst = .sleepReq then s.sleepAborted p
  else if (s.port p).lst = .asleep then ((s.latchMod (p + 2)).setLink p .down).linkWanted p
  else if (s.phy p).asleep then (s.setPhy p { s.phy p with asleep := false }).latchMod (p + 2)
  else s

/-- TC10_WAKEUP_RX (11 R292; 13 R338). -/
def execTc10WakeupRx (p : Nat) (s : State) : Out := unitEvent (decide (p < 20)) (s.tc10Wake p)

/-- NET.SLEEP (05 R120; 11 R292). -/
def execNetSleep (h : Hdr) (port : Nat) (s : State) : Out :=
  fwCmd h s (s.guarded h
    [noEpoch h, bp (!isT1 port) 0x11, t01 h, bst ((s.port port).lst != .up) 0x12]
    ((s.setPort port { s.port port with lst := .sleepReq, sleepAt := s.cyc }).ok h))

/-- The interim completion of a NET.WAKE that goes on (04 R98; 05 R117): deferred while the LINK request `hd` is queued. -/
def State.wakeAccepted (s : State) (h : Hdr) (hd : Nat) : State :=
  if !(s.net.wakeOps.any fun (w : Nat × Hdr × Nat) => w.2.1 == h) then s
  else match s.handleIdx hd with
    | some i => if (s.admEnt i).st = 1 then (s.accepted h 0x02).inflightState h 5 else s.waits h
    | none => s.waits h

/-- NET.WAKE (05 R120; 11 R292). A port that is neither UP nor ASLEEP is waited for (log 23). -/
def execNetWake (h : Hdr) (port deadline : Nat) (s : State) : Out :=
  fwCmd h s (s.guarded h
    [noEpoch h, bp (decide (port < 2 ∨ 15 < port)) 0x11, t01 h]
    (if (s.port port).lst = .up then s.ok h
     else
       let s := { s with net := { s.net with wakeOps := s.net.wakeOps ++ [(port, h, s.cyc + msCyc deadline)] } }
       let s := if (s.port port).lst ≠ .asleep then s
                else if isT1s port then s.wakeSeg (port + 6) h.ring 0
                else (s.setLink port .down).requestLink port h.ring 0
       s.wakeAccepted h (if isT1s port then (s.seg (port + 6)).handle else (s.port port).handle)))

/-- NET_WAKE_DEADLINE (05 R120): no link by DEADLINE. -/
def execNetWakeDeadline (p : Nat) (s : State) : Out :=
  unitEvent (decide (p < 20))
    (let past := fun (w : Nat × Hdr × Nat) => w.1 == p && decide (w.2.2 ≤ s.cyc)
     let l := s.net.wakeOps.filter past
     let s := { s with net := { s.net with wakeOps := s.net.wakeOps.filter fun w => !past w } }
     l.foldl (fun s (w : Nat × Hdr × Nat) => s.fail w.2.1 .timeout 0x10) s)

/-! ### The port record -/

/-- A field of the record lies outside its range (10 R257; 11 R274). -/
def portRange (p : Nat) (r : List Byte) : Bool :=
  let b := byteAt r
  let q := (List.range 8).any fun c => decide (recQmax r c < 17 ∨ 1408 < recQmax r c)
  b 0 != 1 || decide ((if p ≤ 1 then 2 else if p ≤ 5 then 1 else 0) < b 2) || decide ((if isT1 p then 1 else 0) < b 3) ||
    (if isT1s p then decide (7 < b 4) && b 4 != 0xFF else b 4 != 0) || (if isT1s p then decide (b 5 < 1 ∨ 8 < b 5) else b 5 != 0) ||
    decide ((if p ≤ 1 then 31 else 0) < b 7) || decide (le r 8 2 < 1 ∨ 4094 < le r 8 2) ||
    (if 16 ≤ p then b 10 != 1 else decide (2 < b 10)) || (decide (5 < p) && b 15 != 0) || decide (recMax r < 64 ∨ 2048 < recMax r) ||
    decide (recPmax r < 17 ∨ 1408 < recPmax r) || decide (recRsqto r < 10 ∨ 50000 < recRsqto r) || q

/-- A reserved bit or byte of the record is not 0 (11 R274). -/
def portReserved (r : List Byte) : Bool :=
  decide (4 ≤ byteAt r 1) || decide (8 ≤ byteAt r 11) || byteAt r 21 != 0 || !allZero (slice r 56 8)

/-- A combination of the record is not allowed (10 R257). -/
def State.portMix (s : State) (p : Nat) (r : List Byte) : Bool :=
  ((List.range 8).any fun c => decide (recQmax r c < recQmin r c) || decide (recPmax r < recQmax r c)) ||
    decide (16384 < ((List.range 20).map fun q => if q = p then recQminSum r else recQminSum (s.portRec q)).sum)

/-- A link-down-only field changes (11 R274, R275). -/
def linkFields (a b : List Byte) : Bool := slice a 2 6 != slice b 2 6 || byteAt a 15 != byteAt b 15

/-- NET.PORTCFG (05 R120; 10 R257; 11 R274, R275). -/
def execNetPortcfg (h : Hdr) (addr len port : Nat) (s : State) : Out :=
  fwCmd h s (s.withDesc h addr len [noEpoch h, bp (decide (19 < port)) 0x11, t01 h] (decide (len = 64)) fun r s =>
    let l := (s.port port).lst
    let on := bit (byteAt r 1) 0
    s.guarded h
      [bp (portReserved r) 0x01, bp (portRange port r) 0x12, bp (s.portMix port r) 0x13,
       bst (on && linkFields (s.portRec port) r && l != .disabled && l != .down) 0x10]
      (let s := s.credits port
       let s := if !on && l != .disabled then s.disablePort port else s
       let s := s.setPort port { s.port port with rcd := r }
       (if on && (l == .disabled || (l == .down && !isT1 port)) then s.enablePort port else s).ok h))

/-! ### VLANs and the forwarding database -/

/-- NET.VLAN (05 R120; 11 R277). -/
def execNetVlan (h : Hdr) (vid member untag : Nat) (s : State) : Out :=
  fwCmd h s (s.guarded h
    [noEpoch h, bp (decide (vid < 1 ∨ 4094 < vid)) 0x11, den (decide (s.owner 7 vid ≠ h.ring)) 0x01,
     bp (decide (2 ^ 20 ≤ member ∨ 2 ^ 20 ≤ untag)) 0x12]
    (({ s with net := { s.net with vlan := put s.net.vlan vid { member := member, untag := untag } } }).ok h))

/-- Where NET.FDB OP 0 puts its entry (11 R278): over the entry of its key, else where a new one goes; nowhere in a set of four static
entries. -/
def State.fdbPlace (s : State) (mac vid : Nat) : Option Nat :=
  if (fdbSet mac vid).all fun i => (s.fdb i).valid && (s.fdb i).static then none else (s.fdbFind mac vid).or (s.fdbRoom mac vid)

/-- NET.FDB (05 R120; 11 R278). Removing a key that is not listed completes with OK and RESULT 0 (log 23). -/
def execNetFdb (h : Hdr) (op mac vid mask : Nat) (s : State) : Out :=
  fwCmd h s (s.guarded h
    [noEpoch h, t01 h, bp (decide (2 < op)) 0x12, bp (decide (op ≤ 1 ∧ (vid < 1 ∨ 4094 < vid))) 0x12, bp (decide (op = 0 ∧ 2 ^ 20 ≤ mask)) 0x12]
    (if op = 0 then
       match s.fdbPlace mac vid with
       | some i => (s.setFdb i { valid := true, static := true, mac := mac, vid := vid, mask := mask, since := s.cyc }).ok h i
       | none => s.fail h .badState 0x10
     else if op = 1 then
       match s.fdbFind mac vid with
       | some i => (s.setFdb i {}).ok h i
       | none => s.ok h
     else ({ s with net := { s.net with fdb := s.net.fdb.filter fun (e : Nat × Fdb) => e.2.static } }).ok h))

/-! ### TSN tables -/

/-- Entries of a table record, each of `n` bytes, after its 16-byte header (11 R282). -/
def tsnEnts (r : List Byte) (n : Nat) : List (List Byte) := (List.range (le r 2 2)).map fun k => slice r (16 + n * k) n

/-- Size of an entry and entries of a table (11 R282). -/
def tsnShape (t : Nat) : Nat × Nat := if t = 0 then (8, 256) else if t = 1 then (8, 8) else if t = 2 then (24, 1024) else (16, 256)

/-- A reserved byte or bit of an entry is not 0 (11 R283, R285, R287). -/
def tsnReserved (t : Nat) (e : List Byte) : Bool :=
  if t = 0 then !allZero (slice e 1 3)
  else if t = 1 then !allZero (slice e 4 4)
  else if t = 2 then bit (le e 6 2) 14 || decide (16 ≤ byteAt e 8) || decide (32 ≤ byteAt e 9) || !allZero (slice e 22 2)
  else bits (byteAt e 0) 6 2 != 0 || byteAt e 3 != 0 || byteAt e 7 != 0 || !allZero (slice e 12 4)

/-- A field of an entry lies outside its range (11 R283, R285, R287). -/
def tsnRange (t : Nat) (e : List Byte) : Bool :=
  if t = 0 then decide (le e 4 4 < 100)
  else if t = 1 then false
  else if t = 2 then (decide (19 < byteAt e 9) && byteAt e 9 != 0x1F) || (decide (255 < filtCb e) && filtCb e != 0xFFFF)
  else
    let f := byteAt e 0
    bit f 0 == bit f 1 || (bit f 0 && decide (2 ^ 20 ≤ le e 4 3)) ||
      (bit f 1 && (decide (1 < byteAt e 1) || (byteAt e 1 == 0 && decide (byteAt e 2 < 2 ∨ 32 < byteAt e 2)) || decide (le e 8 4 < 1 ∨ 65535 < le e 8 4)))

/-- The sums of 11 R283 and R284: the INTERVALs of a list and its CYCLE, the idle slopes of a port and 75 % of its line rate. -/
def State.tsnMix (s : State) (t p : Nat) (r : List Byte) : Bool :=
  if t = 0 then decide (0 < le r 2 2 ∧ le r 4 4 < ((tsnEnts r 8).map fun e => le e 4 4).sum)
  else if t = 1 then
    let f := le r 0 2
    let slope := fun c => if f ≤ c ∧ c < f + le r 2 2 then le r (16 + 8 * (c - f)) 4 else (s.port p).slopeOf c
    decide (3 * s.rate p * 1000 < 4 * ((List.range 8).map slope).sum)
  else false

/-- The smallest base time + k x CYCLE at least 10 us ahead (11 R283). -/
def gclStart (base cycle now : Nat) : Nat :=
  let t := now + 10000
  if t ≤ base then base else base + ceilDiv (t - base) (Nat.max 1 cycle) * cycle

/-- A table written (11 R280, R282 to R287). A rewritten meter starts full, a rewritten CB stream anew (log 22). -/
def State.tsnApply (s : State) (t p base : Nat) (r : List Byte) : State :=
  let f := le r 0 2
  let ents := tsnEnts r (tsnShape t).1
  let each := fun (s : State) (g : State → Nat → List Byte → State) =>
    (List.range ents.length).foldl (fun s k => g s (f + k) ((ents[k]?).getD [])) s
  if t = 0 then
    let s := s.credits p
    if ents.isEmpty then (s.setPort p { s.port p with gcl := {}, gclNew := none }).setGates p
    else
      let l := ents.map fun e => (byteAt e 0, le e 4 4)
      s.setPort p { s.port p with gclNew := some { ents := l, base := base, cycle := le r 4 4, start := gclStart base (le r 4 4) s.now } }
  else if t = 1 then each (s.credits p) fun s c e => s.setPort p { s.port p with slope := put (s.port p).slope c (le e 0 4) }
  else if t = 2 then each s fun s i e => s.setFilt i { s.filt i with rcd := e, bucket := meterUnits (filtCbs e), since := s.cyc }
  else each s fun s i e => s.setCb i { s.cb i with rcd := e, seq := 0, rcv := none, hist := [] }

/-- NET.TSN (05 R120; 11 R282 to R287). -/
def execNetTsn (h : Hdr) (addr len table port base : Nat) (s : State) : Out :=
  fwCmd h s (s.withDesc h addr len [noEpoch h, bp (decide (table ≤ 1 ∧ 19 < port)) 0x11, t01 h, bp (decide (3 < table)) 0x12]
    (decide (16 ≤ len)) fun r s =>
    let (n, size) := tsnShape table
    let count := le r 2 2
    let ents := tsnEnts r n
    s.guarded h
      [bp (decide (len ≠ 16 + count * n)) 0x05, bp (!allZero (slice r 8 8) || ents.any (tsnReserved table)) 0x01,
       bp (decide (1 < table ∧ port ≠ 0)) 0x12, bp (decide (table = 0 ∧ le r 0 2 ≠ 0)) 0x12,
       bp (if table = 0 then decide (0 < count ∧ (le r 4 4 < 10000 ∨ 1000000000 < le r 4 4)) else le r 4 4 != 0) 0x12,
       bp (ents.any (tsnRange table)) 0x12, bp (decide (size < le r 0 2 + count)) 0x14, bp (s.tsnMix table port r) 0x13]
      ((s.tsnApply table port base r).ok h))

/-! ### MACsec and time -/

/-- The install of an SA (11 R290, R291; 19 R490). -/
def State.saInstall (s : State) (port an dir locket sci ssci pn : Nat) : State :=
  let s := s.setSa (port * 8 + dir * 4 + an) { st := 1, locket := locket, key := slice (s.slot0 locket) 16 44, pn := pn, sci := sci, ssci := ssci }
  if dir = 0 ∧ (s.port port).txSa = some an then s.setPort port { s.port port with txSa := none } else s

/-- An SA leaves use (11 R291): it becomes INSTALLED, or EMPTY where it is removed. -/
def State.saOff (s : State) (port an dir : Nat) (removed : Bool) : State :=
  let i := port * 8 + dir * 4 + an
  let x := s.sa i
  let s := s.setSa i (if removed then {} else if x.st = 2 then { x with st := 1 } else x)
  if dir = 0 ∧ (s.port port).txSa = some an then s.setPort port { s.port port with txSa := none } else s

/-- An SA comes into use (11 R291): the previous transmit SA returns to INSTALLED. -/
def State.saOn (s : State) (port an dir : Nat) : State :=
  let i := port * 8 + dir * 4 + an
  if (s.sa i).st = 0 then s
  else if dir = 0 then
    let s := match (s.port port).txSa with
      | some a => if a = an then s else s.saOff port a 0 false
      | none => s
    (s.setSa i { s.sa i with st := 2 }).setPort port { s.port port with txSa := some an, saEver := true }
  else (s.setSa i { s.sa i with st := 2 }).setPort port { s.port port with rxEver := true }

/-- NET.MACSEC (05 R120; 11 R290, R291; 19 R476, R490). Enabling an EMPTY SA has no effect (log 23). -/
def execNetMacsec (h : Hdr) (port op an dir locket sci ssci pn : Nat) (s : State) : Out :=
  fwCmd h s (s.guarded h
    [noEpoch h, bp (decide (5 < port ∨ (op = 0 ∧ 127 < locket))) 0x11, t0 h, den (decide (op = 0 ∧ s.owner 10 locket ≠ 0)) 0x01,
     bp (decide (3 < op ∨ 3 < an ∨ 1 < dir)) 0x12, bp (decide (op = 0 ∧ ssci = 0 ∧ 2 ^ 32 ≤ pn)) 0x12,
     bst (op == 0 && (!s.codeOk locket || s.ktype locket != 3 || !bit (byteAt (s.slot0 locket) 1) dir)) 0x11]
    ((if op = 0 then (s.checkSlot locket).saInstall port an dir locket sci ssci pn
      else if op = 1 then s.saOff port an dir true
      else if op = 2 then s.saOn port an dir
      else s.saOff port an dir false).ok h))

/-- A field of the 802.1AS record lies outside its range (06 R140; 11 R293). The spec does not say that a 0 leaves a field of this record
out, so 0 in STEPTHR, LOCKTHR, SLEWMAX or HOLDTO takes no default and is refused with 0x12 (DESIGN CHOICE, log 58). -/
def gptpRange (r : List Byte) : Bool :=
  let b := byteAt r
  let lg := signed 8 (b 7)
  b 0 != 1 || decide (127 < b 2) || decide (127 < b 3) || decide (1 < b 4) || decide (lg < -5 ∨ 0 < lg) ||
    decide (le r 8 4 < 1000 ∨ 1000000000 < le r 8 4) || decide (le r 12 4 < 10 ∨ 10000 < le r 12 4) ||
    decide (le r 16 2 < 1 ∨ 250 < le r 16 2) || decide (le r 18 2 < 1 ∨ 600 < le r 18 2) || (decide (9 < b 23) && b 23 != 0xFF)

/-- NET.GPTP (05 R120; 06 R140, R141; 11 R293). -/
def execNetGptp (h : Hdr) (addr len : Nat) (s : State) : Out :=
  fwCmd h s (s.withDesc h addr len [noEpoch h, t01 h] (decide (len = 32)) fun r s =>
    s.guarded h
      [bp (decide (8 ≤ byteAt r 1) || decide (4 ≤ byteAt r 21) || byteAt r 22 != 0 || !allZero (slice r 24 8)) 0x01, bp (gptpRange r) 0x12]
      (let s := { s with clk := { s.clk with gptp := r } }
       (if bit (byteAt r 1) 0 then s else s.goDisc .free).ok h))

end Sys2Proof.Machine
end

