-- ==== Sys2Proof/Machine/KeoreImg.lean ====
section
/-! DEFINITION. The Keore image as its payload holds it, and the engine's memories (15 R369 to R373; 16 R399 to R401, R404). -/
namespace Sys2Proof.Machine
open Sys2Proof

/-- Fields of the image header (15 R370). -/
def imgNTasks (p : List Byte) : Nat := byteAt p 7
def imgPi (p : List Byte) : Nat := le p 12 4
def imgGl (p : List Byte) : Nat := le p 16 4
def imgRt (p : List Byte) : Nat := le p 20 4
def imgIa (p : List Byte) : Nat := le p 24 4
def imgTaskOff (p : List Byte) : Nat := le p 28 4
def imgCodeOff (p : List Byte) : Nat := le p 32 4
def imgCodeLen (p : List Byte) : Nat := le p 36 4
def imgInitOff (p : List Byte) : Nat := le p 40 4
def imgInitLen (p : List Byte) : Nat := le p 44 4
def imgMapOff (p : List Byte) : Nat := le p 48 4
def imgNMap (p : List Byte) : Nat := le p 52 2
def imgNInst (p : List Byte) : Nat := le p 54 2
def imgInstOff (p : List Byte) : Nat := le p 56 4
def imgVarOff (p : List Byte) : Nat := le p 60 4
def imgNVar (p : List Byte) : Nat := le p 64 2

/-- Byte offset in instance SRAM of an area: 0 PI, 1 GL, 2 RT, 3 IA (15 R369, R372). -/
def areaBase (p : List Byte) (a : Nat) : Nat :=
  (if 0 < a then imgPi p else 0) + (if 1 < a then imgGl p else 0) + (if 2 < a then imgRt p else 0)

/-- Size of an area. -/
def areaSize (p : List Byte) (a : Nat) : Nat :=
  if a = 0 then imgPi p else if a = 1 then imgGl p else if a = 2 then imgRt p else imgIa p

/-- The `n` entries of `k` bytes of a table at `off`. -/
def tableAt (p : List Byte) (off n k : Nat) : List (List Byte) := (List.range n).map fun i => slice p (off + k * i) k

/-- The task table (15 R371), the map (R378), the instance and variable tables (R373). -/
def imgTasks (p : List Byte) : List (List Byte) := tableAt p (imgTaskOff p) (imgNTasks p) 24
def imgMap (p : List Byte) : List (List Byte) := tableAt p (imgMapOff p) (imgNMap p) 16
def imgInsts (p : List Byte) : List (List Byte) := tableAt p (imgInstOff p) (imgNInst p) 16
def imgVars (p : List Byte) : List (List Byte) := tableAt p (imgVarOff p) (imgNVar p) 16

/-- The task table entry of task `k`. -/
def imgTask (p : List Byte) (k : Nat) : Option (List Byte) := (imgTasks p).find? fun t => byteAt t 0 == k

/-- Fields of a task table entry (15 R371). -/
def tkMode (t : List Byte) : Nat := byteAt t 1
def tkPeriod (t : List Byte) : Nat := le t 4 4
def tkOffset (t : List Byte) : Nat := le t 8 4
def tkEntry (t : List Byte) : Nat := le t 12 4
def tkBudget (t : List Byte) : Nat := le t 16 4
def tkIb (t : List Byte) : Nat := le t 20 4

/-- Fields of a map entry (15 R378). -/
def mpKind (m : List Byte) : Nat := byteAt m 0
def mpTask (m : List Byte) : Nat := byteAt m 1
def mpType (m : List Byte) : Nat := byteAt m 2
def mpFlags (m : List Byte) : Nat := byteAt m 3
def mpUnit (m : List Byte) : Nat := le m 4 2
def mpPioff (m : List Byte) : Nat := le m 6 2
def mpVbit (m : List Byte) : Nat := le m 8 2
def mpSbit (m : List Byte) : Nat := le m 12 2
def mpSlen (m : List Byte) : Nat := byteAt m 14
def mpTmo (m : List Byte) : Nat := byteAt m 15

/-- Bytes of a type in memory (15 R389); a BOOL takes part of one. -/
def tySize (t : Nat) : Nat := if t = 4 then 8 else if t = 2 ∨ t = 3 ∨ t = 6 then 4 else if t = 1 ∨ t = 5 then 2 else 1

/-- The word of code at index `i`; none past the end of the code. -/
def imgWord (p : List Byte) (i : Nat) : Option Nat := if 4 * i + 4 ≤ imgCodeLen p then some (le p (imgCodeOff p + 4 * i) 4) else none

/-- A LAYOUT word: the first four bytes of SHAKE256 of a layout string (15 R373). -/
def layoutHash (t : String) : Nat := le (shake256 (t.toList.map fun c => BitVec.ofNat 8 c.toNat) 4) 0 4

/-- The slot of a LAYOUT in the retained data (16 R401): 16 timer bytes, 4 edge-detector bytes, 0 not retained. -/
def retainKind (layout : Nat) : Nat :=
  if layout = layoutHash "KEORE/TON" ∨ layout = layoutHash "KEORE/TOF" ∨ layout = layoutHash "KEORE/TP" then 16
  else if layout = layoutHash "KEORE/RTRIG" ∨ layout = layoutHash "KEORE/FTRIG" then 4 else 0

/-- The retained instances, in instance table order (16 R401). -/
def imgRetained (p : List Byte) : List (List Byte) := (imgInsts p).filter fun i => retainKind (le i 4 4) != 0

/-- The retained layout hash RHASH (16 R404). -/
def imgRhash (p : List Byte) : List Byte :=
  let vars := (imgVars p).filter fun v => byteAt v 5 == 2
  shake256 (toLE 4 (imgRt p) ++ (vars.map fun v => slice v 0 5 ++ slice v 8 4).flatten ++
    ((imgRetained p).map fun i => slice i 0 8).flatten) 8

/-- Start of instance SRAM, of a copy's data, of a copy's control area, and of a bank (01 R30; 16 R399). -/
def instAddr : Nat := 0x20000000
def copyData (c : Nat) : Nat := 0x22000000 + c * 0x3F000
def copyCtl (c : Nat) : Nat := 0x2207E000 + c * 0x1000
def bankAddr (b : Nat) : Nat := 0x22100000 + b * 0x100000

/-- The commit record of a copy (16 R400). -/
def State.commitRec (s : State) (c : Nat) : List Byte := memRead s.mem (copyCtl c) 64

/-- A copy is valid (16 R400). -/
def State.copyOk (s : State) (c : Nat) : Bool := le (s.commitRec c) 0 4 == 0x5445524B && byteAt (s.commitRec c) 4 == 0x5A

/-- SEQ of a copy. -/
def State.copySeq (s : State) (c : Nat) : Nat := le (s.commitRec c) 8 4

/-- The newest valid copy (16 R404). -/
def State.newest (s : State) : Option Nat :=
  match s.copyOk 0, s.copyOk 1 with
  | false, false => none
  | true, false => some 0
  | false, true => some 1
  | true, true =>
    let d := (s.copySeq 1 + 2 ^ 32 - s.copySeq 0) % 2 ^ 32
    some (if 0 < d ∧ d < 2 ^ 31 then 1 else 0)

/-- A task of the engine. -/
def State.ktask (s : State) (k : Nat) : KTask := look (fun _ => {}) s.keo.task k

/-- A task changed. -/
def State.setKtask (s : State) (k : Nat) (t : KTask) : State := { s with keo := { s.keo with task := put s.keo.task k t } }

end Sys2Proof.Machine
end

