-- ==== Sys2Proof/Machine/Registers.lean ====
section
/-! DEFINITION. The register mirrors: what a read of each word answers a reader of a tag, block by block (01 R19, R32 and each
block's register tables). A word no table lists reads 0 (00 R7). -/
namespace Sys2Proof.Machine
open Sys2Proof

/-- A reader of tag `t` is tag 0 or tag `own`. -/
def t0own (t own : Nat) : Bool := t == 0 || t == own

/-- A signed value as a 32-bit word. -/
def word (v : Int) : Nat := unsigned 32 v

/-! ### LCH (08 R208 to R212; 09 R230), answered from the shadow (20 R503) -/

/-- The shadow of a channel; after a link went DOWN it is invalid and reads 0 (20 R512). -/
def State.shChan (s : State) (n : Nat) : Chan := look (fun _ => {}) s.fb.shChan n

/-- The lowest member of the channel's Bunting in the shadow. -/
def State.shLead (s : State) (n : Nat) : Nat := if (s.shChan n).bunt < 40 then (s.shChan n).bunt else n

/-- DIAG (09 R230): the members of a Bunting show its CAUSE and HOLDTRIP. -/
def State.diag (s : State) (n : Nat) : Nat :=
  let c := s.shChan n
  let b := s.shChan (s.shLead n)
  b.cause + 8 * b2n c.limit + 16 * b2n c.olOn + 32 * b2n c.olOff + 64 * b2n c.stb + 128 * b2n b.trip

/-- TEMP: degrees plus 64, in 8 bits (08 R210). -/
def Chan.temp (c : Chan) : Nat := (clampI 0 255 (c.tj + 64)).toNat

/-- STAT (08 R210). -/
def State.chStat (s : State) (n : Nat) : Nat :=
  let c := s.shChan n
  c.st.code + s.diag n * 256 + b2n c.out * 2 ^ 20 + b2n c.sat * 2 ^ 21 + b2n c.fine * 2 ^ 22 + b2n (decide (c.bunt < 40)) * 2 ^ 23 +
    c.temp * 2 ^ 24

/-- The state code a Bunting position shows: 0 while no Bunting is formed there (08 R212, R213). -/
def State.buntCode (s : State) (n : Nat) : Nat :=
  if (look (fun _ => ({} : BuntPos)) s.fb.shBunt n).count = 0 then 0 else (s.shChan n).st.code

/-- A word of the LCH block at offset `o` from 0x4100_0000. -/
def State.regLch (s : State) (tag o : Nat) : Nat :=
  let n := o / 256
  if o < 0x2800 then
    let c := s.shChan n
    let r := o % 256
    let mine := t0own tag (s.owner 3 n)
    if s.linkDown (1 + chDie n) then 0
    else if r = 0x18 then s.owner 3 n + (if mine then s.chEpoch n * 65536 else 0)
    else if !mine then 0
    else if r = 0x04 then s.chStat n
    else if r = 0x08 then word c.cur
    else if r = 0x0C then c.curPk
    else if r = 0x10 then unsigned 16 c.vout
    else if r = 0x14 then c.duty + c.act.code * 65536
    else if r = 0x1C then (s.chan n).dcOut + 16 * (s.chan n).dcSt
    else if r = 0x20 then c.retry
    else if r = 0x24 then (s.chan n).refCnt
    else if r = 0x28 then c.tchg % 2 ^ 32
    else if r = 0x2C then c.tchg / 2 ^ 32
    else if 0x40 ≤ r ∧ r < 0x80 then le c.cfg (r - 0x40) 4
    else 0
  else if 0x4000 ≤ o ∧ o < 0x4010 then
    let g := (o - 0x4000) / 4
    if s.linkDown (1 + g / 2) then 0 else (look (fun _ => ({} : Group)) s.fb.shGrp g).mv2 % 65536
  else if 0x4100 ≤ o ∧ o < 0x41A0 then
    let n := (o - 0x4100) / 4
    let b := look (fun _ => ({} : BuntPos)) s.fb.shBunt n
    if s.linkDown (1 + chDie n) then 0
    else s.buntCode n + 128 * b2n b.imbal + b.count * 256 + (if t0own tag (s.owner 3 n) then (s.bunt n).epoch * 65536 else 0)
  else if 0x4200 ≤ o ∧ o < 0x42A0 then
    let n := (o - 0x4200) / 4
    if s.linkDown (1 + chDie n) ∨ (look (fun _ => ({} : BuntPos)) s.fb.shBunt n).count = 0 then 0
    else word (((List.range 40).filter fun m => (s.shChan m).bunt == n).map fun m => (s.shChan m).cur).sum
  else 0

/-! ### NETSW (10 R269; 11 R295) -/

/-- PSTAT [15:8] and [7:0] (11 R295). -/
def State.pstat (s : State) (p : Nat) : Nat :=
  let x := s.port p
  let rx := (List.range 4).any fun a => (s.sa (p * 8 + 4 + a)).st == 2
  let plca := isT1s p && !s.csma p && x.lst == .up
  let code := match x.lst with | .disabled => 0 | .down => 1 | .training => 2 | .up => 3 | .sleepReq => 4 | .asleep => 5
  code + byteAt (s.portRec p) 2 % 16 * 16 + 4096 * b2n plca + 8192 * b2n rx + 16384 * b2n (s.txSaOf p).isSome + 32768 * b2n x.pver

/-- Counter `i` of a port. -/
def State.portCntOf (s : State) (p i : Nat) : Nat := look (fun _ => 0) (s.port p).cnt i

/-- Classes with ready frames. -/
def State.readyMask (s : State) (p : Nat) : Nat :=
  listMask ((List.range 8).filter fun c => !(look (fun _ => []) (s.port p).ready c).isEmpty)

/-- A counter of a fabric table. -/
def tabOf (t : Tab Nat) (k : Nat) : Nat := look (fun _ => 0) t k

/-- The waiting lanes of an output, as (input, class) (10 R252). -/
def State.waitingLanes (s : State) (o : Nat) : List (Nat × Nat) :=
  ((List.range 160).filter fun x => !(s.lane (o * 160 + x)).held.isEmpty).map fun x => (x / 8, x % 8)

/-- The waiting lane with the earliest wait start; ties by input, then class (10 R267). -/
def State.oldestLane (s : State) (o : Nat) : Option (Nat × Nat) :=
  (s.waitingLanes o).foldl (fun (b : Option (Nat × Nat)) p => match b with
    | none => some p
    | some q => if (s.lane (laneIdx o p.1 p.2)).waitDt < (s.lane (laneIdx o q.1 q.2)).waitDt then some p else some q) none

/-- LEAKTOT (10 R260). -/
def State.leakTot (s : State) : Nat := ((List.range 20).map fun k => (s.bank k).leak).sum.toNat

/-- Initialisation in progress (10 R261). -/
def State.initBusy (s : State) : Bool := s.fab.init != 0

/-- FLAGS of 10 R268, bits [1:0] of FSTAT: initialisation in progress; express lane enabled. -/
def State.fabFlags (s : State) : Nat := b2n s.initBusy + 2 * b2n (s.live && s.expressOn)

/-- A word of the fabric registers at offset `o` from 0x4210_0000. -/
def State.regFab (s : State) (o : Nat) : Nat :=
  let f := s.fab
  if o < 0x44 then
    (match o / 4 with
     | 0 => s.fabFlags + 4 * b2n (f.auditK != 0)
     | 1 => s.banks Bank.nFree | 2 => s.banks Bank.nQueued | 3 => s.banks Bank.nFlight | 4 => s.shused | 5 => s.shpool
     | 6 => s.leakTot | 7 => f.auditCnt | 8 => f.reinit | 9 => f.reinitCells | 10 => f.initDrop | 11 => f.expFrm | 12 => f.stomp
     | 13 => f.inOvf | 14 => f.bankSkip | 15 => f.eccCor | _ => f.eccUnc)
  else if 0x80 ≤ o ∧ o < 0xD0 then
    let b := s.bank ((o - 0x80) / 4)
    b.nFree + unsigned 8 b.leak * 65536 + b2n b.loop * 2 ^ 24
  else if 0x1000 ≤ o ∧ o < 0x2400 then
    let p := (o - 0x1000) / 256
    let c := (o - 0x1000) % 256 / 16
    if 8 ≤ c then 0
    else (match o % 16 / 4 with
      | 0 => s.qcnt p c | 1 => tabOf f.dropQ (qIdx p c) | 2 => tabOf f.dropP (qIdx p c) | _ => tabOf f.dropG (qIdx p c))
  else if 0x3000 ≤ o ∧ o < 0x4400 then
    let p := (o - 0x3000) / 256
    let r := (o - 0x3000) % 256
    if r = 0 then s.storeN p else if r = 4 then tabOf f.gaps p else if r = 8 then tabOf f.late p
    else if r = 12 then tabOf f.rsqDisc p else if r = 16 then tabOf f.dropLink p
    else if r = 20 then
      (match s.oldestLane p with
       | none => 0
       | some (i, c) => (s.waitingLanes p).length + i * 256 + c * 8192 + (s.lane (laneIdx p i c)).exp * 65536)
    else if 0x20 ≤ r ∧ r < 0x40 then s.storeC p ((r - 0x20) / 4) else 0
  else if 0x10000 ≤ o ∧ o < 0x15000 then
    let x := (o - 0x10000) % 0x400 / 4
    let l := s.lane ((o - 0x10000) / 0x400 * 160 + x)
    if 160 ≤ x then 0 else l.exp + l.held.length * 65536 + b2n (!l.held.isEmpty) * 2 ^ 31
  else if 0x20000 ≤ o ∧ o < 0x25000 then
    let x := (o - 0x20000) % 0x400 / 4
    if 160 ≤ x then 0 else (s.lane (laneIdx (x / 8) ((o - 0x20000) / 0x400) (x % 8))).nextSeq
  else 0

/-- A word of the NETSW block at offset `o` from 0x4200_0000. -/
def State.regNet (s : State) (tag o : Nat) : Nat :=
  if 1 < tag then 0
  else if o < 0x5000 then
    let p := o / 0x400
    let r := o % 0x400
    if r = 0 then s.pstat p
    else if r = 4 then s.readyMask p + (s.port p).gates * 256 + (s.port p).gclIdx * 65536
    else if 0x40 ≤ r ∧ r < 0x80 then s.portCntOf p ((r - 0x40) / 4) else 0
  else if 0x100000 ≤ o then s.regFab (o - 0x100000)
  else 0

/-! ### CAN/LIN (12 R326 to R328) -/

/-- CSTAT to TDC of a controller: word `i` (12 R326). -/
def State.ctlWord (s : State) (c i : Nat) : Nat :=
  let x := s.ctl c
  let e := fun k => tabOf x.errs k
  match i with
  | 0 => x.mode + 8 * b2n x.recov + 16 * b2n x.tm + 32 * b2n x.refQ.isSome + 1024 * x.err + 65536 * x.last
  | 1 => Nat.min x.tec 255 + 256 * Nat.min x.recv 255
  | 2 => x.rxfrm
  | 3 => x.txfrm
  | 4 => e 1 + 65536 * e 2
  | 5 => e 3 + 65536 * e 5
  | 6 => e 4 + 65536 * e 6
  | 7 => x.lost + 65536 * x.fmtMiss
  | 8 => x.authFail + 65536 * x.refMiss
  | 9 => if 8 ≤ c then 0 else x.d2d
  | 10 => x.tdc + 256 * x.refCyc
  | _ => 0

/-- LSTAT to HDRCNT of a commander: word `i` (12 R327). -/
def State.linWord (s : State) (l i : Nat) : Nat :=
  let x := s.lin l
  match i with
  | 0 => byteAt x.rcd 1 % 2 + 2 * b2n x.hold + 4 * b2n x.coll.isSome + 256 * x.tab + 2048 * b2n x.run + 65536 * x.slot
  | 1 => x.csum + 65536 * x.noresp
  | 2 => x.colls + 65536 * x.bitErr
  | 3 => x.skipped
  | 4 => x.hdr
  | _ => 0

/-- The FLAGS byte of a receive or transmit object (12 R329). -/
def State.objFlags (s : State) (o : Nat) : Nat :=
  let x := s.cobj o
  if o < 2048 then
    b2n x.en + 2 * b2n x.new + 4 * b2n x.lost + 8 * b2n x.auth + 16 * b2n x.trunc + 32 * b2n x.brs + 64 * b2n x.esi
  else b2n x.en + 2 * b2n (x.st == 1) + 4 * b2n (x.st == 2) + 8 * b2n x.auth

/-- A word of the CAN/LIN block at offset `o` from 0x4300_0000; the window of a controller whose gate is cut reads 0 (18 R464). -/
def State.regCan (s : State) (tag o : Nat) : Nat :=
  if o < 0xC00 then
    if 1 < tag ∨ s.cut (ctlGate (o / 256)) then 0
    else
      let r := o % 256
      if r < 0x2C then s.ctlWord (o / 256) (r / 4)
      else if 0x40 ≤ r ∧ r < 0x80 then le (s.ctl (o / 256)).rcd (r - 0x40) 4 else 0
  else if 0x1000 ≤ o ∧ o < 0x1800 then
    let l := (o - 0x1000) / 256
    if t0own tag (s.owner 6 l) && !s.cut (0x30 + l) then s.linWord l (o % 256 / 4) else 0
  else if 0x10000 ≤ o ∧ o < 0x12000 then
    let n := (o - 0x10000) / 4
    if t0own tag (s.objOwner n) then (s.cobj n).cnt * 65536 + s.objFlags n else 0
  else if 0x12000 ≤ o ∧ o < 0x12800 then
    let n := 2048 + (o - 0x12000) / 4
    if t0own tag (s.objOwner n) then (s.cobj n).cnt * 65536 + s.objFlags n else 0
  else 0

/-! ### KEORE (15 R397; 16 R418) -/

/-- ESTAT (15 R397). -/
def State.estat (s : State) : Nat :=
  let k := s.keo
  k.st + 16 * k.bank + 32 * k.htask + 256 * (s.imgTag % 16) + 4096 * k.hcause +
    listMask ((List.range 8).filter fun t => (s.ktask t).st != 0) * 2 ^ 24

/-- TSTAT of a task. -/
def State.tstat (s : State) (k : Nat) : Nat :=
  let t := s.ktask k
  t.st + 128 * b2n (imgTask s.keo.run k).isSome + 256 * b2n t.ovf + 512 * b2n t.divz + 1024 * b2n t.inv

/-- A word of the KEORE block at offset `o` from 0x4400_0000. -/
def State.regKeore (s : State) (tag o : Nat) : Nat :=
  let k := s.keo
  if !t0own tag s.imgTag then 0
  else if o < 0x100 then
    (match o / 4 with
     | 0 => s.estat | 1 => k.haltPc | 2 => k.haltT % 2 ^ 32 | 3 => k.haltT / 2 ^ 32 | 4 => s.imageId | 5 => k.wref
     | 16 => b2n (s.copyOk 0) + 2 * b2n (s.copyOk 1) + 4 * b2n k.pass.isSome + 8 * (s.newest.getD 0) + 256 * k.lastStart
     | 17 => (s.newest.map s.copySeq).getD 0
     | 18 => k.passCnt
     | 19 => k.x.st + 256 * k.x.relN + 65536 * k.x.inits
     | 20 => k.x.cnt
     | 21 => k.force.length
     | 22 => k.x.time % 2 ^ 32
     | 23 => k.x.time / 2 ^ 32
     | _ => 0)
  else if o < 0x200 then
    let j := (o - 0x100) / 32
    let t := s.ktask j
    let e := imgTask k.run j
    (match o % 32 / 4 with
     | 0 => s.tstat j | 1 => t.relCnt | 2 => t.lastCyc | 3 => t.maxCyc | 4 => t.relT % 2 ^ 32 | 5 => t.relT / 2 ^ 32
     | 6 => (e.map tkBudget).getD 0 | _ => (e.map tkPeriod).getD 0)
  else 0

/-! ### SCHED, ADMIT (06 R138, R159, R160; 07 R182) -/

/-- Code of a discipline state (06 R141). -/
def Disc.code : Disc → Nat
  | .free => 0 | .acquiring => 1 | .locked => 2 | .holdover => 3 | .gm => 4

/-- DISC (06 R160): ROLE is 0 with discipline off, else grandmaster only or follower-capable, as the record says. -/
def State.discWord (s : State) : Nat :=
  let role := if !s.gptpOn then 0 else if byteAt s.clk.gptp 4 = 1 then 2 else 1
  s.clk.disc.code + 16 * role + 65536 * (s.domain % 128) + 2 ^ 24 * s.clk.stepCnt

/-- A word of the SCHED block at offset `o` from 0x4500_0000, read by initiator `ini`. -/
def State.regSched (s : State) (ini tag o : Nat) : Nat :=
  let l := look (fun _ => (0, 0)) s.clk.latch ini
  if o < 0x40 then
    (match o / 4 with
     | 0 => s.now32 | 1 => l.1 | 2 => l.2 | 4 => s.discWord | 5 => word s.clk.offset | 6 => word s.clk.rate
     | 8 => word (s.pc 0).count | 9 => word (s.pc 1).count | 10 => word (s.pc 2).count | 11 => word (s.pc 3).count
     | 12 => s.sch.lateCnt | 13 => s.sch.missCnt | 14 => s.sch.refCnt | _ => 0)
  else if 0x1000 ≤ o ∧ o < 0x2000 then
    let n := (o - 0x1000) / 4
    let e := s.sent n
    if t0own tag (s.owner 9 n) then e.st + 16 * e.last + 65536 * Nat.min e.fired 0xFFFF else 0
  else 0

/-- LEVEL as it is shown (07 R163, R181). -/
def levelShown (v : Int) : Nat := word (if v % 10000 = 0 then v / 10000 else Config.roundLevel v)

/-- Queued requests of a budget. -/
def State.qlen (s : State) (k : Nat) : Nat := (s.adm.tab.filter fun p => p.2.st == 1 && p.2.bud == k).length

/-- A word of the ADMIT block at offset `o` from 0x4600_0000; every tag may read it. -/
def State.regAdmit (s : State) (o : Nat) : Nat :=
  let a := s.adm
  if o < 0xA0 then
    let k := o / 32
    let b := s.budget k
    (match o % 32 / 4 with
     | 0 => b.limit | 1 => b.reserve | 2 => b.cap | 3 => s.used k | 4 => levelShown b.level | 5 => Nat.min (s.qlen k) 255
     | 6 => b.overCnt | _ => if k = 4 then 0 else s.pri k)
  else if 0x100 ≤ o ∧ o < 0x12C then
    (match (o - 0x100) / 4 with
     | 0 => b2n a.winEn + 2 * b2n (a.winEn && s.winOpen) | 1 => a.frame | 2 => a.phase | 3 => a.length
     | 4 => a.start % 2 ^ 32 | 5 => a.start / 2 ^ 32 | 8 => s.admUsed.length | 9 => a.defCnt | 10 => a.refCnt | _ => 0)
  else 0

/-! ### KEY (19 R499) -/

/-- State of a slot: 0 EMPTY, 1 VALID, 2 BAD (19 R479). -/
def State.slotState (s : State) (i : Nat) : Nat := if !s.codeOk i then 2 else if s.ktype i = 0 then 0 else 1

/-- PERMIT of a slot (19 R484). -/
def State.permitted (s : State) (i : Nat) : Bool := look (fun _ => false) s.key.permit i

/-- DERIVED of a slot: its content came from KEY.DERIVE (19 R477). -/
def State.derivedSlot (s : State) (i : Nat) : Bool := byteAt (s.slot1 i) 2 == 2

/-- The Signet engine works on a signature. -/
def State.signBusy (s : State) : Bool := s.hal.ops.any Op.signing

/-- A word of the KEY block at offset `o` from 0x4700_0000. -/
def State.regKey (s : State) (tag o : Nat) : Nat :=
  let k := s.key
  let cnt := fun (n : Nat) => if tag ≤ 1 then n else 0
  if o < 0x200 then
    let i := o / 4
    let own := s.owner 10 i
    own * 65536 + (if t0own tag own then
      s.slotState i + 4 * b2n (s.permitted i) + 8 * b2n (s.derivedSlot i) + byteAt (s.slot0 i) 1 % 16 * 16 + s.ktype i * 256 else 0)
  else if o = 0x200 then
    let n := fun (v : Nat) => ((List.range 128).filter fun i => s.slotState i == v).length
    2 * b2n s.signBusy + 256 * b2n k.scan + 512 * b2n k.idKey + 65536 * n 1 + 2 ^ 24 * n 2
  else if o = 0x204 then cnt k.signCnt else if o = 0x208 then cnt k.verCnt else if o = 0x20C then cnt k.aeadFail
  else if o = 0x210 then cnt k.badCnt else if o = 0x214 then cnt s.sys.ext7
  else if 0x1000 ≤ o ∧ o < 0x1200 then le (s.meas ((o - 0x1000) / 64)) (o % 64) 4
  else 0

/-! ### TEN (18 R472) -/

/-- STAT of a gate: exists, cut, CUT pending, kind, owner (18 R472). -/
def State.gateStat (s : State) (g : Nat) : Nat :=
  if gateExists g then
    1 + 2 * b2n (s.gate g).cut + 4 * b2n (!(s.gate g).pend.isEmpty) + 8 * b2n (decide (g = 0x60 ∨ g = 0x61)) + 16 * s.owner 12 g
  else 0

/-- The use counts of the tags from `t0` on, one nibble each. -/
def State.gateCounts (s : State) (g from_ : Nat) : Nat :=
  ((List.range 8).map fun j => s.useCount g (from_ + j) % 16 * 16 ^ j).sum

/-- A word of the TEN block at offset `o` from 0x4800_0000. -/
def State.regTen (s : State) (tag o : Nat) : Nat :=
  let x := s.ten
  if o < 0x200 then
    let b := s.bezel (o / 16)
    if !t0own tag b.tag then 0
    else (match o % 16 / 4 with
      | 0 => b.base * 4096 % 2 ^ 32 | 1 => b.base * 4096 / 2 ^ 32 | 2 => b.size
      | _ => b2n b.r + 2 * b2n b.w + 4 * b2n b.x + 16 * b.tag + 256 * b2n b.en + 512 * b2n b.fill)
  else if 0x1000 ≤ o ∧ o < 0x2000 then
    let g := (o - 0x1000) / 32
    (match o % 32 / 4 with
     | 0 => s.gateStat g | 1 => s.gateCounts g 0 | 2 => s.gateCounts g 8 | _ => 0)
  else if 0x2000 ≤ o ∧ o < 0x2200 then
    let c := s.clasp ((o - 0x2000) / 16)
    if !(tag == 0 || (c.ex && (tag == c.tagA || tag == c.tagB))) then 0
    else (match o % 16 / 4 with
      | 0 => (if c.ex then 1 + 16 * c.tagA + 256 * c.tagB else 0) + 65536 * c.epoch
      | 1 => c.ab.length + 65536 * c.ba.length
      | 2 => c.evA + 65536 * c.evB
      | _ => c.postsAB + 65536 * c.postsBA)
  else if 0x3000 ≤ o ∧ o < 0x3040 then
    let t := (o - 0x3000) / 4
    if t0own tag t then tabOf x.viol t else 0
  else if tag ≠ 0 then 0
  else if o = 0x3040 then x.lastAddr % 2 ^ 32 else if o = 0x3044 then x.lastAddr / 2 ^ 32 else if o = 0x3048 then x.lastInfo
  else if o = 0x3050 then b2n x.applied + 2 * b2n x.dirty
  else 0

/-! ### FAULT (21 R540, R542) -/

/-- FSTAT (21 R542). -/
def State.fstat (s : State) : Nat :=
  let f := s.flt
  f.log.length + 256 * Nat.min f.holds.length 255 + 65536 * f.safeSrc + 2 ^ 27 * b2n f.degr + 2 ^ 28 * b2n f.rst.isSome +
    2 ^ 29 * b2n s.faultN + 2 ^ 30 * b2n f.latch + 2 ^ 31 * b2n f.safe

/-- A word of the FAULT block at offset `o` from 0x4900_0000. -/
def State.regFault (s : State) (tag o : Nat) : Nat :=
  let f := s.flt
  let t01 := fun (n : Nat) => if tag ≤ 1 then n else 0
  if o = 0 then s.fstat
  else if 0x10 ≤ o ∧ o < 0x30 then
    listMask ((List.range 32).filter fun j => s.srcActive ((o - 0x10) / 4 * 32 + j))
  else if 0x40 ≤ o ∧ o < 0x80 then
    ((List.range 16).map fun j => (s.srcCfg ((o - 0x40) / 4 * 16 + j)).sev % 4 * 4 ^ j).sum
  else if o = 0x80 then t01 f.seq else if o = 0x84 then t01 f.lost
  else if o = 0x88 then t01 (Nat.min f.waiting.length 255 + 256 * ((f.cur.map (·.1)).getD 0xFF))
  else if o = 0x90 then t01 (2 ^ 31 * b2n f.wdi) else if o = 0x94 then t01 f.wdiMax else if o = 0x98 then t01 f.wdiMin
  else if 0x8000 ≤ o ∧ o < 0xA000 then
    let n := (o - 0x8000) / 16
    let e := s.evLine n
    if !t0own tag (s.owner 11 n) then 0
    else (match o % 16 / 4 with | 0 => e.cfg | 1 => b2n e.pend | 3 => e.cnt | _ => 0)
  else if o = 0xA000 then t01 f.evRej else if o = 0xA004 then t01 f.evMerge
  else 0

/-! ### INPUT and ISO (17 R447, R448) -/

/-- STAT of a switch input (17 R447). -/
def Sw.stat (x : Sw) : Nat :=
  b2n x.conf + 2 * b2n x.valid + 4 * b2n x.stuck + 8 * b2n x.chatF + 16 * b2n x.unset + 256 * b2n x.value + 512 * b2n x.raw +
    1024 * b2n x.wakes + 2048 * b2n x.smp

/-- PSTAT of a position counter (17 R447). -/
def Pc.stat (x : Pc) : Nat :=
  b2n (x.a == some true) + 2 * b2n (x.b == some true) + 4 * b2n (x.z == some true) + 16 * x.mode + 64 * b2n x.zpre + 128 * b2n x.conf +
    256 * x.deb

/-- A word of the INPUT block at offset `o` from 0x4A00_0000. -/
def State.regInput (s : State) (o : Nat) : Nat :=
  if o < 0x600 then
    let x := s.sw (o / 32)
    (match o % 32 / 4 with
     | 0 => x.stat | 1 => b2n x.wake + 2 * b2n x.low + 256 * x.deb + 65536 * x.wet | 2 => x.maxAct | 3 => x.chat + 65536 * x.win
     | 4 => x.tedge % 2 ^ 32 | 5 => x.tedge / 2 ^ 32 | 6 => x.edges | _ => x.tsmp)
  else if 0x1000 ≤ o ∧ o < 0x1180 then
    let x := s.an ((o - 0x1000) / 16)
    (match o % 16 / 4 with
     | 0 => x.value + 65536 * b2n x.conv.isSome + 131072 * (x.conv.getD 0) + 2 ^ 18 * b2n x.valid + 2 ^ 19 * b2n x.sat
     | 1 => x.trig.getD 0 + 4096 * b2n x.trig.isSome + 8192 * b2n (x.trig == some 4095)
     | 2 => x.ttrig | _ => x.deb)
  else if 0x2000 ≤ o ∧ o < 0x2040 then
    let x := s.pc ((o - 0x2000) / 16)
    (match o % 16 / 4 with | 0 => word x.count | 1 => x.stat | 2 => x.errCnt + 65536 * x.zcnt | _ => word x.preset)
  else if o = 0x3000 then listMask s.inp.wakeSwC % 2 ^ 32
  else if o = 0x3004 then listMask s.inp.wakeSwC / 2 ^ 32
  else if o = 0x3008 then (s.conv 0).trigLate else if o = 0x300C then (s.conv 1).trigLate
  else 0

/-- An isolated channel is VALID (17 R448): configured, LINKOK, its filter settled under R427. -/
def Iso.valid (i : Iso) (n : Nat) : Bool :=
  let x := look (fun _ => ({} : IsoCh)) i.ch n
  x.mode != 3 && i.linkok && x.filt.isSome && !x.unset

/-- STAT of an isolated channel (17 R448). -/
def Iso.stat (i : Iso) (n : Nat) : Nat :=
  let x := look (fun _ => ({} : IsoCh)) i.ch n
  x.mode + 4 * b2n x.smp + 8 * b2n (x.filt == some true) + 16 * b2n x.cmd + 32 * b2n x.mism + 64 * b2n (i.valid n) + 128 * b2n x.hold +
    256 * x.cause + 65536 * x.deb

/-- A word of the ISO block at offset `o` from 0x4B00_0000, answered from the shadow. -/
def State.regIso (s : State) (tag o : Nat) : Nat :=
  let i := s.fb.shIso
  if s.linkDown 3 then 0
  else if o < 0x200 then
    let n := o / 32
    let x := look (fun _ => ({} : IsoCh)) i.ch n
    let r := o % 32 / 4
    if r = 1 then s.owner 13 n
    else if !t0own tag (s.owner 13 n) then 0
    else (match r with
      | 0 => i.stat n | 2 => x.tedge % 2 ^ 32 | 3 => x.tedge / 2 ^ 32 | 4 => x.mmCnt | 5 => x.tsmp | _ => 0)
  else if o = 0x1000 then
    b2n i.vfok + 2 * b2n i.linkok + 4 * b2n (i.ch.any fun p => p.2.hold) + 65536 * i.vfield
  else 0

/-! ### HALYARD (04 R107 to R111) -/

/-- FW commands of a ring in flight. -/
def State.fwCount (s : State) (n : Nat) : Nat := (s.hal.inflight.filter fun e => e.ring == n && e.fw).length

/-- STAT of a ring (04 R109). -/
def Ring.stat (r : Ring) : Nat := r.st + 4 * b2n r.enabled + 16 * r.size + 256 * r.err

/-- Word `i` of STAT to BUSYCNT of a ring window (04 R107). -/
def State.ringWord (s : State) (n i : Nat) : Nat :=
  let r := s.ring n
  match i with
  | 0 => r.stat | 1 => r.cmdHead | 2 => r.cmdTail | 3 => r.cplHead | 4 => r.cplTail
  | 5 => s.inflightCount n + 1024 * s.fwCount n | 6 => r.quota + 1024 * r.fwQuota
  | 7 => r.base % 2 ^ 32 | 8 => r.base / 2 ^ 32 | 9 => r.rejCnt | 10 => r.busyCnt | _ => 0

/-- A word of the HALYARD block at offset `o` from 0x4C00_0000. -/
def State.regHal (s : State) (tag o : Nat) : Nat :=
  if o < 0x1000 then
    let n := o / 256
    let r := o % 256
    if t0own tag n ∧ 0x10 ≤ r then s.ringWord n ((r - 0x10) / 4) else 0
  else if o = 0x1000 then s.hal.inflight.length + 1024 * s.hal.mpq.length + 2 ^ 31 * b2n s.mpUp
  else 0

/-! ### FBRIDGE, WAKE, SYSCTL (14 R365; 13 R348; 20 R516) -/

/-- The segments whose wake list names an entry (14 R363, R365). -/
def State.wakeMask (s : State) (e : Nat) : Nat := listMask ((List.range 16).filter fun g => (look (fun _ => []) s.brg.wake g).contains e)

/-- Tokens in the bucket of an entry (14 R356). -/
def State.tokensOf (s : State) (e : Nat) : Nat := Nat.min (((s.route e).refill s.cyc).tokens / tokenUnit) 255

/-- Word `i` of FSTAT to ACFOVER (14 R365). -/
def State.brgWord (s : State) (i : Nat) : Nat :=
  if i = 0 then (s.brg.route.filter fun p => p.2.written).length
  else if i = 1 then s.brg.fwd else if i < 14 then tabOf s.brg.cnt i else 0

/-- A word of the FBRIDGE block at offset `o` from 0x4D00_0000. -/
def State.regBrg (s : State) (tag o : Nat) : Nat :=
  if o < 0x38 then (if 1 < tag then 0 else s.brgWord (o / 4))
  else if 0x40 ≤ o ∧ o < 0x70 then
    let l := (s.ctl ((o - 0x40) / 4)).routed
    if 1 < tag then 0
    else (l.filter fun (r : Rtd) => !r.held).length % 128 + (l.filter fun (r : Rtd) => r.held).length * 256
  else if 0x10000 ≤ o ∧ o < 0x50000 then
    let e := (o - 0x10000) / 64
    let x := s.route e
    let r := o % 64
    let mine := t0own tag (s.owner 8 e)
    if r = 0x38 then s.owner 8 e + (if mine then x.epoch * 65536 else 0)
    else if !mine then 0
    else if r < 0x30 then le x.rcd r 4 else if r = 0x30 then x.fwd else if r = 0x34 then x.drop
    else s.wakeMask e + 65536 * s.tokensOf e
  else 0

/-- INHn driven high, as the shadow of the WAKE block shows it (13 R334). -/
def Wake.inhBits (w : Wake) : Nat :=
  listMask ((List.range 4).filter fun n => !w.inhOff && (bit w.level n ||
    (List.range 22).any fun g => byteAt w.rcd (16 + 32 * g + 1) == n && decide ((look (fun _ => ({} : Seg)) w.seg g).xst ≤ 2)))

/-- A word of the WAKE block at offset `o` from 0x4E00_0000, answered from the shadow; every tag may read it. -/
def State.regWake (s : State) (o : Nat) : Nat :=
  let w := s.fb.shWake
  let g := fun (k : Nat) => look (fun _ => ({} : Seg)) w.seg k
  if s.linkDown 0 then 0
  else if o < 0x38 then
    (match o / 4 with
     | 0 => listMask ((List.range 22).filter fun k => (g k).latch) | 1 => w.modLatch | 2 => w.causeSeg | 3 => w.causeMod
     | 4 => w.level + 16 * w.inhBits
     | 5 => ((List.range 16).map fun k => (g k).xst % 4 * 4 ^ k).sum
     | 6 => ((List.range 6).map fun k => (g (16 + k)).xst % 4 * 4 ^ k).sum
     | 8 => ((List.range 8).map fun k => (g k).pst % 16 * 16 ^ k).sum
     | 9 => ((List.range 8).map fun k => (g (8 + k)).pst % 16 * 16 ^ k).sum
     | 10 => ((List.range 6).map fun k => (g (16 + k)).pst % 16 * 16 ^ k).sum
     | 12 => w.abortCnt | 13 => w.wakeCnt | _ => 0)
  else if 0x100 ≤ o ∧ o < 0x3D0 then le w.rcd (o - 0x100) 4
  else 0

/-- PROFILE (01 R29). -/
def State.profile (s : State) : Nat := s.sys.prof + 4 * (if s.sys.profBusy then s.sys.profTarget else s.sys.prof) + 16 * b2n s.sys.profBusy

/-- DBGSTAT (18 R473). -/
def State.dbgstat (s : State) : Nat :=
  b2n (!s.dbg.halted.isEmpty) + 2 * b2n s.dbg.extest + 256 * s.rtTagOf 1 + 4096 * s.rtTagOf 2 + 65536 * s.dbg.trace

/-- FBLINK: two bits per die in DIE order, 0 not yet up, 1 UP, 2 DOWN (20 R516). -/
def Fb.linkWord (f : Fb) : Nat := ((List.range 4).map fun d => tabOf f.link d % 4 * 4 ^ d).sum

/-- Word `i` of FBCTL to FBPOSTERR of the field bridge (20 R516): POLL, the links, entries and lost entries of the error log, and the
counters of refusals, repeats and failed posted writes. Every one is a mirror, so a write has no effect. -/
def State.fieldWord (s : State) (i : Nat) : Nat :=
  match i with
  | 0 => s.fb.poll | 1 => s.fb.linkWord | 2 => s.fb.log.length + 65536 * s.fb.lost | 3 => s.fb.size | 4 => s.fb.retry | 5 => s.fb.postErr
  | _ => 0

/-- A word of the SYSCTL block at offset `o` from 0x4F00_0000. -/
def State.regSys (s : State) (tag o : Nat) : Nat :=
  let t01 := fun (n : Nat) => if tag ≤ 1 then n else 0
  if o = 0 then s.devid else if o = 0x10 then s.profile else if o = 0x20 then s.rstcause else if o = 0x24 then s.bootstat
  else if o = 0x28 then s.lcstate else if o = 0x2C then s.sys.startId
  else if 0x30 ≤ o ∧ o < 0x40 then le s.sys.uid (o - 0x30) 4
  else if o = 0x40 then s.dbgen else if o = 0x44 then s.dbgstat
  else if 0x100 ≤ o ∧ o < 0x118 then t01 (s.fieldWord ((o - 0x100) / 4))
  else 0

/-- The aligned 32-bit register word at address `a`, as initiator `ini` under `tag` reads it (01 R32). -/
def State.regRead (s : State) (ini tag a : Nat) : Nat :=
  let o := a % 0x1000000
  let v := match a / 0x1000000 with
    | 0x41 => s.regLch tag o
    | 0x42 => s.regNet tag o
    | 0x43 => s.regCan tag o
    | 0x44 => s.regKeore tag o
    | 0x45 => s.regSched ini tag o
    | 0x46 => s.regAdmit o
    | 0x47 => s.regKey tag o
    | 0x48 => s.regTen tag o
    | 0x49 => s.regFault tag o
    | 0x4A => s.regInput o
    | 0x4B => s.regIso tag o
    | 0x4C => s.regHal tag o
    | 0x4D => s.regBrg tag o
    | 0x4E => s.regWake o
    | 0x4F => s.regSys tag o
    | _ => 0
  v % 2 ^ 32

end Sys2Proof.Machine
end

