-- ==== Sys2Proof/Machine/StateRead.lean ====
section
/-! DEFINITION. STATE.READ and its records (05 R132 to R134, and each block's record tables). Log 24. -/
namespace Sys2Proof.Machine
open Sys2Proof

/-- The objects of 05 R133: number of units, bytes of a record, and whether firmware serves it. Object 0x0071's record size
depends on its instance, object 0x0011's number on the table. -/
def readObj (obj : Nat) : Option (Nat × Nat × Bool) :=
  match obj with
  | 0x01 => some (1, 64, false) | 0x02 => some (8, 68, true) | 0x10 => some (16, 64, false) | 0x11 => some (16, 16, false)
  | 0x20 => some (40, 128, false) | 0x21 => some (40, 16, false) | 0x30 => some (20, 256, false) | 0x31 => some (8192, 16, false)
  | 0x32 => some (20, 64, false) | 0x33 => some (1, 64, false) | 0x34 => some (5120, 16, false) | 0x35 => some (1024, 32, false)
  | 0x36 => some (256, 32, false) | 0x37 => some (48, 32, false) | 0x38 => some (1, 64, false) | 0x40 => some (12, 64, false)
  | 0x41 => some (2048, 96, false) | 0x42 => some (512, 96, false) | 0x43 => some (8, 64, false) | 0x50 => some (22, 32, false)
  | 0x60 => some (4096, 64, false) | 0x61 => some (1, 64, false) | 0x70 => some (1, 128, false) | 0x71 => some (0, 4, false)
  | 0x72 => some (256, 32, false) | 0x80 => some (1024, 48, false) | 0x90 => some (256, 32, false) | 0x91 => some (5, 32, false)
  | 0xA0 => some (48, 16, false) | 0xA1 => some (24, 16, false) | 0xA2 => some (4, 16, false) | 0xB0 => some (16, 16, false)
  | 0xC0 => some (65536, 4, false) | 0xC1 => some (32, 16, false) | 0xC2 => some (32, 16, false) | 0xC3 => some (98, 16, false)
  | 0xD0 => some (128, 16, true) | 0xE0 => some (64, 32, false) | 0xE1 => some (256, 8, false) | 0xF0 => some (16, 16, false)
  | _ => none

/-- A record of `n` bytes with the header of 05 R133; one the ring tag may not read keeps its owner byte alone. -/
def recOf (n : Nat) (readable : Bool) (epoch owner : Nat) (valid : Bool) (body : List Byte) : List Byte :=
  let b := fun (v : Nat) => BitVec.ofNat 8 v
  if readable then toLE 2 epoch ++ [b owner, b (b2n valid)] ++ fitTo (n - 4) body else [0, 0, b owner, 0] ++ zeros (n - 4)

/-- One byte. -/
def by1 (n : Nat) : List Byte := [BitVec.ofNat 8 n]

/-! ### The bytes after the header -/

def State.bodyChan (s : State) (n : Nat) : List Byte :=
  let c := s.shChan n
  let k := s.chan n
  fitTo 64 c.cfg ++ by1 c.st.code ++ by1 (s.chStat n / 2 ^ 20 % 16) ++ toLE 2 (c.duty + c.act.code * 4096) ++ toLE 4 (word c.cur) ++
    toLE 4 c.curPk ++ toLE 2 (unsigned 16 c.vout) ++ by1 c.temp ++ by1 c.retry ++ toLE 4 k.refCnt ++ toLE 8 c.tchg ++
    toLE 2 (s.diag n) ++ by1 (k.dcOut + 16 * k.dcSt)

def State.bodyBunt (s : State) (n : Nat) : List Byte :=
  let b := look (fun _ => ({} : BuntPos)) s.fb.shBunt n
  let l := (List.range 40).filter fun m => (s.shChan m).bunt == n
  ((l.map fun m => BitVec.ofNat 8 m) ++ List.replicate 4 0xFF).take 4 ++ by1 b.count ++ by1 (s.buntCode n) ++ by1 (b2n b.imbal) ++
    [0] ++ toLE 4 (word (l.map fun m => (s.shChan m).cur).sum)

def State.bodyPort (s : State) (p : Nat) : List Byte :=
  fitTo 64 (s.portRec p) ++ by1 (s.pstat p % 8) ++ by1 (s.pstat p / 256) ++ by1 (s.port p).gates ++ by1 (s.port p).gclIdx ++
    ((List.range 16).map fun i => toLE 4 (s.portCntOf p i)).flatten

def State.bodyFdb (s : State) (i : Nat) : List Byte :=
  let e := look (fun _ => ({} : Fdb)) s.net.fdb i
  let age := if e.valid && !e.static then Nat.min ((s.cyc - e.since) / usCyc 10000000) 63 else 0
  toLE 6 e.mac ++ toLE 2 e.vid ++ toLE 3 e.mask ++ by1 (b2n e.valid + 2 * b2n e.static + 4 * age)

def State.bodyRsq (s : State) (o : Nat) : List Byte :=
  by1 o ++ by1 (s.waitingLanes o).length ++ toLE 2 (s.storeN o) ++ ((List.range 8).map fun c => toLE 2 (s.storeC o c)).flatten ++
    toLE 4 (tabOf s.fab.gaps o) ++ toLE 4 (tabOf s.fab.late o) ++ toLE 4 (tabOf s.fab.rsqDisc o) ++
    (match s.oldestLane o with
     | none => zeros 16
     | some (i, c) =>
       let l := s.lane (laneIdx o i c)
       by1 i ++ by1 c ++ toLE 2 l.exp ++ toLE 8 l.waitDt ++ toLE 4 (l.timer * 5 / 2)) ++
    toLE 4 (recRsqto (s.portRec o)) ++ toLE 4 (tabOf s.fab.dropLink o)

def State.bodyBuf (s : State) : List Byte :=
  let f := s.fab
  toLE 2 (s.banks Bank.nFree) ++ toLE 2 (s.banks Bank.nQueued) ++ toLE 2 (s.banks Bank.nFlight) ++ toLE 2 s.shused ++ toLE 2 s.shpool ++
    toLE 2 s.leakTot ++ ((List.range 20).map fun k => BitVec.ofNat 8 (unsigned 8 (s.bank k).leak)) ++
    toLE 4 (listMask ((List.range 20).filter fun k => (s.bank k).loop)) ++ toLE 8 f.auditEnd ++ toLE 4 f.auditCnt ++ toLE 2 f.reinit ++
    by1 s.fabFlags

def State.bodyGcl (s : State) (i : Nat) : List Byte :=
  match (s.port (i / 256)).gcl.ents[i % 256]? with
  | none => []
  | some (g, n) => by1 g ++ zeros 3 ++ toLE 4 n

def State.bodyCb (s : State) (i : Nat) : List Byte :=
  let c := look (fun _ => ({} : Cb)) s.net.cb i
  fitTo 16 c.rcd ++ toLE 4 c.passed ++ toLE 4 c.dups ++ toLE 4 c.oow

def State.bodyFilt (s : State) (i : Nat) : List Byte :=
  let c := look (fun _ => ({} : Filt)) s.net.filt i
  fitTo 24 c.rcd ++ toLE 4 c.drop

def State.bodySa (s : State) (i : Nat) : List Byte :=
  let x := s.sa i
  by1 x.st ++ by1 x.locket ++ zeros 2 ++ toLE 8 x.pn ++ toLE 8 x.sci ++ toLE 4 x.ssci ++ toLE 4 x.count

def State.bodyGptp (s : State) : List Byte :=
  let c := s.clk
  by1 c.disc.code ++ by1 (s.domain % 128) ++ by1 c.slavePort ++ [0] ++ toLE 8 c.gmIdentity ++ toLE 4 (word c.offset) ++
    toLE 4 (word c.rate) ++ toLE 8 c.lastSync ++ by1 c.stepCnt

/-- Receive object `o`, or transmit object `o - 2048` with its pending data or, when IDLE, the last data sent (12 R329). -/
def State.bodyObj (s : State) (o : Nat) : List Byte :=
  let x := s.cobj o
  let idle := decide (2048 ≤ o) && x.st == 0
  let d := if idle then x.sdata else x.data
  let n := if idle then x.sdata.length else x.len
  let xl := if x.fmt = 2 then (if idle then x.sxl else x.xl) else zeros 8
  toLE 4 x.id ++ by1 x.ctrl ++ by1 x.fmt ++ by1 (s.objFlags o) ++ [0] ++ toLE 2 n ++ toLE 2 x.cnt ++ toLE 8 x.time ++ fitTo 8 xl ++
    fitTo 64 (d.take n)

def State.bodyLin (s : State) (l : Nat) : List Byte :=
  ((List.range 5).map fun i => toLE 4 (s.linWord l i)).flatten ++ toLE 8 (s.lin l).start

def State.bodySeg (s : State) (g : Nat) : List Byte :=
  let w := s.fb.shWake
  let x := look (fun _ => ({} : Seg)) w.seg g
  let inh := byteAt w.rcd (16 + 32 * g + 1)
  by1 g ++ by1 x.xst ++ by1 x.pst ++ by1 x.seq ++ toLE 2 x.ready ++ by1 x.tries ++
    by1 (b2n x.latch + 2 * b2n (decide (inh < 4) && bit w.inhBits inh)) ++ toLE 8 x.commit ++ toLE 4 w.modLatch ++ toLE 4 w.abortCnt ++
    toLE 4 w.wakeCnt

def State.bodyRoute (s : State) (e : Nat) : List Byte :=
  let x := s.route e
  fitTo 48 x.rcd ++ toLE 4 x.fwd ++ toLE 4 x.drop ++ toLE 2 (s.wakeMask e) ++ by1 (s.tokensOf e)

def State.bodyKeore (s : State) : List Byte :=
  let k := s.keo
  toLE 4 s.estat ++ toLE 4 k.haltPc ++ toLE 8 k.haltT ++ toLE 4 s.imageId ++ toLE 4 k.wref ++
    ((List.range 8).map fun t => toLE 2 (s.tstat t) ++ zeros 2 ++ toLE 4 (s.ktask t).lastCyc ++ toLE 4 (s.ktask t).maxCyc).flatten

def State.bodyForce (s : State) (i : Nat) : List Byte :=
  match look? s.keo.force i with
  | none => []
  | some f => toLE 4 f.vartag ++ by1 f.typ ++ by1 f.area ++ zeros 2 ++ toLE 4 f.addr ++ toLE 8 f.value ++ toLE 4 f.discard ++ toLE 4 f.t

/-- The next trigger of an entry, 0 when it is not ARMED (06 R158): a dispatched trigger that device time has not reached stands first. A
one-shot entry whose action has been dispatched, or is to be at once, has no other. -/
def State.nextTrigger (s : State) (n : Nat) : Nat :=
  let e := s.sent n
  if e.st ≠ 2 then 0
  else match s.sch.disp.find? fun d => d.ent == n && !d.pos && !d.wait && decide (s.now < d.trig) with
    | some d => d.trig % 2 ^ 64
    | none => if !e.repeats && (decide (s.outstanding n ≠ 0) || e.owed.isSome) then 0 else unsigned 64 e.next

def State.bodySched (s : State) (n : Nat) : List Byte :=
  let e := s.sent n
  setBytes (fitTo 32 e.rcd) 3 (by1 (e.st + 16 * e.last)) ++ toLE 4 (Nat.min e.fired (2 ^ 32 - 1)) ++ toLE 8 (s.nextTrigger n)

def State.bodyAdm (s : State) (i : Nat) : List Byte :=
  let e := s.admEnt i
  if e.st = 0 then []
  else
    let reason := if e.st = 1 then e.reason else 0
    let flags := b2n e.prio + 2 * b2n (reason == 3) + 4 * b2n ((s.budget e.bud).hold == s.handleOf i)
    toLE 2 (s.handleOf i) ++ by1 e.typ ++ by1 e.bud ++ toLE 4 e.amount ++ toLE 4 e.charge ++ toLE 4 e.dur ++ toLE 4 e.deadDt ++
      toLE 4 e.arrDt ++ by1 e.st ++ by1 reason ++ by1 flags ++ by1 e.origin

def State.bodyBud (s : State) (k : Nat) : List Byte :=
  let b := s.budget k
  toLE 4 b.limit ++ toLE 4 b.reserve ++ toLE 4 b.cap ++ toLE 4 (s.used k) ++ toLE 4 (levelShown b.level) ++ toLE 2 (s.qlen k) ++
    toLE 2 b.overCnt ++ by1 (b2n s.adm.winEn + 2 * b2n (s.adm.winEn && s.winOpen))

def State.bodyAn (s : State) (n : Nat) : List Byte :=
  let x := s.an n
  toLE 2 x.value ++ toLE 2 (x.trig.getD 0) ++
    by1 (b2n x.valid + 2 * b2n x.sat + 4 * b2n x.conv.isSome + 8 * x.conv.getD 0 + 16 * b2n (x.trig == some 4095) + 32 * b2n x.trig.isSome) ++
    by1 x.deb ++ zeros 2 ++ toLE 4 x.ttrig

def State.bodyPc (s : State) (k : Nat) : List Byte :=
  let x := s.pc k
  toLE 4 (word x.count) ++ by1 (x.stat % 256) ++ by1 x.deb ++ toLE 2 x.errCnt ++ toLE 2 x.zcnt

def State.bodyIso (s : State) (n : Nat) : List Byte :=
  let i := s.fb.shIso
  let x := look (fun _ => ({} : IsoCh)) i.ch n
  by1 (i.stat n % 256) ++ by1 x.cause ++ by1 x.deb ++ [0] ++ toLE 8 x.tedge

def State.bodyBezel (s : State) (r : Nat) : List Byte :=
  let b := s.bezel r
  toLE 5 (b.base * 4096) ++ by1 (b2n b.r + 2 * b2n b.w + 4 * b2n b.x + 8 * b2n b.en + 16 * b2n b.fill) ++ zeros 2 ++ toLE 4 b.size

def State.bodyClasp (s : State) (c : Nat) : List Byte :=
  let x := s.clasp c
  by1 x.tagB ++ by1 (b2n x.ex) ++ by1 x.ab.length ++ by1 x.ba.length ++ toLE 2 x.evA ++ toLE 2 x.evB ++ toLE 2 x.postsAB ++ toLE 2 x.postsBA

def State.bodyGate (s : State) (g : Nat) : List Byte :=
  by1 (s.gateStat g % 16) ++ zeros 3 ++ toLE 4 (s.gateCounts g 0) ++ toLE 4 (s.gateCounts g 8)

def State.bodySlot (s : State) (i : Nat) : List Byte :=
  let m := s.slot1 i
  by1 (s.ktype i) ++ by1 (byteAt (s.slot0 i) 1) ++ by1 (s.slotState i) ++ by1 (b2n (s.permitted i) + 2 * b2n (s.derivedSlot i)) ++
    slice m 0 2 ++ by1 (byteAt m 3) ++ [0] ++ slice m 4 4

def State.bodySrc (s : State) (n : Nat) : List Byte :=
  match srcRow n with
  | none => []
  | some (_, min, cond, _) =>
    let c := s.srcCfg n
    by1 (c.sev + 4 * min + 16 * b2n c.ev + 32 * b2n (s.srcActive n) + 64 * b2n (s.flt.holds.any fun p => p.1 == n) + 128 * b2n cond) ++
      toLE 2 c.line

def FbEnt.body (e : FbEnt) : List Byte :=
  toLE 4 e.addr ++ toLE 4 e.time ++ by1 e.die ++ by1 e.code ++ by1 e.ini ++ by1 e.kind

/-- An in-flight record (04 R101). -/
def InFl.body (e : InFl) : List Byte :=
  toLE 2 e.ctag ++ toLE 2 e.opcode ++ by1 e.ring ++ by1 e.st ++ by1 (b2n e.interim) ++ [0] ++ toLE 4 e.fetched ++ toLE 4 e.index

/-- Instance `i` of the running image (15 R373, R398). -/
def State.inst (s : State) (i : Nat) : Nat × List Byte :=
  match (imgInsts s.keo.run)[i]? with
  | none => (0, [])
  | some e => (le e 12 4, memRead s.mem (instAddr + areaBase s.keo.run 3 + le e 8 4) (le e 12 4))

/-- The record of unit `i` of an object, as a ring of tag `tag` captures it (05 R133). -/
def State.readRec (s : State) (tag obj i : Nat) : List Byte :=
  let t01 := decide (tag ≤ 1)
  let img := s.imgTag % 16
  let imgR := t0own tag s.imgTag
  match obj with
  | 0x01 => recOf 64 true 0 0 true (toLE 4 s.devid ++ toLE 4 s.rstcause ++ toLE 4 s.sys.startId ++ toLE 4 s.bootstat ++ toLE 4 s.lcstate ++
      toLE 4 s.profile ++ fitTo 16 s.sys.uid)
  | 0x02 => recOf 68 true 0 0 true (fitTo 64 (s.meas i))
  | 0x10 => recOf 64 (t0own tag i) 0 i true ((List.range 11).map fun w => toLE 4 (s.ringWord i w)).flatten
  | 0x20 => recOf 128 (t0own tag (s.owner 3 i) && !s.linkDown (1 + chDie i)) (s.chEpoch i) (s.owner 3 i) true (s.bodyChan i)
  | 0x21 => recOf 16 (t0own tag (s.owner 3 i) && !s.linkDown (1 + chDie i)) (s.bunt i).epoch (s.owner 3 i) true (s.bodyBunt i)
  | 0x30 => recOf 256 t01 0 0 true (s.bodyPort i)
  | 0x31 => recOf 16 t01 0 0 true (s.bodyFdb i)
  | 0x32 => recOf 64 t01 0 0 true (s.bodyRsq i)
  | 0x33 => recOf 64 t01 0 0 true s.bodyBuf
  | 0x34 => recOf 16 t01 0 0 true (s.bodyGcl i)
  | 0x35 => recOf 32 t01 0 0 true (s.bodyFilt i)
  | 0x36 => recOf 32 t01 0 0 true (s.bodyCb i)
  | 0x37 => recOf 32 (tag == 0) 0 (s.owner 10 (s.sa i).locket) true (s.bodySa i)
  | 0x38 => recOf 64 true 0 0 true s.bodyGptp
  | 0x40 => recOf 64 t01 0 0 true ((List.range 11).map fun w => toLE 4 (s.ctlWord i w)).flatten
  | 0x41 => recOf 96 (t0own tag (s.objOwner i)) (s.cobj i).epoch (s.objOwner i) true (s.bodyObj i)
  | 0x42 => recOf 96 (t0own tag (s.objOwner (2048 + i))) (s.cobj (2048 + i)).epoch (s.objOwner (2048 + i)) true (s.bodyObj (2048 + i))
  | 0x43 => recOf 64 (t0own tag (s.owner 6 i)) 0 (s.owner 6 i) true (s.bodyLin i)
  | 0x50 => recOf 32 (!s.linkDown 0) 0 0 true (s.bodySeg i)
  | 0x60 => recOf 64 (t0own tag (s.owner 8 i)) (s.route i).epoch (s.owner 8 i) true (s.bodyRoute i)
  | 0x61 => recOf 64 t01 0 0 true ((List.range 13).map fun w => toLE 4 (s.brgWord (w + 1))).flatten
  | 0x70 => recOf 128 imgR 0 img true s.bodyKeore
  | 0x71 => recOf (4 + (s.inst i).1) imgR 0 img true (s.inst i).2
  | 0x72 => recOf 32 (imgR && (look? s.keo.force i).isSome) 0 img true (s.bodyForce i)
  | 0x80 => recOf 48 (t0own tag (s.owner 9 i)) (s.sent i).epoch (s.owner 9 i) true (s.bodySched i)
  | 0x90 => recOf 32 (t0own tag (s.admEnt i).tag) 0 (s.admEnt i).tag true (s.bodyAdm i)
  | 0x91 => recOf 32 true 0 0 true (s.bodyBud i)
  | 0xA0 => recOf 16 true 0 0 true (let x := s.sw i; toLE 2 x.stat ++ by1 x.deb ++ by1 x.wet ++ toLE 8 x.tedge)
  | 0xA1 => recOf 16 true 0 0 true (s.bodyAn i)
  | 0xA2 => recOf 16 true 0 0 true (s.bodyPc i)
  | 0xB0 => recOf 16 (t0own tag (s.owner 13 i) && !s.linkDown 3) 0 (s.owner 13 i) true (s.bodyIso i)
  | 0xC0 =>
    let k := i / 4096
    let u := i % 4096
    if unitExists k u then
      recOf 4 true (if t0own tag (s.owner k u) then s.unitEpoch k u else 0) (s.owner k u) true []
    else zeros 4
  | 0xC1 => recOf 16 (t0own tag (s.bezel i).tag) 0 (s.bezel i).tag true (s.bodyBezel i)
  | 0xC2 =>
    let c := s.clasp i
    recOf 16 (tag == 0 || (c.ex && (tag == c.tagA || tag == c.tagB))) c.epoch (if c.ex then c.tagA else 0) true (s.bodyClasp i)
  | 0xC3 => recOf 16 (gateExists i) 0 (s.owner 12 i) true (s.bodyGate i)
  | 0xD0 => recOf 16 (t0own tag (s.owner 10 i)) 0 (s.owner 10 i) true (s.bodySlot i)
  | 0xE0 => (match s.flt.log[i]? with
      | none => zeros 32
      | some e => recOf 32 t01 0 0 true e.body)
  | 0xE1 => recOf 8 (srcRow i).isSome 0 0 true (s.bodySrc i)
  | 0xF0 => (match s.fb.log[i]? with
      | none => zeros 16
      | some e => recOf 16 t01 0 e.tag true e.body)
  | _ => []

/-- The records of a STATE.READ (05 R133); object 0x0011 lists the in-flight entries of the ring INDEX names, oldest first (04 R101). -/
def State.readRecs (s : State) (tag obj index count last : Nat) : List (List Byte) :=
  if obj = 0x11 then
    (if tag ≠ 0 ∧ index ≠ tag then []
     else ((s.hal.inflight.filter fun e => e.ring == index).take count).map InFl.body)
  else (List.range (Nat.min count (last - index))).map fun k => s.readRec tag obj (index + k)

/-- Whether the loaded Keore image latches receive object `o` (12 R309; 15 R381). -/
def State.mappedRx (s : State) (o : Nat) : Bool :=
  (imgMap s.keo.run).any fun m => (mpKind m == 5 || mpKind m == 6) && mpUnit m == o

/-- What a capture does to the captured units (12 R309; 13 R338). -/
def State.captured (s : State) (tag obj index n : Nat) : State :=
  if obj = 0x41 then
    (List.range n).foldl (fun s k =>
      let o := index + k
      if s.objOwner o = tag ∧ s.mappedRx o = false then
        { s with can := { s.can with obj := put s.can.obj o { s.cobj o with new := false, lost := false } } } else s) s
  else if obj = 0x50 ∧ tag ≤ 1 ∧ 0 < n then
    { s with wake := { s.wake with modLatch := s.wake.modLatch % 4096 / 16 * 16 },
             fb := { s.fb with shWake := { s.fb.shWake with modLatch := s.fb.shWake.modLatch % 4096 / 16 * 16 } } }
  else s

/-- Units of an object; the instance table gives those of object 0x0071. -/
def State.objLast (s : State) (obj n : Nat) : Nat := if obj = 0x71 then (imgInsts s.keo.run).length else n

/-- STATE.READ (05 R132 to R134). -/
def execStateRead (h : Hdr) (out outLen obj index count : Nat) (s : State) : Out :=
  match readObj obj with
  | none => hwCmd s (s.guarded h [noEpoch h, bp true 0x14] s)
  | some (n, _, fw) =>
    let last := s.objLast obj n
    let recs := s.readRecs h.ring obj index count last
    let bytes := recs.flatten
    let eff := s.guarded h
      [noEpoch h, bp (decide (last ≤ index)) 0x11, bp (decide (count = 0)) 0x12, bp (!s.outOK h.ring out outLen bytes.length) 0x10]
      (((s.writeOut out bytes).captured h.ring obj index recs.length).ok h (bytes.length + recs.length * 2 ^ 32))
    if fw then fwCmd h s eff else hwCmd s eff

end Sys2Proof.Machine
end

