-- ==== Sys2Proof/Machine/KeoreCode.lean ====
section
/-! DEFINITION. The 32-bit words of the Keore engine's instructions (15 R390, R391): encoder, legality and decoder. -/
namespace Sys2Proof.Machine
open Sys2Proof

/-- OP in bits [31:24] and Wd in bits [23:20] above the 20 bits of the rest. -/
def kWord (op d rest : Nat) : Nat := op * 16777216 + d * 1048576 + rest

/-- Formats R, M, X, B of 15 R390 below Wd. -/
def fmtR (a b p t : Nat) : Nat := a * 65536 + b * 4096 + p * 8 + t
def fmtM (base off : Nat) : Nat := base * 262144 + off
def fmtX (base x off : Nat) : Nat := base * 262144 + x * 16384 + off
def fmtB (base byte bit : Nat) : Nat := base * 262144 + byte * 8 + bit

/-- The word of an instruction; 0, which is illegal, for any other command. -/
def encodeWord : Instr → Nat
  | .kNop => kWord 0x01 0 0
  | .kLdb d base byte bit => kWord 0x08 d (fmtB base byte bit)
  | .kStb d base byte bit => kWord 0x09 d (fmtB base byte bit)
  | .kSetb d base byte bit => kWord 0x0A d (fmtB base byte bit)
  | .kRstb d base byte bit => kWord 0x0B d (fmtB base byte bit)
  | .kAndb d base byte bit => kWord 0x0C d (fmtB base byte bit)
  | .kOrb d base byte bit => kWord 0x0D d (fmtB base byte bit)
  | .kXorb d base byte bit => kWord 0x0E d (fmtB base byte bit)
  | .kAndnb d base byte bit => kWord 0x0F d (fmtB base byte bit)
  | .kLd d base off t => kWord (0x10 + t) d (fmtM base off)
  | .kSt d base off t => kWord (0x18 + t) d (fmtM base off)
  | .kLdx d base x off t => kWord (0x20 + t) d (fmtX base x off)
  | .kStx d base x off t => kWord (0x28 + t) d (fmtX base x off)
  | .kLea d base off => kWord 0x30 d (fmtM base off)
  | .kAdd d a b t => kWord 0x40 d (fmtR a b 0 t)
  | .kSub d a b t => kWord 0x41 d (fmtR a b 0 t)
  | .kMul d a b t => kWord 0x42 d (fmtR a b 0 t)
  | .kDiv d a b t => kWord 0x43 d (fmtR a b 0 t)
  | .kMod d a b t => kWord 0x44 d (fmtR a b 0 t)
  | .kMin d a b t => kWord 0x45 d (fmtR a b 0 t)
  | .kMax d a b t => kWord 0x46 d (fmtR a b 0 t)
  | .kNeg d a t => kWord 0x47 d (fmtR a 0 0 t)
  | .kAbs d a t => kWord 0x48 d (fmtR a 0 0 t)
  | .kAnd d a b t => kWord 0x49 d (fmtR a b 0 t)
  | .kOr d a b t => kWord 0x4A d (fmtR a b 0 t)
  | .kXor d a b t => kWord 0x4B d (fmtR a b 0 t)
  | .kNot d a t => kWord 0x4C d (fmtR a 0 0 t)
  | .kShl d a b t => kWord 0x4D d (fmtR a b 0 t)
  | .kShr d a b t => kWord 0x4E d (fmtR a b 0 t)
  | .kRol d a b t => kWord 0x4F d (fmtR a b 0 t)
  | .kRor d a b t => kWord 0x50 d (fmtR a b 0 t)
  | .kCeq d a b t => kWord 0x51 d (fmtR a b 0 t)
  | .kCne d a b t => kWord 0x52 d (fmtR a b 0 t)
  | .kClt d a b t => kWord 0x53 d (fmtR a b 0 t)
  | .kCle d a b t => kWord 0x54 d (fmtR a b 0 t)
  | .kCgt d a b t => kWord 0x55 d (fmtR a b 0 t)
  | .kCge d a b t => kWord 0x56 d (fmtR a b 0 t)
  | .kSel d a b t => kWord 0x57 d (fmtR a b 0 t)
  | .kCvt d a f t => kWord 0x58 d (fmtR a 0 f t)
  | .kSqrt d a t => kWord 0x59 d (fmtR a 0 0 t)
  | .kTrunc d a t => kWord 0x5A d (fmtR a 0 0 t)
  | .kMov d a t => kWord 0x5B d (fmtR a 0 0 t)
  | .kLdi d imm => kWord 0x60 d imm
  | .kLui d imm => kWord 0x61 d imm
  | .kAddi d imm => kWord 0x62 d imm
  | .kBfx d a pos len => kWord 0x63 d (a * 65536 + pos * 64 + len)
  | .kBfi d a pos len => kWord 0x64 d (a * 65536 + pos * 64 + len)
  | .kJmp disp => kWord 0x70 0 disp
  | .kJt c disp => kWord 0x71 c disp
  | .kJf c disp => kWord 0x72 c disp
  | .kCall c disp => kWord 0x74 c disp
  | .kRet => kWord 0x75 0 0
  | .kNow d => kWord 0x78 d 0
  | .kNowr d => kWord 0x79 d 0
  | .kEnd => kWord 0x7F 0 0
  | .kTon g base off => kWord 0x80 g (fmtM base off)
  | .kTof g base off => kWord 0x81 g (fmtM base off)
  | .kTp g base off => kWord 0x82 g (fmtM base off)
  | .kRtrig g base off => kWord 0x83 g (fmtM base off)
  | .kFtrig g base off => kWord 0x84 g (fmtM base off)
  | .kCtu g base off => kWord 0x85 g (fmtM base off)
  | .kCtd g base off => kWord 0x86 g (fmtM base off)
  | .kSr g base off => kWord 0x87 g (fmtM base off)
  | .kRs g base off => kWord 0x88 g (fmtM base off)
  | .kLimit d a b t => kWord 0x89 d (fmtR a b 0 t)
  | .kRamp g base off => kWord 0x8A g (fmtM base off)
  | .kPid g base off => kWord 0x8B g (fmtM base off)
  | _ => 0

/-- Sets of type codes (15 R391): 1 to 4; 1 and 2; 1 to 6; 0, 5 and 6; 5 and 6; 0 to 6. -/
def tNum (t : Nat) : Bool := decide (1 ≤ t) && decide (t ≤ 4)
def tInt (t : Nat) : Bool := decide (1 ≤ t) && decide (t ≤ 2)
def tMem (t : Nat) : Bool := decide (1 ≤ t) && decide (t ≤ 6)
def tBits (t : Nat) : Bool := t == 0 || t == 5 || t == 6
def tShift (t : Nat) : Bool := t == 5 || t == 6
def tAny (t : Nat) : Bool := decide (t ≤ 6)

/-- A register group of `n` lies within W0 to W15 (15 R374). -/
def grpOk (g n : Nat) : Bool := decide (g + n ≤ 16)

/-- An instruction with every type, field pair and register group as 15 R391 and R393 allow. -/
def kLegal : Instr → Bool
  | .kNop => true
  | .kLdb _ _ _ _ => true | .kStb _ _ _ _ => true | .kSetb _ _ _ _ => true | .kRstb _ _ _ _ => true
  | .kAndb _ _ _ _ => true | .kOrb _ _ _ _ => true | .kXorb _ _ _ _ => true | .kAndnb _ _ _ _ => true
  | .kLd _ _ _ t => tMem t | .kSt _ _ _ t => tMem t | .kLdx _ _ _ _ t => tMem t | .kStx _ _ _ _ t => tMem t
  | .kLea _ _ _ => true
  | .kAdd _ _ _ t => tNum t | .kSub _ _ _ t => tNum t | .kMul _ _ _ t => tNum t | .kDiv _ _ _ t => tNum t
  | .kMod _ _ _ t => tInt t
  | .kMin _ _ _ t => tMem t | .kMax _ _ _ t => tMem t
  | .kNeg _ _ t => tNum t | .kAbs _ _ t => tNum t
  | .kAnd _ _ _ t => tBits t | .kOr _ _ _ t => tBits t | .kXor _ _ _ t => tBits t | .kNot _ _ t => tBits t
  | .kShl _ _ _ t => tShift t | .kShr _ _ _ t => tShift t | .kRol _ _ _ t => tShift t | .kRor _ _ _ t => tShift t
  | .kCeq _ _ _ t => tAny t | .kCne _ _ _ t => tAny t | .kClt _ _ _ t => tAny t | .kCle _ _ _ t => tAny t
  | .kCgt _ _ _ t => tAny t | .kCge _ _ _ t => tAny t | .kSel _ _ _ t => tAny t
  | .kCvt _ _ f t => tAny f && tAny t
  | .kSqrt _ _ t => t == 3
  | .kTrunc _ _ t => tInt t
  | .kMov _ _ t => t == 0
  | .kLdi _ _ => true | .kLui _ _ => true | .kAddi _ _ => true
  | .kBfx _ _ pos len => decide (pos + len + 1 ≤ 64) | .kBfi _ _ pos len => decide (pos + len + 1 ≤ 64)
  | .kJmp _ => true | .kJt _ _ => true | .kJf _ _ => true | .kCall _ _ => true
  | .kRet => true | .kNow _ => true | .kNowr _ => true | .kEnd => true
  | .kTon g _ _ => grpOk g 2 | .kTof g _ _ => grpOk g 2 | .kTp g _ _ => grpOk g 2
  | .kRtrig g _ _ => grpOk g 1 | .kFtrig g _ _ => grpOk g 1
  | .kCtu g _ _ => grpOk g 3 | .kCtd g _ _ => grpOk g 3
  | .kSr g _ _ => grpOk g 2 | .kRs g _ _ => grpOk g 2
  | .kLimit _ _ _ t => tNum t
  | .kRamp g _ _ => grpOk g 4 | .kPid g _ _ => grpOk g 4
  | _ => false

/-- The instruction whose OP and fields a word holds, reserved bits not yet looked at. -/
def rawWord (w : Nat) : Option Instr :=
  let op := w / 16777216
  let d := w / 1048576 % 16
  let base := w / 262144 % 4
  let off := w % 262144
  let x := w / 16384 % 16
  let xoff := w % 16384
  let byte := w / 8 % 32768
  let bit := w % 8
  let a := w / 65536 % 16
  let b := w / 4096 % 16
  let p := w / 8 % 8
  let t := w % 8
  let imm := w % 1048576
  let pos := w / 64 % 64
  let len := w % 64
  if 0x11 ≤ op ∧ op ≤ 0x16 then some (.kLd d base off (op - 0x10))
  else if 0x19 ≤ op ∧ op ≤ 0x1E then some (.kSt d base off (op - 0x18))
  else if 0x21 ≤ op ∧ op ≤ 0x26 then some (.kLdx d base x xoff (op - 0x20))
  else if 0x29 ≤ op ∧ op ≤ 0x2E then some (.kStx d base x xoff (op - 0x28))
  else match op with
  | 0x01 => some .kNop
  | 0x08 => some (.kLdb d base byte bit)
  | 0x09 => some (.kStb d base byte bit)
  | 0x0A => some (.kSetb d base byte bit)
  | 0x0B => some (.kRstb d base byte bit)
  | 0x0C => some (.kAndb d base byte bit)
  | 0x0D => some (.kOrb d base byte bit)
  | 0x0E => some (.kXorb d base byte bit)
  | 0x0F => some (.kAndnb d base byte bit)
  | 0x30 => some (.kLea d base off)
  | 0x40 => some (.kAdd d a b t)
  | 0x41 => some (.kSub d a b t)
  | 0x42 => some (.kMul d a b t)
  | 0x43 => some (.kDiv d a b t)
  | 0x44 => some (.kMod d a b t)
  | 0x45 => some (.kMin d a b t)
  | 0x46 => some (.kMax d a b t)
  | 0x47 => some (.kNeg d a t)
  | 0x48 => some (.kAbs d a t)
  | 0x49 => some (.kAnd d a b t)
  | 0x4A => some (.kOr d a b t)
  | 0x4B => some (.kXor d a b t)
  | 0x4C => some (.kNot d a t)
  | 0x4D => some (.kShl d a b t)
  | 0x4E => some (.kShr d a b t)
  | 0x4F => some (.kRol d a b t)
  | 0x50 => some (.kRor d a b t)
  | 0x51 => some (.kCeq d a b t)
  | 0x52 => some (.kCne d a b t)
  | 0x53 => some (.kClt d a b t)
  | 0x54 => some (.kCle d a b t)
  | 0x55 => some (.kCgt d a b t)
  | 0x56 => some (.kCge d a b t)
  | 0x57 => some (.kSel d a b t)
  | 0x58 => some (.kCvt d a p t)
  | 0x59 => some (.kSqrt d a t)
  | 0x5A => some (.kTrunc d a t)
  | 0x5B => some (.kMov d a t)
  | 0x60 => some (.kLdi d imm)
  | 0x61 => some (.kLui d imm)
  | 0x62 => some (.kAddi d imm)
  | 0x63 => some (.kBfx d a pos len)
  | 0x64 => some (.kBfi d a pos len)
  | 0x70 => some (.kJmp imm)
  | 0x71 => some (.kJt d imm)
  | 0x72 => some (.kJf d imm)
  | 0x74 => some (.kCall d imm)
  | 0x75 => some .kRet
  | 0x78 => some (.kNow d)
  | 0x79 => some (.kNowr d)
  | 0x7F => some .kEnd
  | 0x80 => some (.kTon d base off)
  | 0x81 => some (.kTof d base off)
  | 0x82 => some (.kTp d base off)
  | 0x83 => some (.kRtrig d base off)
  | 0x84 => some (.kFtrig d base off)
  | 0x85 => some (.kCtu d base off)
  | 0x86 => some (.kCtd d base off)
  | 0x87 => some (.kSr d base off)
  | 0x88 => some (.kRs d base off)
  | 0x89 => some (.kLimit d a b t)
  | 0x8A => some (.kRamp d base off)
  | 0x8B => some (.kPid d base off)
  | _ => none

/-- The instruction a word is (15 R390, R391): a word whose reserved bits are not 0, or whose fields 15 R391 does not allow, is
illegal. -/
def decodeWord (w : Nat) : Option Instr := (rawWord w).filter fun i => kLegal i && encodeWord i == w

/-- Engine cycles of an instruction (15 R391, R393), a jump not taken. -/
def kCost : Instr → Nat
  | .kDiv _ _ _ _ => 8 | .kMod _ _ _ _ => 8 | .kSqrt _ _ _ => 12 | .kCall _ _ => 2 | .kRet => 2
  | .kTon _ _ _ => 2 | .kTof _ _ _ => 2 | .kTp _ _ _ => 2 | .kRamp _ _ _ => 6 | .kPid _ _ _ => 16
  | _ => 1

end Sys2Proof.Machine
end

