-- ==== Sys2Proof/Machine/KeoreMath.lean ====
section
/-! DEFINITION. The Keore engine's operand types, REAL32 arithmetic and sticky-flag computations (15 R389, R391, R392). -/
namespace Sys2Proof.Machine
open Sys2Proof

/-! ### Integers, TIME and bit fields -/

/-- Width of a type in bits (15 R389). -/
def tyWidth (t : Nat) : Nat := if t = 0 then 1 else if t = 1 ∨ t = 5 then 16 else if t = 4 then 64 else 32

/-- INT16, INT32 and TIME are signed. -/
def tySigned (t : Nat) : Bool := t == 1 || t == 2 || t == 4

/-- A register read as a type (15 R389): its low bits, signed for INT16, INT32 and TIME. -/
def rdTy (t : Nat) (w : W64) : Int :=
  if tySigned t then signed (tyWidth t) w.toNat else ((w.toNat % 2 ^ tyWidth t : Nat) : Int)

/-- A value wrapped to a type and held in a register as 15 R389 states. -/
def holdTy (t : Nat) (v : Int) : W64 :=
  let n := unsigned (tyWidth t) v
  if tySigned t then BitVec.ofInt 64 (signed (tyWidth t) n) else BitVec.ofNat 64 n

/-- A result and the sticky flags it sets: OVF, DIVZ, INV (15 R392). -/
structure KVal where
  v : W64
  ovf : Bool := false
  divz : Bool := false
  inv : Bool := false
deriving DecidableEq, Repr

/-- An integer or TIME result: wrapped at the width of T, OVF when that changed it. -/
def wrapTy (t : Nat) (v : Int) : KVal := { v := holdTy t v, ovf := rdTy t (holdTy t v) != v }

/-- An integer saturated at the limits of T. -/
def satTy (t : Nat) (v : Int) : KVal :=
  let w := tyWidth t
  let lo : Int := if tySigned t then -((2 ^ (w - 1) : Nat) : Int) else 0
  let hi : Int := (((if tySigned t then 2 ^ (w - 1) else 2 ^ w) : Nat) : Int) - 1
  { v := holdTy t (clampI lo hi v), ovf := clampI lo hi v != v }

/-! ### REAL32 -/

/-- A binary32 number: NaN, an infinity, or sign, m and e of (-1)^sign m 2^e. -/
inductive F32 where
  | nan | inf (neg : Bool) | fin (neg : Bool) (m : Nat) (e : Int)
deriving DecidableEq, Repr

/-- The number a binary32 pattern stands for. -/
def unpackF (x : Nat) : F32 :=
  let neg := bit x 31
  let ex := bits x 30 23
  let fr := bits x 22 0
  if ex = 255 then (if fr = 0 then .inf neg else .nan)
  else if ex = 0 then .fin neg fr (-149)
  else .fin neg (fr + 8388608) ((ex : Int) - 150)

/-- An infinity. -/
def infF (neg : Bool) : Nat := b2n neg * 2147483648 + 0x7F800000

/-- A NaN whose sign and payload the spec leaves open (log 10). -/
def nanF (a b : Nat) : Nat :=
  let r := Config.nanBits a b
  b2n (bit r 31) * 2147483648 + 0x7F800000 + 1 + r % 8388607

/-- (-1)^neg (m + f) 2^e rounded to nearest, ties to even; `sticky` says that 0 < f < 1, else f is 0. -/
def roundF (neg : Bool) (m : Nat) (e : Int) (sticky : Bool) : Nat :=
  let sgn := b2n neg * 2147483648
  if m = 0 then sgn
  else
    let q : Int := if (m.log2 : Int) + e - 23 < -149 then -149 else (m.log2 : Int) + e - 23
    let sh := (q - e).toNat
    let r := if q ≤ e then m * 2 ^ (e - q).toNat else m / 2 ^ sh
    let rem := if q ≤ e then 0 else m % 2 ^ sh
    let half := 2 ^ (sh - 1)
    let up := decide (e < q) && (decide (half < rem) || (rem == half && (sticky || r % 2 == 1)))
    let r := if up then r + 1 else r
    let (r, q) := if r = 16777216 then (8388608, q + 1) else (r, q)
    if r < 8388608 then sgn + r
    else
      let ex := (q + 150).toNat
      if 255 ≤ ex then infF neg else sgn + ex * 8388608 + (r - 8388608)

/-- The pattern of a NaN result with its flag, and of any other. -/
def nanRes (a b : Nat) : Nat × Bool := (nanF a b, true)
def numRes (x : Nat) : Nat × Bool := (x, false)

/-- Value times 2^(-e) of a finite number at a common exponent. -/
def scaled (neg : Bool) (m : Nat) (e c : Int) : Int :=
  let v : Int := ((m * 2 ^ (e - c).toNat : Nat) : Int)
  if neg then -v else v

/-- Sum (15 R392). -/
def addF (a b : Nat) : Nat × Bool :=
  match unpackF a, unpackF b with
  | .nan, _ => nanRes a b
  | _, .nan => nanRes a b
  | .inf s, .inf t => if s = t then numRes (infF s) else nanRes a b
  | .inf s, .fin _ _ _ => numRes (infF s)
  | .fin _ _ _, .inf t => numRes (infF t)
  | .fin s m e, .fin t n f =>
    let c := if e < f then e else f
    let v := scaled s m e c + scaled t n f c
    if v = 0 then numRes (b2n (s && t) * 2147483648) else numRes (roundF (decide (v < 0)) v.natAbs c false)

/-- The sign turned. -/
def negF (a : Nat) : Nat := if bit a 31 then a - 2147483648 else a + 2147483648

/-- Difference. -/
def subF (a b : Nat) : Nat × Bool :=
  match unpackF b with
  | .nan => nanRes a b
  | _ => addF a (negF b)

/-- Product. -/
def mulF (a b : Nat) : Nat × Bool :=
  match unpackF a, unpackF b with
  | .nan, _ => nanRes a b
  | _, .nan => nanRes a b
  | .inf s, .inf t => numRes (infF (s != t))
  | .inf s, .fin t n _ => if n = 0 then nanRes a b else numRes (infF (s != t))
  | .fin s m _, .inf t => if m = 0 then nanRes a b else numRes (infF (s != t))
  | .fin s m e, .fin t n f => numRes (roundF (s != t) (m * n) (e + f) false)

/-- Quotient of two finite non-zero magnitudes, rounded. -/
def quotF (neg : Bool) (m : Nat) (e : Int) (n : Nat) (f : Int) : Nat :=
  let k := m * 2 ^ 64
  roundF neg (k / n) (e - f - 64) (k % n != 0)

/-- Quotient; a zero divisor gives an infinity, or a NaN for 0 / 0. -/
def divF (a b : Nat) : Nat × Bool :=
  match unpackF a, unpackF b with
  | .nan, _ => nanRes a b
  | _, .nan => nanRes a b
  | .inf _, .inf _ => nanRes a b
  | .inf s, .fin t _ _ => numRes (infF (s != t))
  | .fin s _ _, .inf t => numRes (b2n (s != t) * 2147483648)
  | .fin s m e, .fin t n f =>
    if n = 0 then (if m = 0 then nanRes a b else numRes (infF (s != t))) else numRes (quotF (s != t) m e n f)

/-- Integer square root by bits: the largest r with r * r ≤ n, for r below 2^k. -/
def isqrt (n : Nat) : Nat → Nat → Nat
  | 0, r => r
  | k + 1, r => if (r + 2 ^ k) * (r + 2 ^ k) ≤ n then isqrt n k (r + 2 ^ k) else isqrt n k r

/-- Square root; of a negative number a NaN. -/
def sqrtF (a : Nat) : Nat × Bool :=
  match unpackF a with
  | .nan => nanRes a a
  | .inf s => if s then nanRes a a else numRes a
  | .fin s m e =>
    if m = 0 then numRes a
    else if s then nanRes a a
    else
      let (m, e) := if e % 2 = 0 then (m, e) else (m * 2, e - 1)
      let n := m * 2 ^ 64
      let r := isqrt n 48 0
      numRes (roundF false r (e / 2 - 32) (r * r != n))

/-- Order of two numbers: less, equal, greater; none when one is a NaN. -/
def cmpF (a b : Nat) : Option Ordering :=
  match unpackF a, unpackF b with
  | .nan, _ => none
  | _, .nan => none
  | .inf s, .inf t => some (if s = t then .eq else if s then .lt else .gt)
  | .inf s, .fin _ _ _ => some (if s then .lt else .gt)
  | .fin _ _ _, .inf t => some (if t then .gt else .lt)
  | .fin s m e, .fin t n f =>
    let c := if e < f then e else f
    some (compare (scaled s m e c) (scaled t n f c))

/-- MIN and MAX of REAL32. With a NaN, or with the two zeros, the spec states no result: `free` picks it (log 26). -/
def pickF (max : Bool) (a b free : Nat) : Nat × Bool :=
  match cmpF a b with
  | none =>
    if free % 2 = 0 ∧ unpackF a ≠ .nan then numRes a
    else if free % 2 = 0 ∧ unpackF b ≠ .nan then numRes b
    else nanRes a b
  | some .eq => numRes (if free % 2 = 0 then a else b)
  | some .lt => numRes (if max then b else a)
  | some .gt => numRes (if max then a else b)

/-- An integer as REAL32. -/
def ofIntF (v : Int) : Nat := roundF (decide (v < 0)) v.natAbs 0 false

/-- REAL32 to an integer: nearest-even, or towards zero; none for a NaN. An infinity goes beyond every limit. -/
def toIntF (trunc : Bool) (a : Nat) : Option Int :=
  match unpackF a with
  | .nan => none
  | .inf s => some (if s then -(2 ^ 130) else 2 ^ 130)
  | .fin s m e =>
    let k := (-e).toNat
    let q := m / 2 ^ k
    let rem := m % 2 ^ k
    let half := 2 ^ (k - 1)
    let n := if 0 ≤ e then m * 2 ^ e.toNat
      else if !trunc && (decide (half < rem) || (rem == half && q % 2 == 1)) then q + 1 else q
    some (if s then -(n : Int) else (n : Int))

/-- A REAL32 result in a register, with INV for a NaN. -/
def realVal (r : Nat × Bool) : KVal := { v := BitVec.ofNat 64 r.1, inv := r.2 }

/-- A register's REAL32 pattern. -/
def realOf (w : W64) : Nat := w.toNat % 4294967296

/-! ### The arithmetic operations by type -/

/-- ADD, SUB, MUL (15 R391): T 1 to 4; for a TIME product Wb is a signed integer of 64 bits. -/
def addOf (t : Nat) (a b : W64) : KVal := if t = 3 then realVal (addF (realOf a) (realOf b)) else wrapTy t (rdTy t a + rdTy t b)
def subOf (t : Nat) (a b : W64) : KVal := if t = 3 then realVal (subF (realOf a) (realOf b)) else wrapTy t (rdTy t a - rdTy t b)
def mulOf (t : Nat) (a b : W64) : KVal := if t = 3 then realVal (mulF (realOf a) (realOf b)) else wrapTy t (rdTy t a * rdTy t b)

/-- DIV: towards zero; by zero an integer or TIME quotient is 0 with DIVZ. -/
def divOf (t : Nat) (a b : W64) : KVal :=
  if t = 3 then { realVal (divF (realOf a) (realOf b)) with divz := realOf b % 2147483648 == 0 }
  else if rdTy t b = 0 then { v := 0, divz := true }
  else wrapTy t ((rdTy t a).tdiv (rdTy t b))

/-- MOD: the remainder with the sign of Wa; modulo zero 0 with DIVZ (log 27). -/
def modOf (t : Nat) (a b : W64) : KVal :=
  if rdTy t b = 0 then { v := 0, divz := true } else wrapTy t ((rdTy t a).tmod (rdTy t b))

/-- MIN and MAX. -/
def pickOf (max : Bool) (t free : Nat) (a b : W64) : KVal :=
  if t = 3 then realVal (pickF max (realOf a) (realOf b) free)
  else if decide (rdTy t a < rdTy t b) == max then { v := holdTy t (rdTy t b) } else { v := holdTy t (rdTy t a) }

/-- NEG and ABS. -/
def negOf (t : Nat) (a : W64) : KVal :=
  if t = 3 then { v := BitVec.ofNat 64 (negF (realOf a)), inv := unpackF (realOf a) == .nan } else wrapTy t (-(rdTy t a))
def absOf (t : Nat) (a : W64) : KVal :=
  if t = 3 then { v := BitVec.ofNat 64 (realOf a % 2147483648), inv := unpackF (realOf a) == .nan }
  else wrapTy t (rdTy t a).natAbs

/-- Bitwise operations on BOOL, BF16, BF32. -/
def bitsOf (f : Nat → Nat → Nat) (t : Nat) (a b : W64) : KVal :=
  { v := BitVec.ofNat 64 (f (rdTy t a).toNat (rdTy t b).toNat % 2 ^ tyWidth t) }
def notOf (t : Nat) (a : W64) : KVal := { v := BitVec.ofNat 64 (2 ^ tyWidth t - 1 - (rdTy t a).toNat) }

/-- SHL, SHR, ROL, ROR: the count is Wb modulo the width. -/
def shlOf (t : Nat) (a b : W64) : KVal :=
  let w := tyWidth t
  { v := BitVec.ofNat 64 ((rdTy t a).toNat * 2 ^ (b.toNat % w) % 2 ^ w) }
def shrOf (t : Nat) (a b : W64) : KVal := { v := BitVec.ofNat 64 ((rdTy t a).toNat / 2 ^ (b.toNat % tyWidth t)) }
def rolOf (t : Nat) (a b : W64) : KVal :=
  let w := tyWidth t
  let n := b.toNat % w
  { v := BitVec.ofNat 64 ((rdTy t a).toNat * 2 ^ n % 2 ^ w + (rdTy t a).toNat / 2 ^ (w - n)) }
def rorOf (t : Nat) (a b : W64) : KVal :=
  let w := tyWidth t
  let n := b.toNat % w
  { v := BitVec.ofNat 64 ((rdTy t a).toNat / 2 ^ n + (rdTy t a).toNat * 2 ^ (w - n) % 2 ^ w) }

/-- How Wa relates to Wb as type T; none when a REAL32 is a NaN. -/
def cmpOf (t : Nat) (a b : W64) : Option Ordering :=
  if t = 3 then cmpF (realOf a) (realOf b) else some (compare (rdTy t a) (rdTy t b))

/-- A truth value in a register. -/
def boolVal (c : Bool) : KVal := { v := BitVec.ofNat 64 (b2n c) }

/-- SEL: Wb when Wd[0] is 1, else Wa, held as T. -/
def heldAs (t : Nat) (a : W64) : W64 := if t = 3 then BitVec.ofNat 64 (realOf a) else holdTy t (rdTy t a)
def selOf (t : Nat) (d a b : W64) : KVal := { v := heldAs t (if d.toNat % 2 = 1 then b else a) }

/-- LIMIT: MIN(MAX(Wd, Wa), Wb). -/
def limitOf (t free : Nat) (d a b : W64) : KVal :=
  let m := pickOf true t free d a
  let r := pickOf false t (free / 2) m.v b
  { r with inv := r.inv }

/-- CVT from type f to type t (15 R392). A number other than 0 and 1 has no stated BOOL: `free` gives it (log 26). -/
def cvtOf (f t free : Nat) (a : W64) : KVal :=
  if f = 3 then
    if t = 3 then { v := BitVec.ofNat 64 (realOf a), inv := unpackF (realOf a) == .nan }
    else match toIntF false (realOf a) with
      | none => { v := 0, inv := true }
      | some v => if t = 0 then (if realOf a % 2147483648 = 0 then boolVal false
                                 else if realOf a = 0x3F800000 then boolVal true else boolVal (free % 2 == 1))
                  else satTy t v
  else if t = 3 then { v := BitVec.ofNat 64 (ofIntF (rdTy f a)) }
  else if t = 0 then (if rdTy f a = 0 then boolVal false else if rdTy f a = 1 then boolVal true else boolVal (free % 2 == 1))
  else if tySigned t then wrapTy t (rdTy f a) else { v := holdTy t (rdTy f a) }

/-- TRUNC: towards zero, saturating, NaN gives 0. -/
def truncOf (t : Nat) (a : W64) : KVal :=
  match toIntF true (realOf a) with
  | none => { v := 0, inv := true }
  | some v => satTy t v

end Sys2Proof.Machine
end

