-- ==== Sys2Proof/Machine/KeoreRun.lean ====
section
/-! DEFINITION. How the Keore engine runs a task: memory accesses and forces, latch, instruction frame, output phase,
handover, task order and halts (15 R375 to R386, R388, R394, R395; 16 R402, R413, R414). -/
namespace Sys2Proof.Machine
open Sys2Proof

/-! ### Instance SRAM and forces -/

/-- Offset in instance SRAM of the first byte a force covers (15 R373; 16 R413). -/
def Force.off (f : Force) (p : List Byte) : Nat := areaBase p f.area + (if f.typ = 0 then f.addr / 8 else f.addr)

/-- A force covers a byte of [a, a + n). -/
def Force.touches (f : Force) (p : List Byte) (a n : Nat) : Bool :=
  decide (f.off p < a + n) && decide (a < f.off p + tySize f.typ)

/-- Bytes of instance SRAM. -/
def State.iread (s : State) (a n : Nat) : List Byte := memRead s.mem (instAddr + a) n

/-- Bytes of instance SRAM written, whatever is forced; a word written whole holds no error any more (01 R563). -/
def State.iwrite (s : State) (a : Nat) (bs : List Byte) : State :=
  { s with mem := memPutAll s.mem (instAddr + a) bs, ecc := s.ecc.filter fun q => !wholeWord (instAddr + a) bs.length q.1 }

/-- A byte with one bit set to `v`. -/
def setBit8 (b : Byte) (i : Nat) (v : Bool) : Byte := if v then b ||| BitVec.ofNat 8 (2 ^ i) else b &&& ~~~(BitVec.ofNat 8 (2 ^ i))

/-- The bytes with the bits kept that BOOL forces hold. -/
def State.keepForced (s : State) (a : Nat) (bs : List Byte) : List Byte :=
  s.keo.force.foldl (fun bs (q : Nat × Force) =>
    let f := q.2
    let o := f.off s.keo.run
    if f.typ = 0 ∧ a ≤ o ∧ o < a + bs.length then
      bs.set (o - a) (setBit8 ((bs[o - a]?).getD 0) (f.addr % 8) (f.value % 2 == 1))
    else bs) bs

/-- A force other than a BOOL covers a byte of [a, a + n). -/
def State.forcedOver (s : State) (a n : Nat) : Bool :=
  s.keo.force.any fun (q : Nat × Force) => q.2.typ != 0 && q.2.touches s.keo.run a n

/-- The latch writes a value unless it is forced (16 R414). -/
def State.latchBytes (s : State) (a : Nat) (bs : List Byte) : State :=
  if s.forcedOver a bs.length then s else s.iwrite a (s.keepForced a bs)

/-- The latch writes a bit of PI. -/
def State.latchBit (s : State) (b : Nat) (v : Bool) : State :=
  s.latchBytes (b / 8) [setBit8 ((s.iread (b / 8) 1).headD 0) (b % 8) v]

/-- The DISCARD counters of the forces that `hit` picks rise (16 R413). -/
def State.discard (s : State) (hit : Force → Bool) : State :=
  { s with keo := { s.keo with force := s.keo.force.map fun (q : Nat × Force) =>
      (q.1, if hit q.2 then { q.2 with discard := satAdd 32 q.2.discard 1 } else q.2) } }

/-- Task `k` has changed bytes of instance SRAM. -/
def State.markDirty (s : State) (k a n : Nat) : State := s.setKtask k { s.ktask k with dirty := (s.ktask k).dirty ++ [(a, n)] }

/-- A program store of task `k` (16 R413): discarded where a force covers a byte; a forced BOOL keeps its bit. -/
def State.kStore (s : State) (k a : Nat) (bs : List Byte) : State :=
  let hit := fun (f : Force) => f.touches s.keo.run a bs.length
  if s.forcedOver a bs.length then s.discard hit
  else ((s.iwrite a (s.keepForced a bs)).discard hit).markDirty k a bs.length

/-- A program store of one bit. -/
def State.kStoreBit (s : State) (k a i : Nat) (v : Bool) : State :=
  let hit := fun (f : Force) => f.touches s.keo.run a 1 && (f.typ != 0 || f.addr % 8 == i)
  if s.keo.force.any fun (q : Nat × Force) => hit q.2 then s.discard hit
  else (s.iwrite a [setBit8 ((s.iread a 1).headD 0) i v]).markDirty k a 1

/-- The area of a BASE code: 0 IB, 1 GB, 2 RB, 3 PB (15 R388). -/
def baseArea (base : Nat) : Nat := if base = 0 then 3 else if base = 1 then 1 else if base = 2 then 2 else 0

/-- The offset in instance SRAM of BASE plus `off`. -/
def kAddr (p : List Byte) (t : KTask) (base off : Nat) : Nat := (if base = 0 then t.ib else areaBase p (baseArea base)) + off

/-- What traps an access of `n` bytes (15 R388, R394): 4 outside its area, 5 misaligned, 7 an uncorrectable error. -/
def State.kTrap (s : State) (base a n align : Nat) : Option Nat :=
  let p := s.keo.run
  let lo := areaBase p (baseArea base)
  if a < lo ∨ lo + areaSize p (baseArea base) < a + n then some 4
  else if a % align ≠ 0 then some 5
  else if s.ecc.any fun q => decide ((instAddr + a) / 8 ≤ q.1) && decide (q.1 * 8 < instAddr + a + n) && q.2 != 1 then some 7
  else none

/-! ### Halts (15 R394, R395) -/

/-- The output entries of a kind. -/
def State.outsOf (s : State) (kind : Nat) : List (List Byte) := (imgMap s.keo.run).filter fun m => mpKind m == kind

/-- Data the engine has made pending in a transmit object are cancelled (15 R395). -/
def State.cancelEngine (s : State) (o : Nat) : State :=
  let x := s.cobj o
  let x := match x.later with
    | some (none, _, _) => { x with later := none }
    | _ => x
  let x := if 12 ≤ x.ctrl then { x with unsent := false } else x
  if x.st = 1 ∧ x.h = none then s.setCobj o { x with st := 0, built := none } else s.setCobj o x

/-- An exchange not yet committed ends with BAD_STATE 0x19 (16 R412). -/
def State.cancelXchg (s : State) : State :=
  let x := s.keo.x
  if x.st = 0 then s else { s with keo := { s.keo with x := { x with st := 0, held := [], later := [] } } }.fail x.h .badState 0x19

/-- The outputs of the image are held, switched off and cancelled (15 R395). -/
def State.holdOutputs (s : State) : State :=
  let s := (s.outsOf 0x10).foldl (fun s m => s.holdCh (mpUnit m) .keore) s
  let s := (s.outsOf 0x11).foldl (fun s m => if (s.isoCh (mpUnit m)).mode = 2 then (s.isoSet (mpUnit m) false).syncIso else s) s
  (s.outsOf 0x13).foldl (fun s m => s.cancelEngine (2048 + mpUnit m)) s

/-- A trace packet of the engine (18 R471, type 0x4): `code` 0 release, 1 end, 2 halt, 3 output write, of task `k`. -/
def State.keoTrace (s : State) (code k : Nat) : State :=
  if bit s.dbg.trace 10 && bit s.dbg.ni s.imgTag then
    { s with dbg := { s.dbg with out := [0x4A, BitVec.ofNat 8 code, BitVec.ofNat 8 k] ++ toLE 4 s.now } }
  else s

/-- The engine halts at word `pc` of task `k` (15 R394, R395). -/
def State.kHalt (s : State) (cause k pc : Nat) : State :=
  let s := ({ s with keo := { s.keo with st := 3, hcause := cause, htask := k, haltPc := pc, haltT := s.now, cur := none } } : State).keoTrace 2 k
  let s := s.raise (if cause ≤ 2 then 0x60 else 0x61) (k + 256 * cause)
  (s.cancelXchg.holdOutputs).settle

/-! ### Task order (15 R376) -/

/-- BUDGET of a task of the running image. -/
def State.kBudget (s : State) (k : Nat) : Nat := ((imgTask s.keo.run k).map tkBudget).getD 0

/-- The highest-priority task that has been released and has not ended. -/
def State.kBest (s : State) : Option Nat := (List.range 8).find? fun k => (s.ktask k).st != 0

/-- Task `k` takes the engine; `sw` is the cost of a switch between tasks, charged to it. -/
def State.kSwitch (s : State) (k sw : Nat) : State :=
  let t := s.ktask k
  let s := (s.setKtask k { t with st := 2, used := t.used + sw })
  let s := { s with keo := { s.keo with cur := some k } }
  if s.kBudget k < t.used + sw then s.kHalt 1 k t.pc else s

/-- At an instruction boundary a higher-priority task pre-empts the running one. -/
def State.kPick (s : State) : State :=
  match s.keo.cur, s.kBest with
  | some c, some b => if b < c then (s.setKtask c { s.ktask c with st := 3 }).kSwitch b 2 else s
  | none, some b => s.kSwitch b 0
  | _, none => s

/-! ### The input latch (15 R381, R382) -/

/-- The bit positions of a signal, least significant first (15 R382). -/
def bePositions : Nat → Nat → List Nat
  | _, 0 => []
  | p, n + 1 => p :: bePositions (if p % 8 = 0 then p + 15 else p - 1) n
def sigPositions (sbit slen : Nat) : List Nat :=
  if bit slen 6 then (bePositions sbit (slen % 64)).reverse else (List.range (slen % 64)).map fun i => sbit + i

/-- The number a signal's bits spell in data bytes; bits beyond the data read 0. -/
def sigValue (d : List Byte) (ps : List Nat) : Nat := ps.foldr (fun p v => b2n (bit (byteAt d (p / 8)) (p % 8)) + 2 * v) 0

/-- The key of an epoch recorded at the start (15 R386): 0 channels, 1 receive, 2 transmit objects. -/
def epochKey (kind unit : Nat) : Nat := kind * 4096 + unit

/-- The recorded epoch still matches (15 R381, R386). -/
def State.fresh (s : State) (kind unit now : Nat) : Bool := look? s.keo.epochs (epochKey kind unit) == some now

/-- The object or channel a map entry names, by its key, with its present epoch (15 R386). -/
def State.entryEpoch (s : State) (m : List Byte) : Option (Nat × Nat) :=
  let u := mpUnit m
  if mpKind m = 5 ∨ mpKind m = 6 then some (epochKey 1 u, (s.cobj u).epoch)
  else if mpKind m = 7 ∨ mpKind m = 8 ∨ mpKind m = 0x10 then some (epochKey 0 u, s.chEpoch u)
  else if mpKind m = 0x12 ∨ mpKind m = 0x13 then some (epochKey 2 u, (s.cobj (2048 + u)).epoch)
  else none

/-- What an input entry reads at release instant `relT` for an image of tag `tag`: the value's bits, none where it is not valid whatever epoch
stands recorded (15 R379, R381). The image tag must be able to read the source (05 R133). -/
def State.latchRaw (s : State) (tag relT : Nat) (m : List Byte) : Option Nat :=
  let u := mpUnit m
  let got := fun (c : Bool) (v : Nat) => if c then some v else none
  let x := s.cobj u
  let obj := t0own tag (s.objOwner u) && decide (s.keo.startT ≤ x.at_) && (x.at_ != 0 || x.cnt != 0)
  let chOk := t0own tag (s.owner 3 u)
  let down := s.linkDown (1 + chDie u)
  match mpKind m with
  | 0x01 => got (s.sw u).valid (b2n (s.sw u).value)
  | 0x02 => got (s.an u).valid (s.an u).value
  | 0x03 => got (s.pc u).conf (word (s.pc u).count)
  | 0x04 => got (t0own tag (s.owner 13 u) && !s.linkDown 3 && s.fb.shIso.valid u)
      (b2n ((look (fun _ => ({} : IsoCh)) s.fb.shIso.ch u).filt == some true))
  | 0x05 =>
    let late := mpTmo m != 0 && decide (x.time + mpTmo m * 10000000 < relT)
    let n := mpSlen m % 64
    let v := sigValue (x.data.take x.len) (sigPositions (mpSbit m) (mpSlen m))
    got (obj && !late) (if bit (mpSlen m) 7 then unsigned (tyWidth (mpType m)) (Machine.signed n v) else v)
  | 0x06 => got obj (s.objFlags u)
  | 0x07 => got chOk (if down then 0 else s.chStat u % 2 ^ 24)
  | 0x08 => got chOk (if down then 0 else word (s.shChan u).cur)
  | _ => none

/-- The input entries of task `k` in an image. -/
def insOf (p : List Byte) (k : Nat) : List (List Byte) := (imgMap p).filter fun m => mpTask m == k && decide (mpKind m < 0x10)

/-- The latch of a task at its release instant (15 R381), for image `p`: what each of its entries reads, with the epoch of what it names. -/
def State.capture (s : State) (p : List Byte) (k relT : Nat) : List LatchCap :=
  (insOf p k).map fun m => { v := s.latchRaw (payloadTag (some p)) relT m, ep := s.entryEpoch m }

/-- A captured value stands: the epoch recorded is that of the capture (15 R381, R386). -/
def State.capValue (s : State) (c : LatchCap) : Option Nat :=
  match c.ep with
  | none => c.v
  | some (key, e) => if look? s.keo.epochs key = some e then c.v else none

/-- An input entry latched: the value, unless forced, and the validity bit. -/
def State.latchEntry (s : State) (m : List Byte) (v : Option Nat) : State :=
  let s := match v with
    | none => s
    | some v => if mpType m = 0 then s.latchBit (mpPioff m) (v % 2 == 1) else s.latchBytes (mpPioff m) (toLE (tySize (mpType m)) v)
  if mpVbit m = 0xFFFF then s else s.latchBit (mpVbit m) v.isSome

/-- Latching an entry of a receive object consumes it (12 R309; 15 R381). -/
def State.consumeRx (s : State) (m : List Byte) : State :=
  if mpKind m = 5 ∨ mpKind m = 6 then
    s.setCobj (mpUnit m) { s.cobj (mpUnit m) with new := false, lost := false }
  else s

/-- The objects of which an entry is latched are consumed at the release. -/
def State.consumeAll (s : State) (p : List Byte) (k : Nat) (caps : List LatchCap) : State :=
  ((insOf p k).zip caps).foldl (fun s q => if q.2.v.isSome then s.consumeRx q.1 else s) s

/-- The captured values reach PI. -/
def State.kLatch (s : State) (k : Nat) (caps : List LatchCap) : State :=
  ((insOf s.keo.run k).zip caps).foldl (fun s q => s.latchEntry q.1 (s.capValue q.2)) s

/-! ### The instruction frame -/

/-- Register Wn of a task. -/
def KTask.reg (t : KTask) (n : Nat) : W64 := (t.w[n]?).getD 0

/-- Register Wn written. -/
def KTask.setReg (t : KTask) (n : Nat) (v : W64) : KTask := { t with w := t.w.set n v }

/-- A result in Wn with its sticky flags. -/
def KTask.setVal (t : KTask) (n : Nat) (r : KVal) : KTask :=
  { t.setReg n r.v with ovf := t.ovf || r.ovf, divz := t.divz || r.divz, inv := t.inv || r.inv }

/-- The engine may run an instruction: RUNNING, no swap, a task in charge; no debug halt reaches it (18 R469). -/
def State.kReady (s : State) : Option Nat :=
  if s.live ∧ s.keo.st = 2 ∧ s.keo.x.st ≠ 3 then s.keo.cur else none

/-- The instruction at a task's program counter; none where it is illegal or outside the code. -/
def State.kFetch (s : State) (k : Nat) : Option Instr := (imgWord s.keo.run (s.ktask k).pc).bind decodeWord

/-- An instruction of the running task (15 R376, R377, R394; log 11): it runs when it stands at the task's program counter and
the budget allows its cycles. `f` has the task with its cycles charged and its program counter on the instruction. -/
def State.kRun (s : State) (i : Instr) (cost : KTask → Nat) (f : State → Nat → KTask → State) : Out :=
  .next (match s.kReady with
    | none => s
    | some k =>
      let t := s.ktask k
      match s.kFetch k with
      | none => s.kHalt 3 k t.pc
      | some j =>
        if j ≠ i then s
        else if s.kBudget k < t.used + cost t then s.kHalt 1 k t.pc
        else f (s.setKtask k { t with used := t.used + cost t }) k { t with used := t.used + cost t })

/-- The task goes on at word `pc`. -/
def State.kGo (s : State) (k : Nat) (t : KTask) (pc : Nat) : State := (s.setKtask k { t with pc := pc }).kPick

/-- The task goes on with the next word. -/
def State.kNext (s : State) (k : Nat) (t : KTask) : State := s.kGo k t (t.pc + 1)

/-- A register instruction: the task's registers and flags change, nothing else. -/
def State.kReg (s : State) (i : Instr) (f : KTask → KTask) : Out := s.kRun i (fun _ => kCost i) fun s k t => s.kNext k (f t)

/-- A register instruction whose result may need a free value (log 12). -/
def State.kFree (s : State) (i : Instr) (f : KTask → Nat → KTask) : Out :=
  s.kRun i (fun _ => kCost i) fun s k t => let (v, s) := s.draw; s.kNext k (f t v)

/-- An access of `n` bytes at BASE plus `off`, then `f` with its offset in instance SRAM. -/
def State.kAccess (s : State) (k : Nat) (t : KTask) (base off n align : Nat) (f : State → Nat → State) : State :=
  let a := kAddr s.keo.run t base off
  match s.kTrap base a n align with
  | some c => s.kHalt c k t.pc
  | none => f s a

/-! ### The output phase (15 R383 to R386) -/

/-- A channel write discarded or refused before it is applied. -/
def State.wrefCh (s : State) (n : Nat) : State := (s.wref.refuseCount n).syncCh n

/-- A kind 0x10 entry (15 R380, R383). Value bits [15:12] other than 0, or action 0b11, name no command (log 28). -/
def State.outChan (s : State) (m : List Byte) : State :=
  let n := mpUnit m
  let v := le (s.iread (mpPioff m) 2) 0 2
  let act := actOf (bits v 11 10)
  let duty := bits v 9 0
  let c := s.chan (s.lead n)
  let bad := look (fun _ => 0) s.fb.bad (1 + chDie n)
  if bits v 15 12 ≠ 0 then s.wrefCh n
  else if bits v 11 10 = 3 then s
  else if act = c.act ∧ (act ≠ .pwm ∨ duty = c.duty) then s
  else if s.owner 3 n ≠ s.imgTag ∨ s.fresh 0 n (s.chEpoch n) = false ∨ s.linkDown (1 + chDie n) ∨ s.dieAbsent n then s.wrefCh n
  else if bad ≠ 0 then
    let s := { s with fb := { s.fb with retry := satAdd 32 s.fb.retry 3 } }
    (s.fbLog { addr := cmdAddr n, time := s.now32, die := 1 + chDie n, code := bad, ini := 0x21, kind := 1, tag := s.imgTag % 16 }).wrefCh n
  else ((s.chArrive n act duty (.keore n) 0).settle).keoTrace 3 (mpTask m)

/-- A kind 0x11 entry: an ISO.SET from the image tag. A value equal to that of an output held as an orphan ends the hold (17 R445). -/
def State.outIso (s : State) (m : List Byte) : State :=
  let n := mpUnit m
  let v := bit (byteAt (s.iread (mpPioff m / 8) 1) 0) (mpPioff m % 8)
  if (s.isoCh n).cmd = v ∧ (s.isoCh n).hold = false then s
  else if s.owner 13 n ≠ s.imgTag ∨ s.linkDown 3 ∨ s.dieGone 3 ∨ look (fun _ => 0) s.fb.bad 3 ≠ 0 then (if (s.isoCh n).cmd = v then s else s.wref)
  else if (s.isoCh n).cmd = v then (s.setIsoCh n { s.isoCh n with hold := false }).syncIso
  else if (firstBad (s.isoRefuse n v)).isSome then s.isoArrive { ch := n, v := v }
  else (s.isoArrive { ch := n, v := v }).keoTrace 3 (mpTask m)

/-- The image tag owns a transmit object whose recorded epoch matches. -/
def State.ownsTx (s : State) (u : Nat) : Bool := s.owner 5 u == s.imgTag && s.fresh 2 u (s.cobj (2048 + u)).epoch

/-- A kind 0x12 entry: the signal's bits in the engine's buffer of the object. -/
def State.outSignal (s : State) (m : List Byte) : State :=
  let u := mpUnit m
  if !s.ownsTx u then s.wref
  else
    let v := if mpType m = 0 then b2n (bit (byteAt (s.iread (mpPioff m / 8) 1) 0) (mpPioff m % 8))
             else le (s.iread (mpPioff m) (tySize (mpType m))) 0 (tySize (mpType m))
    let ps := sigPositions (mpSbit m) (mpSlen m)
    let old := look (fun _ => zeros 64) s.keo.buf u
    let new := (ps.zip (List.range ps.length)).foldl (fun d (q : Nat × Nat) =>
      d.set (q.1 / 8) (setBit8 ((d[q.1 / 8]?).getD 0) (q.1 % 8) (v.testBit q.2))) old
    { s with keo := { s.keo with buf := put s.keo.buf u new, sig := if new = old then s.keo.sig else put s.keo.sig u true } }

/-- A kind 0x13 entry: the buffer sent as CAN.TX would, by SENDMODE. -/
def State.outSend (s : State) (m : List Byte) : State :=
  let u := mpUnit m
  let on := bit (byteAt (s.iread (mpPioff m / 8) 1) 0) (mpPioff m % 8)
  let mode := mpFlags m % 4
  let go := if mode = 0 then on else if mode = 1 then look (fun _ => false) s.keo.sig u else mode == 2
  let d := (look (fun _ => zeros 64) s.keo.buf u).take (mpSbit m)
  if !go then s
  else if !s.ownsTx u then s.wref
  else match firstBad (s.txChecks (2048 + u) d) with
    | some _ => s.wref
    | none => let (data, xl) := s.txSplit (2048 + u) d; (s.queueTx (2048 + u) none data xl).keoTrace 3 (mpTask m)

/-- A kind 0x14 entry: the line is pulsed when the value is 1. -/
def State.outEvent (s : State) (m : List Byte) : State :=
  let on := bit (byteAt (s.iread (mpPioff m / 8) 1) 0) (mpPioff m % 8)
  if !on then s else if s.owner 11 (mpUnit m) = s.imgTag then (s.pulse (mpUnit m)).keoTrace 3 (mpTask m) else s.wref

/-- One output entry. -/
def State.outEntry (s : State) (m : List Byte) : State :=
  match mpKind m with
  | 0x10 => s.outChan m
  | 0x11 => s.outIso m
  | 0x12 => s.outSignal m
  | 0x13 => s.outSend m
  | 0x14 => s.outEvent m
  | _ => s

/-- The output entries of a task. -/
def State.taskOuts (s : State) (k : Nat) : List (List Byte) := (imgMap s.keo.run).filter fun m => mpTask m == k && decide (0x10 ≤ mpKind m)

/-- The entries in map order, a cycle each; false when the budget ends before one of them (15 R377). -/
def State.outLoop (s : State) (k budget : Nat) : List (List Byte) → Bool × State
  | [] => (true, s)
  | m :: r =>
    let t := s.ktask k
    if budget < t.used + 1 then (false, s) else ((s.setKtask k { t with used := t.used + 1 }).outEntry m).outLoop k budget r

/-! ### The retained handover (16 R402) -/

/-- Where retained data stand: (offset in instance SRAM, offset in the commit image, bytes). -/
def retainMap (p : List Byte) : List (Nat × Nat × Nat) :=
  let l := imgRetained p
  (areaBase p 2, 0, imgRt p) ::
    (l.zip (List.range l.length)).map fun (q : List Byte × Nat) => (areaBase p 3 + le q.1 8 4, imgRt p + 16 * q.2, retainKind (le q.1 4 4))

/-- The retained pieces of dirty ranges: (offset in the commit image, bytes now). -/
def State.dirtyPieces (s : State) (l : List (Nat × Nat)) : List (Nat × List Byte) :=
  (l.map fun (d : Nat × Nat) => (retainMap s.keo.run).filterMap fun (e : Nat × Nat × Nat) =>
    let lo := Nat.max d.1 e.1
    let hi := Nat.min (d.1 + d.2) (e.1 + e.2.2)
    if lo < hi then some (e.2.1 + (lo - e.1), s.iread lo (hi - lo)) else none).flatten

/-- The retained command of a channel entry (15 R385; 16 R399): the value, with bit 15 for a mapped channel. -/
def State.retCmd (s : State) (m : List Byte) : Nat := le (s.iread (mpPioff m) 2) 0 2 % 32768 + 32768

/-- The commit image the handover writes to: the pending buffer while a pass runs. -/
def State.handImg (s : State) : List Byte × List Nat := if s.keo.pass.isSome then (s.keo.pimg, s.keo.pcmd) else (s.keo.cimg, s.keo.ccmd)

/-- 32-byte blocks in which two images differ. -/
def blocksDiff (a b : List Byte) : Nat :=
  let n := ceilDiv (Nat.max a.length b.length) 32
  ((List.range n).filter fun i => slice a (32 * i) 32 != slice b (32 * i) 32).length

/-- The commands as bytes. -/
def cmdBytes (l : List Nat) : List Byte := (l.map fun v => toLE 2 v).flatten

/-- The images after the handover of a task, and the changed blocks. -/
def State.handOver (s : State) (k : Nat) : Nat × (List Byte × List Nat) :=
  let (img, cmd) := s.handImg
  let img' := (s.dirtyPieces (s.ktask k).dirty).foldl (fun l (q : Nat × List Byte) => setBytes l q.1 q.2) img
  let cmd' := ((s.taskOuts k).filter fun m => mpKind m == 0x10).foldl (fun l m => l.set (mpUnit m) (s.retCmd m)) cmd
  (blocksDiff img img' + blocksDiff (cmdBytes cmd) (cmdBytes cmd'), (img', cmd'))

/-- The images put in place. -/
def State.setHand (s : State) (x : List Byte × List Nat) : State :=
  { s with keo := if s.keo.pass.isSome then { s.keo with pimg := x.1, pcmd := x.2, handed := true }
                  else { s.keo with cimg := x.1, ccmd := x.2, handed := true } }

/-- A task has executed END (15 R376, R377; 16 R402): the output phase, the handover, and the next task. An END taken in the cycle
in which the budget ends is no overrun, nor is what follows it in that release (log 29). -/
def State.kEnd (s : State) (k : Nat) : State :=
  let t := s.ktask k
  let budget := if s.kBudget k < t.used + 1 then t.used + 2 ^ 32 else s.kBudget k
  let s := s.setKtask k { t with used := t.used + 1 }
  let s := { s with keo := { s.keo with sig := [] } }
  match s.outLoop k budget (s.taskOuts k) with
  | (false, s) => s.kHalt 1 k t.pc
  | (true, s) =>
    let (n, x) := s.handOver k
    let u := (s.ktask k).used + 2 + n
    if budget < u then s.kHalt 1 k t.pc
    else
      let s := s.setHand x
      let t := s.ktask k
      let last := Nat.min u (2 ^ 32 - 1)
      let s := s.setKtask k { t with st := 0, used := u, dirty := [], lastCyc := last, maxCyc := Nat.max t.maxCyc last }
      let s := ({ s with keo := { s.keo with cur := none } } : State).keoTrace 1 k
      match s.kBest with
      | none => s
      | some b => s.kSwitch b 2

/-! ### Releases (15 R375 to R377) -/

/-- An END that the running task executes in the cycle of its own release is taken first (15 R377): it waits in the queue. -/
def State.endFirst (s : State) (k : Nat) : State :=
  if s.kReady = some k ∧ s.pending.contains .kEnd ∧ s.kFetch k = some .kEnd then s.kEnd k else s

/-- A task is released with the values of its latch: one that has not ended overruns its deadline. Registers and call stack stay as they are. -/
def State.kRelease (s : State) (k relT : Nat) (caps : List LatchCap) : State :=
  let t := s.ktask k
  let n := satAdd 32 t.relCnt 1
  if t.st ≠ 0 then (s.setKtask k { t with relCnt := n }).kHalt 2 k t.pc
  else match imgTask s.keo.run k with
    | none => s
    | some e =>
      let ins := caps.length
      let s := (s.setKtask k { t with st := 1, relCnt := n, relT := relT, used := ins, pc := tkEntry e, ib := tkIb e }).keoTrace 0 k
      let s := s.kLatch k caps
      if tkBudget e < ins then s.kHalt 1 k (tkEntry e) else s.kPick

end Sys2Proof.Machine
end

