-- ==== Sys2Proof/Machine/KeoreIns.lean ====
section
/-! DEFINITION. The meanings of the Keore engine's instructions (15 R391, R392): bit, memory, arithmetic, control. A row of the table
is an instruction the running task executes; it has its effect when it is the one at the task's program counter (log 11). -/
namespace Sys2Proof.Machine
open Sys2Proof

/-! ### Bits -/

/-- The bit instructions read one byte and a bit of it. -/
def State.kBitOp (s : State) (i : Instr) (base byte bit_ : Nat) (f : State → Nat → KTask → Nat → Bool → State) : Out :=
  s.kRun i (fun _ => 1) fun s k t => s.kAccess k t base byte 1 1 fun s a => f s k t a (bit (byteAt (s.iread a 1) 0) bit_)

/-- A bit instruction with a result in Wd. -/
def State.kBitTo (s : State) (i : Instr) (d base byte bit_ : Nat) (f : Bool → Bool → Bool) : Out :=
  s.kBitOp i base byte bit_ fun s k t _ b => s.kNext k (t.setVal d (boolVal (f ((t.reg d).toNat % 2 == 1) b)))

/-- NOP (15 R391). -/
def execKNop (s : State) : Out := s.kReg .kNop fun t => t

/-- LDB: Wd = bit. -/
def execKLdb (d base byte bit : Nat) (s : State) : Out := s.kBitTo (.kLdb d base byte bit) d base byte bit fun _ b => b

/-- STB: bit = Wd[0]. -/
def execKStb (d base byte bit : Nat) (s : State) : Out :=
  s.kBitOp (.kStb d base byte bit) base byte bit fun s k t a _ =>
    let s := s.kStoreBit k a bit ((t.reg d).toNat % 2 == 1); s.kNext k { t with dirty := (s.ktask k).dirty }

/-- SETB: bit = 1 when Wd[0] is 1. -/
def execKSetb (d base byte bit : Nat) (s : State) : Out :=
  s.kBitOp (.kSetb d base byte bit) base byte bit fun s k t a _ =>
    let s := if (t.reg d).toNat % 2 = 1 then s.kStoreBit k a bit true else s; s.kNext k { t with dirty := (s.ktask k).dirty }

/-- RSTB: bit = 0 when Wd[0] is 1. -/
def execKRstb (d base byte bit : Nat) (s : State) : Out :=
  s.kBitOp (.kRstb d base byte bit) base byte bit fun s k t a _ =>
    let s := if (t.reg d).toNat % 2 = 1 then s.kStoreBit k a bit false else s; s.kNext k { t with dirty := (s.ktask k).dirty }

/-- ANDB: Wd = Wd[0] AND bit. -/
def execKAndb (d base byte bit : Nat) (s : State) : Out := s.kBitTo (.kAndb d base byte bit) d base byte bit fun w b => w && b

/-- ORB: Wd = Wd[0] OR bit. -/
def execKOrb (d base byte bit : Nat) (s : State) : Out := s.kBitTo (.kOrb d base byte bit) d base byte bit fun w b => w || b

/-- XORB: Wd = Wd[0] XOR bit. -/
def execKXorb (d base byte bit : Nat) (s : State) : Out := s.kBitTo (.kXorb d base byte bit) d base byte bit fun w b => w != b

/-- ANDNB: Wd = Wd[0] AND NOT bit. -/
def execKAndnb (d base byte bit : Nat) (s : State) : Out := s.kBitTo (.kAndnb d base byte bit) d base byte bit fun w b => w && !b

/-! ### Loads and stores -/

/-- The value of type `t` in memory bytes, as a register holds it (15 R389). -/
def loadTy (t : Nat) (bs : List Byte) : W64 := heldAs t (BitVec.ofNat 64 (le bs 0 (tySize t)))

/-- LD and LDX. -/
def State.kLoad (s : State) (i : Instr) (d base t : Nat) (off : KTask → Nat) : Out :=
  s.kRun i (fun _ => 1) fun s k w => s.kAccess k w base (off w) (tySize t) (tySize t) fun s a =>
    s.kNext k (w.setReg d (loadTy t (s.iread a (tySize t))))

/-- ST and STX. -/
def State.kPut (s : State) (i : Instr) (d base t : Nat) (off : KTask → Nat) : Out :=
  s.kRun i (fun _ => 1) fun s k w => s.kAccess k w base (off w) (tySize t) (tySize t) fun s a =>
    let s := s.kStore k a (toLE (tySize t) (w.reg d).toNat); s.kNext k { w with dirty := (s.ktask k).dirty }

/-- OFF plus bits [31:0] of Wx (15 R390); the sum does not wrap (log 28). -/
def xOff (x off : Nat) (w : KTask) : Nat := off + (w.reg x).toNat % 4294967296

/-- LD.t (15 R391). -/
def execKLd (d base off t : Nat) (s : State) : Out := s.kLoad (.kLd d base off t) d base t fun _ => off

/-- ST.t. -/
def execKSt (d base off t : Nat) (s : State) : Out := s.kPut (.kSt d base off t) d base t fun _ => off

/-- LDX.t. -/
def execKLdx (d base x off t : Nat) (s : State) : Out := s.kLoad (.kLdx d base x off t) d base t (xOff x off)

/-- STX.t. -/
def execKStx (d base x off t : Nat) (s : State) : Out := s.kPut (.kStx d base x off t) d base t (xOff x off)

/-- LEA: Wd = base + OFF, as a byte offset in instance SRAM. -/
def execKLea (d base off : Nat) (s : State) : Out :=
  s.kRun (.kLea d base off) (fun _ => 1) fun s k t => s.kNext k (t.setReg d (BitVec.ofNat 64 (kAddr s.keo.run t base off)))

/-! ### Arithmetic -/

/-- Wd from Wa and Wb. -/
def State.kBin (s : State) (i : Instr) (d a b : Nat) (f : W64 → W64 → KVal) : Out :=
  s.kReg i fun t => t.setVal d (f (t.reg a) (t.reg b))

/-- Wd from Wa. -/
def State.kUn (s : State) (i : Instr) (d a : Nat) (f : W64 → KVal) : Out := s.kReg i fun t => t.setVal d (f (t.reg a))

/-- ADD. -/
def execKAdd (d a b t : Nat) (s : State) : Out := s.kBin (.kAdd d a b t) d a b (addOf t)

/-- SUB. -/
def execKSub (d a b t : Nat) (s : State) : Out := s.kBin (.kSub d a b t) d a b (subOf t)

/-- MUL: for TIME, Wb is a signed integer. -/
def execKMul (d a b t : Nat) (s : State) : Out := s.kBin (.kMul d a b t) d a b (mulOf t)

/-- DIV. -/
def execKDiv (d a b t : Nat) (s : State) : Out := s.kBin (.kDiv d a b t) d a b (divOf t)

/-- MOD: the sign of Wa. -/
def execKMod (d a b t : Nat) (s : State) : Out := s.kBin (.kMod d a b t) d a b (modOf t)

/-- MIN. -/
def execKMin (d a b t : Nat) (s : State) : Out := s.kFree (.kMin d a b t) fun w v => w.setVal d (pickOf false t v (w.reg a) (w.reg b))

/-- MAX. -/
def execKMax (d a b t : Nat) (s : State) : Out := s.kFree (.kMax d a b t) fun w v => w.setVal d (pickOf true t v (w.reg a) (w.reg b))

/-- NEG. -/
def execKNeg (d a t : Nat) (s : State) : Out := s.kUn (.kNeg d a t) d a (negOf t)

/-- ABS. -/
def execKAbs (d a t : Nat) (s : State) : Out := s.kUn (.kAbs d a t) d a (absOf t)

/-- AND. -/
def execKAnd (d a b t : Nat) (s : State) : Out := s.kBin (.kAnd d a b t) d a b (bitsOf Nat.land t)

/-- OR. -/
def execKOr (d a b t : Nat) (s : State) : Out := s.kBin (.kOr d a b t) d a b (bitsOf Nat.lor t)

/-- XOR. -/
def execKXor (d a b t : Nat) (s : State) : Out := s.kBin (.kXor d a b t) d a b (bitsOf Nat.xor t)

/-- NOT. -/
def execKNot (d a t : Nat) (s : State) : Out := s.kUn (.kNot d a t) d a (notOf t)

/-- SHL: by Wb modulo the width. -/
def execKShl (d a b t : Nat) (s : State) : Out := s.kBin (.kShl d a b t) d a b (shlOf t)

/-- SHR. -/
def execKShr (d a b t : Nat) (s : State) : Out := s.kBin (.kShr d a b t) d a b (shrOf t)

/-- ROL. -/
def execKRol (d a b t : Nat) (s : State) : Out := s.kBin (.kRol d a b t) d a b (rolOf t)

/-- ROR. -/
def execKRor (d a b t : Nat) (s : State) : Out := s.kBin (.kRor d a b t) d a b (rorOf t)

/-- A comparison: Wd = 1 when Wa relates to Wb. A NaN relates to nothing but as unequal. -/
def State.kCmp (s : State) (i : Instr) (d a b t : Nat) (f : Option Ordering → Bool) : Out :=
  s.kBin i d a b fun x y => boolVal (f (cmpOf t x y))

/-- CEQ. -/
def execKCeq (d a b t : Nat) (s : State) : Out := s.kCmp (.kCeq d a b t) d a b t fun o => o == some .eq

/-- CNE. -/
def execKCne (d a b t : Nat) (s : State) : Out := s.kCmp (.kCne d a b t) d a b t fun o => o != some .eq

/-- CLT. -/
def execKClt (d a b t : Nat) (s : State) : Out := s.kCmp (.kClt d a b t) d a b t fun o => o == some .lt

/-- CLE. -/
def execKCle (d a b t : Nat) (s : State) : Out := s.kCmp (.kCle d a b t) d a b t fun o => o == some .lt || o == some .eq

/-- CGT. -/
def execKCgt (d a b t : Nat) (s : State) : Out := s.kCmp (.kCgt d a b t) d a b t fun o => o == some .gt

/-- CGE. -/
def execKCge (d a b t : Nat) (s : State) : Out := s.kCmp (.kCge d a b t) d a b t fun o => o == some .gt || o == some .eq

/-- SEL: Wd = Wb when Wd[0] is 1, else Wa. -/
def execKSel (d a b t : Nat) (s : State) : Out :=
  s.kReg (.kSel d a b t) fun w => w.setVal d (selOf t (w.reg d) (w.reg a) (w.reg b))

/-- LIMIT: Wd = MIN(MAX(Wd, Wa), Wb). -/
def execKLimit (d a b t : Nat) (s : State) : Out :=
  s.kFree (.kLimit d a b t) fun w v => w.setVal d (limitOf t v (w.reg d) (w.reg a) (w.reg b))

/-- CVT: Wa converted from type f to t. -/
def execKCvt (d a f t : Nat) (s : State) : Out := s.kFree (.kCvt d a f t) fun w v => w.setVal d (cvtOf f t v (w.reg a))

/-- SQRT. -/
def execKSqrt (d a t : Nat) (s : State) : Out := s.kUn (.kSqrt d a t) d a fun x => realVal (sqrtF (realOf x))

/-- TRUNC. -/
def execKTrunc (d a t : Nat) (s : State) : Out := s.kUn (.kTrunc d a t) d a (truncOf t)

/-- MOV: Wd = Wa. -/
def execKMov (d a t : Nat) (s : State) : Out := s.kReg (.kMov d a t) fun w => w.setReg d (w.reg a)

/-- LDI: Wd = IMM, sign-extended. -/
def execKLdi (d imm : Nat) (s : State) : Out := s.kReg (.kLdi d imm) fun w => w.setReg d (BitVec.ofInt 64 (Machine.signed 20 imm))

/-- LUI: Wd[31:12] = IMM, Wd[11:0] kept, Wd[63:32] copies of Wd[31]. -/
def execKLui (d imm : Nat) (s : State) : Out :=
  s.kReg (.kLui d imm) fun w => w.setReg d (BitVec.ofInt 64 (Machine.signed 32 (imm * 4096 + (w.reg d).toNat % 4096)))

/-- ADDI: Wd + IMM sign-extended, 64-bit; OVF where the sum wraps. -/
def execKAddi (d imm : Nat) (s : State) : Out :=
  s.kReg (.kAddi d imm) fun w => w.setVal d (wrapTy 4 (rdTy 4 (w.reg d) + Machine.signed 20 imm))

/-- BFX: the field of Wa at POS and LEN, zero-extended; `len` is LEN - 1. -/
def execKBfx (d a pos len : Nat) (s : State) : Out :=
  s.kReg (.kBfx d a pos len) fun w => w.setReg d (BitVec.ofNat 64 ((w.reg a).toNat / 2 ^ pos % 2 ^ (len + 1)))

/-- BFI: bits POS to POS + LEN - 1 of Wd replaced from Wa. -/
def execKBfi (d a pos len : Nat) (s : State) : Out :=
  s.kReg (.kBfi d a pos len) fun w =>
    let old := (w.reg d).toNat
    w.setReg d (BitVec.ofNat 64 (old % 2 ^ pos + (w.reg a).toNat % 2 ^ (len + 1) * 2 ^ pos + old / 2 ^ (pos + len + 1) * 2 ^ (pos + len + 1)))

/-! ### Control -/

/-- The word a jump at `pc` goes to (15 R390). A target before word 0 is outside the code. -/
def jumpTo (pc disp : Nat) (p : List Byte) : Nat :=
  let v := (pc : Int) + Machine.signed 20 disp
  if v < 0 then imgCodeLen p else v.toNat

/-- A jump when `c` holds: 2 cycles taken, else 1. -/
def State.kJump (s : State) (i : Instr) (disp : Nat) (c : KTask → Bool) : Out :=
  s.kRun i (fun t => if c t then 2 else 1) fun s k t => s.kGo k t (if c t then jumpTo t.pc disp s.keo.run else t.pc + 1)

/-- JMP. -/
def execKJmp (disp : Nat) (s : State) : Out := s.kJump (.kJmp disp) disp fun _ => true

/-- JT: jump when Wc[0] is 1. -/
def execKJt (c disp : Nat) (s : State) : Out := s.kJump (.kJt c disp) disp fun t => (t.reg c).toNat % 2 == 1

/-- JF: jump when Wc[0] is 0. -/
def execKJf (c disp : Nat) (s : State) : Out := s.kJump (.kJf c disp) disp fun t => (t.reg c).toNat % 2 == 0

/-- CALL (15 R391): pushes the return index and IB, IB = Wc, and jumps. A full stack traps, and so does a Wc outside IA. -/
def execKCall (c disp : Nat) (s : State) : Out :=
  s.kRun (.kCall c disp) (fun _ => 2) fun s k t =>
    let p := s.keo.run
    let b := (t.reg c).toNat
    if 16 ≤ t.stack.length then s.kHalt 6 k t.pc
    else if b < areaBase p 3 ∨ areaBase p 3 + imgIa p ≤ b then s.kHalt 4 k t.pc
    else s.kGo k { t with stack := (t.pc + 1, t.ib) :: t.stack, ib := b } (jumpTo t.pc disp p)

/-- RET: pops; on an empty stack it traps. -/
def execKRet (s : State) : Out :=
  s.kRun .kRet (fun _ => 2) fun s k t =>
    match t.stack with
    | [] => s.kHalt 6 k t.pc
    | (pc, ib) :: r => s.kGo k { t with stack := r, ib := ib } pc

/-- NOW: Wd = release instant of the task. -/
def execKNow (d : Nat) (s : State) : Out := s.kReg (.kNow d) fun t => t.setReg d (BitVec.ofNat 64 t.relT)

/-- NOWR: Wd = device time now. -/
def execKNowr (d : Nat) (s : State) : Out :=
  s.kRun (.kNowr d) (fun _ => 1) fun s k t => s.kNext k (t.setReg d (BitVec.ofNat 64 s.now))

/-- END (15 R376): the output phase and the handover follow. -/
def execKEnd (s : State) : Out :=
  .next (match s.kReady with
    | none => s
    | some k =>
      match s.kFetch k with
      | none => s.kHalt 3 k (s.ktask k).pc
      | some j => if j ≠ .kEnd then s else s.kEnd k)

end Sys2Proof.Machine
end

