-- ==== Sys2Proof/Machine/KeoreBlk.lean ====
section
/-! DEFINITION. The Keore engine's standard blocks (15 R393). -/
namespace Sys2Proof.Machine
open Sys2Proof

/-- A block call: its instance data of `n` bytes at BASE plus OFF, 8-byte aligned; `f` has the offset of the data. -/
def State.kBlock (s : State) (i : Instr) (base off n : Nat) (f : State → Nat → KTask → Nat → State) : Out :=
  s.kRun i (fun _ => kCost i) fun s k t => s.kAccess k t base off n 8 fun s a => f s k t a

/-- The block is done: its registers are written and the task goes on; its stores stand in the state already. -/
def State.kBlockEnd (s : State) (k : Nat) (t : KTask) : State := s.kNext k { t with dirty := (s.ktask k).dirty }

/-- BOOL of a register. -/
def KTask.flag (t : KTask) (n : Nat) : Bool := (t.reg n).toNat % 2 == 1

/-- A bit of instance data. -/
def State.ibit (s : State) (a i : Nat) : Bool := bit (byteAt (s.iread a 1) 0) i

/-! ### Timers -/

/-- What a timer call leaves: START, RUN, Q, ET, and OVF of its time difference. -/
structure TimerRes where
  start : Nat
  run : Bool
  q : Bool
  et : KVal
deriving DecidableEq, Repr

/-- MIN(now - START, PT). -/
def elapsed (now start : Nat) (pt : Int) : KVal :=
  let d := wrapTy 4 ((now : Int) - Machine.signed 64 start)
  if rdTy 4 d.v < pt then d else { d with v := holdTy 4 pt }

/-- TON. -/
def tonStep (inp prev run : Bool) (start now : Nat) (pt : Int) : TimerRes :=
  let start := if inp && !prev then now else start
  let et := elapsed now start pt
  if inp then { start := start, run := run, q := decide (pt ≤ rdTy 4 et.v), et := et }
  else { start := start, run := run, q := false, et := { v := 0 } }

/-- TOF. With IN 0 and RUN clear the spec states no ET: `free` is it, and Q keeps (log 28). -/
def tofStep (inp prev run q : Bool) (start now : Nat) (pt : Int) (free : Nat) : TimerRes :=
  let fall := prev && !inp
  let start := if fall then now else start
  let et := elapsed now start pt
  if inp then { start := start, run := false, q := true, et := { v := 0 } }
  else if run || fall then { start := start, run := decide (rdTy 4 et.v < pt), q := decide (rdTy 4 et.v < pt), et := et }
  else { start := start, run := false, q := q, et := { v := BitVec.ofNat 64 free } }

/-- TP. -/
def tpStep (inp prev run q : Bool) (start now : Nat) (pt : Int) : TimerRes :=
  let rise := inp && !prev && !run
  let start := if rise then now else start
  let et := elapsed now start pt
  let full := decide (pt ≤ rdTy 4 et.v)
  if run || rise then
    if full && !inp then { start := start, run := false, q := false, et := { v := 0 } }
    else { start := start, run := true, q := (q || rise) && !full, et := et }
  else { start := start, run := false, q := q, et := { v := 0 } }

/-- A timer block. -/
def State.kTimer (s : State) (i : Instr) (g base off : Nat) (f : Bool → Bool → Bool → Bool → Nat → Nat → Int → Nat → TimerRes) : Out :=
  s.kBlock i base off 16 fun s k t a =>
    let (free, s) := s.draw
    let inp := t.flag g
    let r := f inp (s.ibit (a + 8) 0) (s.ibit (a + 8) 1) (s.ibit (a + 8) 2) (le (s.iread a 8) 0 8) t.relT (rdTy 4 (t.reg (g + 1))) free
    let s := s.kStore k a (toLE 8 r.start)
    let s := ((s.kStoreBit k (a + 8) 0 inp).kStoreBit k (a + 8) 1 r.run).kStoreBit k (a + 8) 2 r.q
    s.kBlockEnd k ((t.setVal g (boolVal r.q)).setVal (g + 1) r.et)

/-- TON (15 R393). -/
def execKTon (g base off : Nat) (s : State) : Out :=
  s.kTimer (.kTon g base off) g base off fun inp prev run _ start now pt _ => tonStep inp prev run start now pt

/-- TOF. -/
def execKTof (g base off : Nat) (s : State) : Out :=
  s.kTimer (.kTof g base off) g base off fun inp prev run q start now pt free => tofStep inp prev run q start now pt free

/-- TP. -/
def execKTp (g base off : Nat) (s : State) : Out :=
  s.kTimer (.kTp g base off) g base off fun inp prev run q start now pt _ => tpStep inp prev run q start now pt

/-! ### Edge detectors, counters, bistables -/

/-- An edge detector. -/
def State.kEdge (s : State) (i : Instr) (g base off : Nat) (f : Bool → Bool → Bool) : Out :=
  s.kBlock i base off 4 fun s k t a =>
    let clk := t.flag g
    let q := f clk (s.ibit a 0)
    (s.kStoreBit k a 0 clk).kBlockEnd k (t.setVal g (boolVal q))

/-- RTRIG: Q = CLK AND NOT PREV. -/
def execKRtrig (g base off : Nat) (s : State) : Out := s.kEdge (.kRtrig g base off) g base off fun c p => c && !p

/-- FTRIG: Q = NOT CLK AND PREV. -/
def execKFtrig (g base off : Nat) (s : State) : Out := s.kEdge (.kFtrig g base off) g base off fun c p => !c && p

/-- A counter: `f` gives CV from the edge, the second input, CV and PV; `q` gives Q from CV and PV. -/
def State.kCount (s : State) (i : Instr) (g base off : Nat) (f : Bool → Bool → Int → Int → KVal) (q : Int → Int → Bool) : Out :=
  s.kBlock i base off 8 fun s k t a =>
    let c := t.flag g
    let pv := rdTy 2 (t.reg (g + 2))
    let r := f (c && !s.ibit (a + 4) 0) (t.flag (g + 1)) (Machine.signed 32 (le (s.iread a 4) 0 4)) pv
    let s := (s.kStore k a (toLE 4 r.v.toNat)).kStoreBit k (a + 4) 0 c
    s.kBlockEnd k ((t.setVal g (boolVal (q (rdTy 2 r.v) pv))).setVal (g + 1) r)

/-- CTU: R takes precedence; CV saturates. -/
def execKCtu (g base off : Nat) (s : State) : Out :=
  s.kCount (.kCtu g base off) g base off
    (fun edge r cv _ => if r then satTy 2 0 else satTy 2 (if edge then cv + 1 else cv)) fun cv pv => decide (pv ≤ cv)

/-- CTD: LD takes precedence. -/
def execKCtd (g base off : Nat) (s : State) : Out :=
  s.kCount (.kCtd g base off) g base off
    (fun edge ld cv pv => if ld then satTy 2 pv else satTy 2 (if edge then cv - 1 else cv)) fun cv _ => decide (cv ≤ 0)

/-- A bistable. -/
def State.kBistable (s : State) (i : Instr) (g base off : Nat) (f : Bool → Bool → Bool → Bool) : Out :=
  s.kBlock i base off 4 fun s k t a =>
    let q := f (t.flag g) (t.flag (g + 1)) (s.ibit a 0)
    (s.kStoreBit k a 0 q).kBlockEnd k (t.setVal g (boolVal q))

/-- SR: Q1 = S1 OR (Q1 AND NOT R). -/
def execKSr (g base off : Nat) (s : State) : Out := s.kBistable (.kSr g base off) g base off fun s1 r q => s1 || (q && !r)

/-- RS: Q1 = NOT R1 AND (S OR Q1). -/
def execKRs (g base off : Nat) (s : State) : Out := s.kBistable (.kRs g base off) g base off fun s1 r q => !r && (s1 || q)

/-! ### RAMP and PID, each step a REAL32 operation (log 30) -/

/-- A REAL32 value on its way, with INV so far. -/
abbrev FV := Nat × Bool

/-- An operation on two of them. -/
def fop (f : Nat → Nat → Nat × Bool) (a b : FV) : FV := let r := f a.1 b.1; (r.1, a.2 || b.2 || r.2)

/-- (now - tlast) / 1e9, rounded once. -/
def secondsF (now last : Nat) : FV :=
  let d := rdTy 4 (holdTy 4 ((now : Int) - Machine.signed 64 last))
  (if d = 0 then 0 else quotF (decide (d < 0)) d.natAbs 0 1000000000 0, false)

/-- a < b of REAL32. -/
def ltF (a b : FV) : Bool := cmpF a.1 b.1 == some .lt

/-- The value of a ramp: target, rise, fall, previous out, dt, whether it restarts, a free number. -/
def rampOut (target rise fall out dt : FV) (restart : Bool) (free : Nat) : FV :=
  if restart then target
  else if ltF out target then fop (pickF false · · free) target (fop addF out (fop mulF rise dt))
  else fop (pickF true · · free) target (fop subF out (fop mulF fall dt))

/-- RAMP (15 R393). -/
def execKRamp (g base off : Nat) (s : State) : Out :=
  s.kBlock (.kRamp g base off) base off 16 fun s k t a =>
    let (free, s) := s.draw
    let r := fun (n : Nat) => ((realOf (t.reg (g + n)), false) : FV)
    let first := s.ibit (a + 4) 0
    let dt := if first then secondsF t.relT (le (s.iread (a + 8) 8) 0 8) else (0, false)
    let out := rampOut (r 0) (r 1) (r 2) (le (s.iread a 4) 0 4, false) dt (t.flag (g + 3) || !first) free
    let busy := cmpF out.1 (r 0).1 != some .eq
    let s := ((s.kStore k a (toLE 4 out.1)).kStoreBit k (a + 4) 0 true).kStore k (a + 8) (toLE 8 t.relT)
    s.kBlockEnd k ((t.setVal g (realVal out)).setVal (g + 3) (boolVal busy))

/-- What a PID call leaves: Y, I, E. -/
structure PidRes where
  y : FV
  i : FV
  e : FV
deriving DecidableEq, Repr

/-- LIMIT of REAL32. -/
def limitF (u lo hi : FV) (free : Nat) : FV := fop (pickF false · · (free / 2)) (fop (pickF true · · free) u lo) hi

/-- The PID of 15 R393: KP, TI, TD, YMIN, YMAX, I, EPREV, dt. -/
def pidStep (sp pv yman kp ti td lo hi i0 eprev dt : FV) (man : Bool) (free : Nat) : PidRes :=
  let zero : FV := (0, false)
  let e := fop subF sp pv
  if man then
    let y := limitF yman lo hi free
    { y := y, i := fop subF y (fop mulF kp e), e := e }
  else
    let i := if ltF zero ti && ltF zero dt then fop addF i0 (fop mulF (fop divF (fop mulF kp dt) ti) e) else i0
    let d := if ltF zero td && ltF zero dt then fop divF (fop mulF (fop mulF kp td) (fop subF e eprev)) dt else zero
    let u := fop addF (fop addF (fop mulF kp e) i) d
    let y := limitF u lo hi free
    let i := if cmpF u.1 y.1 != some .eq && ltF zero ti then fop subF (fop subF y (fop mulF kp e)) d else i
    { y := y, i := i, e := e }

/-- PID (15 R393). -/
def execKPid (g base off : Nat) (s : State) : Out :=
  s.kBlock (.kPid g base off) base off 40 fun s k t a =>
    let (free, s) := s.draw
    let r := fun (n : Nat) => ((realOf (t.reg (g + n)), false) : FV)
    let m := fun (o : Nat) => ((le (s.iread (a + o) 4) 0 4, false) : FV)
    let first := s.ibit (a + 36) 0
    let dt := if first then secondsF t.relT (le (s.iread (a + 28) 8) 0 8) else (0, false)
    let p := pidStep (r 0) (r 1) (r 3) (m 0) (m 4) (m 8) (m 12) (m 16) (m 20) (m 24) dt (t.flag (g + 2)) free
    let s := (s.kStore k (a + 20) (toLE 4 p.i.1)).kStore k (a + 24) (toLE 4 p.e.1)
    let s := (s.kStore k (a + 28) (toLE 8 t.relT)).kStoreBit k (a + 36) 0 true
    s.kBlockEnd k (t.setVal g { v := BitVec.ofNat 64 p.y.1, inv := p.y.2 || p.i.2 || p.e.2 })

end Sys2Proof.Machine
end

