-- ==== Sys2Proof/Machine/Stage.lean ====
section
/-! DEFINITION. Software stages: the header and its eight checks (03 R65, R66), and the check of a Keore payload (15 R374; 16 R401). -/
namespace Sys2Proof.Machine
open Sys2Proof

/-- Bytes of a stage header (03 R65). -/
def hdrLen : Nat := 5392

/-- Fields of a stage header. -/
def stType (r : List Byte) : Nat := le r 6 2
def stLen (r : List Byte) : Nat := le r 8 4
def stSvn (r : List Byte) : Nat := le r 28 4
def stSigner (r : List Byte) : Nat := byteAt r 32
def stDigest (r : List Byte) : List Byte := slice r 64 64

/-- The payload behind a header. -/
def stPayload (r : List Byte) : List Byte := slice r hdrLen (stLen r)

/-- What a stage adds to its measurement register (03 R68). -/
def stMeasure (r : List Byte) : List Byte := shake256 (r.take 2080) 64

/-- Bit of LCMASK of a life-cycle state (03 R65); RETIRED has none. -/
def lcBit (lc : Nat) : Nat := if lc = 0 then 4 else lc - 1

/-- Step 1: MAGIC, HVER, TYPE, the reserved fields, and LEN within the data and the stage's area of `area` bytes. -/
def stForm (r : List Byte) (typ area : Nat) : Bool :=
  decide (hdrLen ≤ r.length) && le r 0 4 == 0x48535A56 && le r 4 2 == 1 && stType r == typ && allZero (slice r 12 4) &&
  decide (byteAt r 33 < 32) && allZero (slice r 34 2) && allZero (slice r 52 12) && allZero (slice r 5389 3) &&
  decide (hdrLen + stLen r ≤ r.length) && decide (hdrLen + stLen r ≤ area)

/-- Step 2: SIGNER is allowed for TYPE, and its key is fused and not revoked (03 R67, R76). -/
def State.stSignerOk (s : State) (r : List Byte) (typ : Nat) : Bool :=
  let k := stSigner r
  if k = 0 then typ == 1 || typ == 7 else decide (k ≤ 4) && typ != 1 && s.ownKeyOk k

/-- The fused key hash of a signer. -/
def State.keyHashOf (s : State) (k : Nat) : List Byte := if k = 0 then s.sys.thHash else look (fun _ => []) s.sys.keyHash k

/-- Step 4: the life-cycle state runs the stage (03 R65, R73). -/
def State.stLcOk (s : State) (r : List Byte) (typ : Nat) : Bool :=
  let lc := s.sys.lcCur
  decide (lc < 5) && bit (byteAt r 33) (lcBit lc) && (lc != 0 || typ == 1 || typ == 7)

/-- The step of 03 R66 at which a stage is rejected; none when it is accepted. `loaded` is the payload as it stands in its
destination. -/
def State.stageFails (s : State) (r loaded : List Byte) (typ area : Nat) : Option Nat :=
  let pk := slice r 128 1952
  if !stForm r typ area then some 1
  else if !s.stSignerOk r typ then some 2
  else if (shake256 pk 32).take 32 ≠ s.keyHashOf (stSigner r) then some 3
  else if !s.stLcOk r typ then some 4
  else if !allZero (slice r 36 16) ∧ slice r 36 16 ≠ s.sys.uid then some 5
  else if stSvn r < look (fun _ => 0) s.sys.svn typ then some 6
  else if !dsaVerify pk (pureMsg [] (r.take 2080)) (slice r 2080 3309) then some 7
  else if shake256 loaded 64 ≠ stDigest r then some 8
  else none

/-- BAD_PARAM 0x14 to 0x1B, by the step at which a stage is rejected (05 R115). -/
def stageChk (f : Option Nat) : Chk := bp f.isSome (0x13 + f.getD 1)

/-- The stage accepted in place `slot` (copy, bank or pair) of a TYPE is noted with its SVN (03 R76). -/
def State.acceptStage (s : State) (slot : Nat) (r : List Byte) : State :=
  { s with sys := { s.sys with accSvn := put s.sys.accSvn (stType r * 4 + slot) (stSvn r) } }

/-- What stands in that place is no accepted stage any more: it is being rewritten. -/
def State.unaccept (s : State) (typ slot : Nat) : State := { s with sys := { s.sys with accSvn := del s.sys.accSvn (typ * 4 + slot) } }

/-- The highest SVN that a currently accepted stage of a TYPE carries (03 R76). -/
def State.topSvn (s : State) (typ : Nat) : Nat :=
  ((List.range 4).map fun i => look (fun _ => 0) s.sys.accSvn (typ * 4 + i)).foldl Nat.max 0

/-! ### The copies of the MP patch and the BCR (03 R78, R79) -/

/-- Address and area of a copy of the MP patch (TYPE 1) or the BCR (TYPE 2) (03 R78). -/
def copyBase (typ c : Nat) : Nat := if typ = 1 then 0x22300000 + c * 0x20000 else 0x22340000 + c * 0x10000
def copyArea (typ : Nat) : Nat := if typ = 1 then 0x20000 else 0x10000

/-- The copy of a stage type that did not boot (03 R79). -/
def State.spareCopy (s : State) (typ : Nat) : Nat := if (if typ = 1 then s.sys.patch else s.sys.bcr) = 1 then 1 else 0

/-- SYS.UPDATE ends (03 R79): the copy is written, its payload hashed there, and the preference unit rewritten with PREFER 1.
`ok` is false when the write failed. -/
def State.updateEnd (s : State) (h : Hdr) (prefer : Nat) (r : List Byte) (ok : Bool) : State :=
  let typ := stType r
  let c := s.spareCopy typ
  let s := ((s.unaccept typ c).store (copyBase typ c) r).2
  if !ok || shake256 (memRead s.mem (copyBase typ c + hdrLen) (stLen r)) 64 != stDigest r then s.fail h .badParam 0x1B
  else
    let s := s.acceptStage c r
    let s := if prefer = 1 then (s.store (0x22380000 + (typ - 1)) [BitVec.ofNat 8 c]).2 else s
    s.ok h c

/-! ### The Keore payload (15 R374) -/

/-- No value stands twice. -/
def noDup (l : List Nat) : Bool := l.eraseDups.length == l.length

/-- Two ranges (start, length) do not overlap. -/
def apart (a b : Nat × Nat) : Bool := a.2 == 0 || b.2 == 0 || decide (a.1 + a.2 ≤ b.1) || decide (b.1 + b.2 ≤ a.1)

/-- Every range lies apart from those after it. -/
def allApart : List (Nat × Nat) → Bool
  | [] => true
  | a :: r => r.all (apart a) && allApart r

/-- The sections of a payload, the header among them: (start, bytes). -/
def imgSections (p : List Byte) : List (Nat × Nat) :=
  [(0, 128), (imgTaskOff p, 24 * imgNTasks p), (imgCodeOff p, imgCodeLen p), (imgInitOff p, imgInitLen p),
   (imgMapOff p, 16 * imgNMap p), (imgInstOff p, 16 * imgNInst p), (imgVarOff p, 16 * imgNVar p)]

/-- A size that is a multiple of 64. -/
def of64 (n : Nat) : Bool := n % 64 == 0

/-- Header check: every field of 15 R370 within its range; sections inside the payload, aligned and not overlapping. -/
def imgHeaderOk (p : List Byte) : Bool :=
  decide (128 ≤ p.length) && le p 0 4 == 0x524F454B && le p 4 2 == 1 && decide (byteAt p 6 < 16) &&
  decide (1 ≤ imgNTasks p) && decide (imgNTasks p ≤ 8) &&
  of64 (imgPi p) && decide (64 ≤ imgPi p) && decide (imgPi p ≤ 65536) && of64 (imgGl p) && of64 (imgRt p) &&
  decide (imgRt p ≤ 0x3F000) && of64 (imgIa p) && decide (imgPi p + imgGl p + imgRt p + imgIa p ≤ 0x100000) &&
  imgCodeLen p % 4 == 0 && decide (4 ≤ imgCodeLen p) && decide (imgCodeLen p ≤ 262144) &&
  decide (imgNMap p ≤ 4096) && decide (imgNInst p ≤ 8192) && decide (imgNVar p ≤ 16384) && allZero (slice p 66 62) &&
  (imgSections p).all (fun (q : Nat × Nat) => q.1 % 4 == 0 && decide (q.1 + q.2 ≤ p.length)) && allApart (imgSections p)

/-- Task check: every field of 15 R371 within its range, ENTRY inside the code, IBINIT inside IA. -/
def imgTaskOk (p t : List Byte) : Bool :=
  decide (byteAt t 0 < 8) && decide (tkMode t < 2) && allZero (slice t 2 2) && decide (250 ≤ tkPeriod t) &&
  decide (tkPeriod t ≤ 10000000) && (if tkMode t = 1 then tkOffset t == 0 else decide (tkOffset t < tkPeriod t)) &&
  decide (4 * tkEntry t < imgCodeLen p) && decide (1 ≤ tkBudget t) && decide (tkBudget t ≤ 400 * tkPeriod t) &&
  decide (areaBase p 3 ≤ tkIb t) && decide (tkIb t < areaBase p 3 + imgIa p)

/-- A fixed access through PB, GB or RB lies inside its area and is aligned; through IB it is checked when it runs. -/
def fixedOk (p : List Byte) (base off n align : Nat) : Bool :=
  base == 0 || (decide (off + n ≤ areaSize p (baseArea base)) && off % align == 0)

/-- A jump or call at word `i` has its target inside the code. -/
def targetOk (p : List Byte) (i disp : Nat) : Bool :=
  let t := (i : Int) + Machine.signed 20 disp
  decide (0 ≤ t) && decide (4 * t < imgCodeLen p)

/-- Code check of the instruction at word `i`. -/
def imgInsOk (p : List Byte) (i : Nat) : Instr → Bool
  | .kLdb _ b byte _ | .kStb _ b byte _ | .kSetb _ b byte _ | .kRstb _ b byte _ | .kAndb _ b byte _ | .kOrb _ b byte _
  | .kXorb _ b byte _ | .kAndnb _ b byte _ => fixedOk p b byte 1 1
  | .kLd _ b off t | .kSt _ b off t => fixedOk p b off (tySize t) (tySize t)
  | .kTon _ b off | .kTof _ b off | .kTp _ b off | .kRamp _ b off => fixedOk p b off 16 8
  | .kRtrig _ b off | .kFtrig _ b off | .kSr _ b off | .kRs _ b off => fixedOk p b off 4 8
  | .kCtu _ b off | .kCtd _ b off => fixedOk p b off 8 8
  | .kPid _ b off => fixedOk p b off 40 8
  | .kJmp d | .kJt _ d | .kJf _ d | .kCall _ d => targetOk p i d
  | _ => true

/-- Code check: every word decodes and its accesses and targets are allowed. -/
def imgCodeOk (p : List Byte) : Bool :=
  (List.range (imgCodeLen p / 4)).all fun i => match (imgWord p i).bind decodeWord with
    | some x => imgInsOk p i x
    | none => false

/-- The records of 15 R372 in `d`: (AREA, OFFSET, data); none where their structure fails. -/
def initRecords : Nat → List Byte → Option (List (Nat × Nat × List Byte))
  | _, [] => some []
  | 0, _ => none
  | n + 1, d =>
    let len := le d 8 4
    let k := 12 + (len + 3) / 4 * 4
    if d.length < 12 ∨ 3 < byteAt d 0 ∨ !allZero (slice d 1 3) ∨ d.length < k ∨ !allZero (slice d (12 + len) (k - 12 - len)) then none
    else (initRecords n (d.drop k)).map fun l => (byteAt d 0, le d 4 4, slice d 12 len) :: l

/-- The records of an image. -/
def imgRecords (p : List Byte) : Option (List (Nat × Nat × List Byte)) :=
  initRecords (imgInitLen p / 12 + 1) (slice p (imgInitOff p) (imgInitLen p))

/-- Initialisation check: every record lies inside its area. -/
def imgInitOk (p : List Byte) : Bool := match imgRecords p with
  | none => false
  | some l => l.all fun (q : Nat × Nat × List Byte) => decide (q.2.1 + q.2.2.length ≤ areaSize p q.1)

/-- Units of a kind (15 R379); none for an unknown kind. -/
def kindUnits (k : Nat) : Option Nat :=
  if k = 1 then some 48 else if k = 2 then some 24 else if k = 3 then some 4 else if k = 4 then some 16
  else if k = 5 ∨ k = 6 then some 2048 else if k = 7 ∨ k = 8 then some 40
  else if k = 0x10 then some 40 else if k = 0x11 then some 16 else if k = 0x12 ∨ k = 0x13 ∨ k = 0x14 then some 512 else none

/-- TYPE codes a kind allows (15 R379). -/
def kindTypes (k : Nat) : List Nat :=
  if k = 2 then [1] else if k = 3 ∨ k = 8 then [2] else if k = 5 ∨ k = 0x12 then [0, 1, 2, 3, 5, 6]
  else if k = 6 ∨ k = 0x10 then [5] else if k = 7 then [6] else [0]

/-- Bits of a type (15 R389). -/
def tyBits (t : Nat) : Nat := if t = 0 then 1 else 8 * tySize t

/-- PIOFF lies in PI and is aligned for TYPE (15 R378). -/
def pioffOk (p : List Byte) (t off : Nat) : Bool :=
  if t = 0 then decide (off / 8 < imgPi p) else off % tySize t == 0 && decide (off + tySize t ≤ imgPi p)

/-- SBIT, SLEN and TMO of a signal entry (15 R378, R382). -/
def signalOk (m : List Byte) : Bool :=
  let t := mpType m
  let n := mpSlen m % 64
  decide (mpSbit m < 512) && decide (1 ≤ n) && decide (n ≤ 32) && decide (n ≤ tyBits t) && (t != 3 || n == 32) && (mpKind m == 5 || mpTmo m == 0)

/-- One map entry is valid by 15 R378 and R379. -/
def mapEntryOk (p m : List Byte) : Bool :=
  let k := mpKind m
  let sig := k == 5 || k == 0x12
  (match kindUnits k with
   | some n => decide (mpUnit m < n)
   | none => false) &&
  (imgTask p (mpTask m)).isSome && (kindTypes k).contains (mpType m) &&
  (if k = 0x13 then decide (mpFlags m < 3) else mpFlags m == 0) && pioffOk p (mpType m) (mpPioff m) &&
  (mpVbit m == 0xFFFF || (decide (k < 0x10) && decide (mpVbit m / 8 < imgPi p))) && allZero (slice m 10 2) &&
  (if sig then signalOk m else mpSlen m == 0 && mpTmo m == 0 && (if k = 0x13 then decide (mpSbit m ≤ 64) else mpSbit m == 0))

/-- Two output entries do not collide (15 R374, R380). -/
def State.outsApart (s : State) (a b : List Byte) : Bool :=
  let k := mpKind a
  if k ≠ mpKind b ∨ k < 0x10 then true
  else if k = 0x10 then s.lead (mpUnit a) != s.lead (mpUnit b)
  else if mpUnit a ≠ mpUnit b then true
  else k == 0x12 && (sigPositions (mpSbit a) (mpSlen a)).all fun x => !(sigPositions (mpSbit b) (mpSlen b)).contains x

/-- The entries after one agree with it: outputs apart, and no signal of an object behind its send entry (15 R384). -/
def State.mapPairs (s : State) : List (List Byte) → Bool
  | [] => true
  | m :: r => r.all (fun x => s.outsApart m x && !(mpKind m == 0x13 && mpKind x == 0x12 && mpUnit x == mpUnit m)) && s.mapPairs r

/-- Instance and variable checks (15 R374; 16 R401). -/
def imgInstsOk (p : List Byte) : Bool :=
  (imgInsts p).all (fun i => decide (le i 8 4 + le i 12 4 ≤ imgIa p) && (retainKind (le i 4 4) == 0 || retainKind (le i 4 4) == le i 12 4)) &&
  noDup ((imgInsts p).map fun i => le i 0 4) && decide (imgRt p + 16 * (imgRetained p).length ≤ 0x3F000)
def imgVarsOk (p : List Byte) : Bool :=
  (imgVars p).all (fun v =>
    let t := byteAt v 4
    let n := areaSize p (byteAt v 5)
    decide (t < 7) && decide (byteAt v 5 < 4) && allZero (slice v 6 2) && allZero (slice v 12 4) &&
    (if t = 0 then decide (le v 8 4 / 8 < n) else decide (le v 8 4 + tySize t ≤ n))) &&
  noDup ((imgVars p).map fun v => le v 0 4)

/-- The whole payload check; a failure is BAD_PARAM 0x1C. -/
def State.imageOk (s : State) (p : List Byte) : Bool :=
  imgHeaderOk p && (imgTasks p).all (imgTaskOk p) && noDup ((imgTasks p).map fun t => byteAt t 0) && imgCodeOk p && imgInitOk p &&
  (imgMap p).all (mapEntryOk p) && s.mapPairs (imgMap p) && imgInstsOk p && imgVarsOk p

end Sys2Proof.Machine
end

