-- ==== Sys2Proof/Machine/KeoreCmd.lean ====
section
/-! DEFINITION. The Keore commands and the engine's own events: load, start, stop, task releases, on-line exchange, forcing and
retain passes (05 R124; 15 R367, R368, R375; 16 R399 to R417). -/
namespace Sys2Proof.Machine
open Sys2Proof

/-- Issuer T0+OWN of a KEORE command: the owner is the tag of the active image (05 R124). -/
def State.keoreOwn (s : State) (h : Hdr) : Chk := den (decide (h.ring ≠ 0 ∧ s.imgTag ≠ h.ring)) 0x01

/-- The verified payload of a bank; none where it holds none. -/
def State.bankImg (s : State) (b : Nat) : Option (List Byte) := look? s.keo.img b

/-- The stage header of a bank's image. -/
def State.bankHdr (s : State) (b : Nat) : List Byte := look (fun _ => []) s.keo.hdr b

/-- The payload a bank holds now, as copied into the code store. -/
def State.bankCopy (s : State) (b : Nat) : List Byte := memRead s.mem (bankAddr b + hdrLen) (stLen (s.bankHdr b))

/-- The copy matches the DIGEST of the bank's stage header (15 R367). -/
def State.copyMatches (s : State) (b : Nat) : Bool := (s.bankImg b).isSome && shake256 (s.bankCopy b) 64 == stDigest (s.bankHdr b)

/-- The channels an image maps as outputs, whole Buntings (15 R380). -/
def State.mapOuts (s : State) (p : List Byte) : List Nat :=
  (((imgMap p).filter fun m => mpKind m == 0x10).map fun m => s.members (mpUnit m)).flatten

/-- A payload becomes the active image. -/
def State.activate (s : State) (b : Nat) (p : List Byte) : State :=
  { s with keo := { s.keo with bank := b, run := p, outs := s.mapOuts p } }

/-! ### KEORE.LOAD (15 R368, R374) -/

/-- KEORE.LOAD (05 R124; 15 R368): the stage is checked, which needs the Signet engine (18 R465; log 64), then leave is asked for the
write. -/
def execKeoreLoad (h : Hdr) (addr len : Nat) (s : State) : Out :=
  fwCmd h s (s.withDesc h addr len [noEpoch h, den (decide (h.ring ≠ 0 ∧ s.keo.run ≠ [] ∧ s.imgTag ≠ h.ring)) 0x01] true fun r s =>
    let p := stPayload r
    s.guarded h
      [den (decide (h.ring ≠ 0 ∧ hdrLen + 6 < r.length ∧ byteAt r (hdrLen + 6) ≠ h.ring)) 0x01,
       stageChk (s.stageFails r p 3 0x100000), bp (!s.imageOk p) 0x1C, bst (decide (s.keo.x.st ≠ 0)) 0x10, s.gated 1]
      (s.requestOp h 3 300 (.keoreLoad h addr len) (r.take (hdrLen + stLen r))))

/-- KEORE.LOAD ends (15 R368; 16 R415): the bank is written and its payload hashed there; `ok` is false when it does not match. -/
def State.keoreLoadEnd (s : State) (h : Hdr) (r : List Byte) (ok : Bool) : State :=
  let b := 1 - s.keo.bank
  let s := ((s.unaccept 3 b).store (bankAddr b) r).2
  let p := stPayload r
  if !ok then s.fail h .badParam 0x1B
  else
    let k := s.keo
    let s := { s with keo := { k with img := put k.img b p, hdr := put k.hdr b (r.take hdrLen) } }
    let s := s.acceptStage b r
    let s := if k.st = 0 ∨ k.st = 3 then let s := s.activate b p; { s with keo := { s.keo with force := [] } } else s
    s.ok h b

/-! ### Starting (15 R367; 16 R404 to R406) -/

/-- Bytes of an area as the records initialise it (15 R372). -/
def initArea (p : List Byte) (a : Nat) : List Byte :=
  ((imgRecords p).getD []).foldl (fun d (q : Nat × Nat × List Byte) => if q.1 = a then setBytes d q.2.1 q.2.2 else d) (zeros (areaSize p a))

/-- The four areas one after the other. -/
def initData (p : List Byte) : List Byte := initArea p 0 ++ initArea p 1 ++ initArea p 2 ++ initArea p 3

/-- A warm start is allowed (16 R404); the copy it takes. -/
def State.warmCopy (s : State) (p : List Byte) : Option Nat :=
  s.newest.filter fun c => byteAt (s.commitRec c) 5 == payloadTag (some p) && slice (s.commitRec c) 16 8 == imgRhash p

/-- START of a timer moved by the time the module was away (16 R406), modulo 2^64. -/
def State.rebase (s : State) (c start : Nat) : Nat :=
  let r := s.commitRec c
  unsigned 64 ((start : Int) + ((s.now : Int) - le r 32 8) - 1000 * ((s.aocnt : Int) - le r 40 8))

/-- A retained instance restored from its slot (16 R406): an edge detector as it is, a timer rebased, or left to the records
when the session differs. -/
def State.restored (s : State) (c k : Nat) (slot old : List Byte) : List Byte :=
  if k = 4 then slot.take 4
  else if le (s.commitRec c) 48 4 = s.clk.aoSess then toLE 8 (s.rebase c (le slot 0 8)) ++ slot.drop 8
  else old

/-- The data of a warm start (16 R405). -/
def State.warmData (s : State) (p : List Byte) (c : Nat) : List Byte :=
  let d := setBytes (initData p) (areaBase p 2) (memRead s.mem (copyData c) (imgRt p))
  let l := imgRetained p
  (l.zip (List.range l.length)).foldl (fun d (q : List Byte × Nat) =>
    let a := areaBase p 3 + le q.1 8 4
    let k := retainKind (le q.1 4 4)
    setBytes d a (s.restored c k (memRead s.mem (copyData c + imgRt p + 16 * q.2) 16) (slice d a k))) d

/-- Retained commands of a copy (16 R399). -/
def State.copyCmds (s : State) (c : Nat) : List Nat := (List.range 40).map fun i => le (memRead s.mem (copyCtl c + 64 + 2 * i) 2) 0 2

/-- Retained data as instance SRAM holds them: the RT area and a slot for each retained instance (16 R399). -/
def State.retainedNow (s : State) (p : List Byte) : List Byte :=
  s.iread (areaBase p 2) (imgRt p) ++ ((imgRetained p).map fun i => fitTo 16 (s.iread (areaBase p 3 + le i 8 4) (retainKind (le i 4 4)))).flatten

/-- A force written into its variable. -/
def State.applyForce (s : State) (f : Force) : State :=
  let a := f.off s.keo.run
  if f.typ = 0 then s.iwrite a [setBit8 ((s.iread a 1).headD 0) (f.addr % 8) (f.value % 2 == 1)]
  else s.iwrite a (toLE (tySize f.typ) f.value)

/-- Every force applied again (16 R415). -/
def State.applyForces (s : State) : State := s.keo.force.foldl (fun s (q : Nat × Force) => s.applyForce q.2) s

/-- The epochs of every object and channel the map names (15 R386). -/
def State.recordEpochs (s : State) : State :=
  { s with keo := { s.keo with epochs := ((imgMap s.keo.run).filterMap s.entryEpoch).foldl (fun t (q : Nat × Nat) => put t q.1 q.2) [] } }

/-- A task at the end of a start: registers, stack, flags and counters zero (16 R405); `next` is the first release of a grid task. -/
def freshTask (t : List Byte) (next : KTask → Nat) : KTask :=
  if tkMode t = 1 then {}
  else
    let k : KTask := { per := tkPeriod t * 1000, off := tkOffset t * 1000 }
    { k with relNext := next k }

/-- Registers and call stack of a task of the same number, which an exchange keeps (16 R411). -/
def KTask.keepRegs (k old : KTask) : KTask := { k with w := old.w, stack := old.stack }

/-- The tasks of the active image. -/
def State.freshTasks (s : State) (next : KTask → Nat) : State :=
  { s with keo := { s.keo with task := (imgTasks s.keo.run).foldl (fun l t => put l (byteAt t 0) (freshTask t next)) [], cur := none } }

/-- The held output of a channel equals its retained command (09 R240). -/
def State.matchesHeld (s : State) (n cmd : Nat) : Option Act :=
  let c := s.chan (s.lead n)
  let on := c.heldOn && !(s.grp (chGroup (s.lead n))).uv
  let act := bits cmd 11 10
  if cmd < 32768 ∨ c.trip then none
  else if act = 0 ∧ !on then some .off
  else if act = 1 ∧ on ∧ c.held = .on then some .on
  else if act = 2 ∧ on ∧ c.held = .pwm ∧ c.duty = bits cmd 9 0 then some .pwm
  else none

/-- A held output is taken over as it is (09 R240); the times that count from the entry of its state start (09 R223, R229). -/
def State.readopt (s : State) (n : Nat) (a : Act) : State :=
  let s := s.modCh n fun c => { c with holds := [], orphaned := false, act := a, onCyc := s.cyc, offAt := s.cyc }
  match a with
  | .off => (s.goCh n .off fun c => { c with gridOk := false }).uvMove n
  | .on => s.goCh n .on
  | .pwm => s.goCh n .pwm

/-- A mapped channel held as an orphan is re-adopted or released (09 R239, R240); device safe state and other holds keep it. -/
def State.adopt (s : State) (warm : Bool) (cmds : List Nat) (m : List Byte) : State :=
  let n := s.lead (mpUnit m)
  let c := s.chan n
  if (c.st = .orphanHold ∧ !s.flt.safe ∧ !s.flt.latch) ∨ (c.st = .safeHold ∧ c.orphaned) then
    let left := c.holds.filter (· != .orphan)
    if !left.isEmpty then s.modCh n fun c => { c with holds := left, orphaned := false }
    else match (if warm then s.matchesHeld n ((cmds[mpUnit m]?).getD 0) else none) with
      | some a => s.readopt n a
      | none => s.leaveHold n
  else s

/-- The holds of 15 R395 end (15 R396). -/
def State.dropKeoreHolds (s : State) : State := (List.range 40).foldl (fun s n => s.unholdCh n (· == .keore)) s

/-- What a stop does (15 R367): the tasks are dropped, outputs keep the value last written, an exchange is cancelled. -/
def State.kStop (s : State) : State :=
  let s := s.cancelXchg
  let task := s.keo.task.map fun (q : Nat × KTask) => (q.1, { q.2 with st := 0, dirty := [] })
  { s with keo := { s.keo with st := 0, cur := none, task := task } }

/-- The retain copies after a cold start: both records have STATE 0x00 (16 R405). -/
def State.dropCopiesKeore (s : State) : State := (s.store (copyCtl 0 + 4) [0]).2 |> fun s => (s.store (copyCtl 1 + 4) [0]).2

/-- The start in progress ends (15 R367; 16 R405): the data are initialised, epochs recorded, held channels re-adopted or released,
and the engine runs. -/
def State.startDone (s : State) : State :=
  let p := s.keo.run
  let warm := if s.keo.startWarm then s.warmCopy p else none
  let data := match warm with
    | some c => s.warmData p c
    | none => initData p
  let cmds := match warm with
    | some c => s.copyCmds c
    | none => List.replicate 40 0
  let s := (s.iwrite 0 data).applyForces
  let s := if warm.isSome then s else { s.dropCopiesKeore with keo := { s.keo with pass := none, handed := false, retry := none } }
  let s := { s with keo := { s.keo with buf := [], sig := [], startT := s.cyc, lastStart := if warm.isSome then 1 else 2, st := 2 } }
  let s := ((s.freshTasks fun _ => s.now).recordEpochs).setHand (s.retainedNow p, cmds)
  let s := { s with keo := { s.keo with outs := s.mapOuts p, handed := s.keo.pass.isSome } }
  let s := (s.outsOf 0x10).foldl (fun s m => s.adopt warm.isSome cmds m) s
  let s := s.dropKeoreHolds
  let s := match s.keo.startH with
    | some h => s.ok h
    | none => s
  let l := s.keo.stopH
  let s := { s with keo := { s.keo with startH := none, stopH := [] } }
  if l.isEmpty then s.settle else (l.foldl (fun s h => s.ok h) s.kStop).settle

/-- KEORE.START (05 R124; 15 R367; 16 R404). -/
def execKeoreStart (h : Hdr) (mode : Nat) (s : State) : Out :=
  let b := s.keo.bank
  let p := (s.bankImg b).getD []
  fwCmd h s (s.guarded h
    [noEpoch h, s.keoreOwn h, bp (decide (1 < mode)) 0x12, bst (decide (s.keo.st = 1 ∨ s.keo.st = 2)) 0x11,
     bst (decide (mode = 0) && (s.warmCopy p).isNone) 0x12]
    (if s.copyMatches b then
       { s with keo := { s.keo with st := 1, run := s.bankCopy b, startH := some h, startWarm := mode == 0 } }.waits h
     else { s with keo := { s.keo with st := 0 } }.fail h .badState 0x17))

/-- KEORE_START_COMPLETE (15 R367): the start of a KEORE.START ends. -/
def execKeoreStartComplete (s : State) : Out := .next (if s.live ∧ s.keo.st = 1 ∧ s.keo.startH.isSome then s.startDone else s)

/-- KEORE.STOP (05 R124; 15 R367): at the next instruction boundary; during a start or a swap, at its end. -/
def execKeoreStop (h : Hdr) (s : State) : Out :=
  fwCmd h s (s.guarded h [noEpoch h, s.keoreOwn h, bst (decide (s.keo.st = 0 ∨ s.keo.st = 3)) 0x13]
    (if s.keo.st = 1 then { s with keo := { s.keo with stopH := s.keo.stopH ++ [h] } }.waits h
     else if s.keo.x.st = 3 then { s with keo := { s.keo with x := { s.keo.x with later := s.keo.x.later ++ [Instr.keoreStop h] } } }.waits h
     else (s.kStop).ok h))

/-! ### Task releases (15 R375) -/

/-- A release reaches a task; one that arrives during a swap is held until its end, with the latch of its own instant (16 R410). -/
def State.kArrive (s : State) (k relT : Nat) : State :=
  if s.keo.x.st = 3 then
    let q := (s.bankImg (1 - s.keo.bank)).getD []
    let caps := s.capture q k relT
    let x := s.keo.x
    let e : HeldRel := { task := k, relT := relT, caps := caps }
    let s := { s with keo := { s.keo with x := { x with held := x.held ++ [e] } } }
    s.consumeAll q k caps
  else
    let s := s.endFirst k
    let caps := s.capture s.keo.run k relT
    (if (s.ktask k).st = 0 then s.consumeAll s.keo.run k (caps.map fun c => ({ v := s.capValue c } : LatchCap)) else s).kRelease k relT caps

/-- A grid release that comes before that of task `k` at `t`: earlier, or at the same instant by priority (15 R376). -/
def State.earlierRelease (s : State) (k t : Nat) : Bool :=
  (List.range 8).any fun j => (s.ktask j).per != 0 && (decide ((s.ktask j).relNext < t) || ((s.ktask j).relNext == t && decide (j < k)))

/-- KEORE_TASK_RELEASE (15 R375, R376): the next grid instant of a RELMODE 0 task has come. -/
def execKeoreTaskRelease (task : Nat) (s : State) : Out :=
  unitEvent (decide (task < 8))
    (let t := s.ktask task
     if s.live ∧ s.keo.st = 2 ∧ t.per ≠ 0 ∧ t.relNext ≤ s.now ∧ s.earlierRelease task t.relNext = false then
       (s.setKtask task { t with relNext := t.after t.relNext }).kArrive task t.relNext
     else s)

/-! ### Retain passes (16 R402, R403) -/

/-- The copy the next pass targets. -/
def State.passTarget (s : State) : Nat :=
  match s.keo.retry, s.newest with
  | some c, _ => c
  | none, some c => 1 - c
  | none, none => 0

/-- The commit record a pass writes to copy `c`, with STATE `st` (16 R400). -/
def State.passRecord (s : State) (c st : Nat) : List Byte :=
  let p := s.keo.run
  toLE 4 0x5445524B ++ [BitVec.ofNat 8 st, BitVec.ofNat 8 s.imgTag, 0, 0] ++ toLE 4 (s.copySeq (1 - c) + 1) ++ slice p 8 4 ++ imgRhash p ++
    toLE 4 (imgRt p) ++ toLE 2 (imgRetained p).length ++ [0, 0] ++ toLE 8 s.keo.passT ++ toLE 8 s.keo.passAo ++ toLE 4 s.clk.aoSess ++ zeros 12

/-- A pass starts: its target's record is written with STATE 0x00; later handovers go into the pending buffer. -/
def State.passStart (s : State) : State :=
  let c := s.passTarget
  let k := s.keo
  let s := { s with keo := { k with pass := some c, passT := s.now, passAo := s.aocnt, pimg := k.cimg, pcmd := k.ccmd, handed := false } }
  (s.store (copyCtl c) (s.passRecord c 0)).2

/-- RETAIN_PASS_START (16 R402): a handover has been made and no pass runs. -/
def execRetainPassStart (s : State) : Out := .next (if s.live ∧ s.keo.handed ∧ s.keo.pass = none then s.passStart else s)

/-- The bytes of a pass reach copy `c`, its record last. -/
def State.passWrite (s : State) (c : Nat) : State :=
  let s := (s.store (copyData c) s.keo.cimg).2
  let s := (s.store (copyCtl c + 64) (fitTo 128 (cmdBytes s.keo.ccmd))).2
  (s.store (copyCtl c + 4) [0x5A]).2

/-- RETAIN_PASS_END (16 R402, R403): the record is written valid and pending handovers merge; `good` is false when a write failed
its verification. -/
def execRetainPassEnd (good : Bool) (s : State) : Out :=
  .next (match s.keo.pass with
    | none => s
    | some c =>
      if !s.live then s
      else
        let s := if good then s.passWrite c else s
        let k := s.keo
        let s := { s with keo := { k with pass := none, cimg := k.pimg, ccmd := k.pcmd, handed := k.handed || !good,
                                          passCnt := if good then satAdd 32 k.passCnt 1 else k.passCnt,
                                          retry := if good then none else some c } }
        if good then s else s.raise 0x62 c)

/-! ### Forcing (16 R413 to R416) -/

/-- The variable table entry of a VARTAG. -/
def imgVar (p : List Byte) (tag : Nat) : Option (List Byte) := (imgVars p).find? fun v => le v 0 4 == tag

/-- The slot of a force. -/
def State.forceSlot (s : State) (tag : Nat) : Option Nat := (s.keo.force.find? fun (q : Nat × Force) => q.2.vartag == tag).map (·.1)

/-- The lowest empty slot. -/
def State.freeForce (s : State) : Option Nat := (List.range 256).find? fun i => (look? s.keo.force i).isNone

/-- A force takes effect (16 R413): a new one, or a new value of one that keeps its DISCARD. -/
def State.setForce (s : State) (tag typ value : Nat) (v : List Byte) : State :=
  let i := (s.forceSlot tag).getD (s.freeForce.getD 0)
  let old := look (fun _ => ({} : Force)) s.keo.force i
  let f : Force := { vartag := tag, typ := typ, area := byteAt v 5, addr := le v 8 4, value := value,
                     discard := if (s.forceSlot tag).isSome then old.discard else 0, t := s.now32 }
  let s := { s with keo := { s.keo with force := put s.keo.force i f } }
  let s := s.applyForce f
  (List.range 8).foldl (fun s k => s.markDirty k (f.off s.keo.run) (tySize typ)) s

/-- The checks and effect of KEORE.FORCE at its instant. -/
def State.doForce (s : State) (h : Hdr) (tag typ value : Nat) : State :=
  match imgVar s.keo.run tag with
  | none => s.fail h .badParam 0x14
  | some v =>
    s.guarded h [bp (byteAt v 4 != typ) 0x15, bst ((s.forceSlot tag).isNone && s.freeForce.isNone) 0x15]
      ((s.setForce tag typ value v).ok h)

/-- The checks and effect of KEORE.UNFORCE at its instant (16 R415). -/
def State.doUnforce (s : State) (h : Hdr) (tag : Nat) : State :=
  if tag = 0xFFFFFFFF then
    { s with keo := { s.keo with force := [] } }.ok h (s.keo.force.foldl (fun n (q : Nat × Force) => n + q.2.discard) 0)
  else match s.forceSlot tag with
    | none => s.fail h .badState 0x16
    | some i => { s with keo := { s.keo with force := del s.keo.force i } }.ok h (look (fun _ => ({} : Force)) s.keo.force i).discard

/-- KEORE.FORCE (05 R124; 16 R412, R413). -/
def execKeoreForce (h : Hdr) (vartag typ value : Nat) (s : State) : Out :=
  fwCmd h s (s.guarded h [noEpoch h, s.keoreOwn h]
    (if s.keo.x.st = 3 then { s with keo := { s.keo with x := { s.keo.x with later := s.keo.x.later ++ [Instr.keoreForce h vartag typ value] } } }.waits h
     else s.doForce h vartag typ value))

/-- KEORE.UNFORCE (05 R124; 16 R412, R415). -/
def execKeoreUnforce (h : Hdr) (vartag : Nat) (s : State) : Out :=
  fwCmd h s (s.guarded h [noEpoch h, s.keoreOwn h]
    (if s.keo.x.st = 3 then { s with keo := { s.keo with x := { s.keo.x with later := s.keo.x.later ++ [Instr.keoreUnforce h vartag] } } }.waits h
     else s.doUnforce h vartag))

/-- A command that waited for the end of a swap. -/
def State.doLater (s : State) : Instr → State
  | .keoreForce h tag typ value => s.doForce h tag typ value
  | .keoreUnforce h tag => s.doUnforce h tag
  | .keoreStop h => s.kStop.ok h
  | _ => s

/-! ### The on-line exchange (16 R408 to R412) -/

/-- KEORE.EXCHANGE (05 R124; 16 R408). -/
def execKeoreExchange (h : Hdr) (out outLen deadline : Nat) (s : State) : Out :=
  fwCmd h s (s.guarded h
    [noEpoch h, s.keoreOwn h, bp (!s.outOK h.ring out outLen 4096) 0x10, bp (decide (deadline = 0 ∨ 60000 < deadline)) 0x12,
     bst (decide (s.keo.st ≠ 2)) 0x13, bst (s.bankImg (1 - s.keo.bank)).isNone 0x14, bst (decide (s.keo.x.st ≠ 0)) 0x18]
    (let x : Xchg := { s.keo.x with st := 1, h := h, out := out, dead := msCyc deadline, since := s.cyc, rel := [], held := [], later := [], shadow := [], force := [] }
     ({ s with keo := { s.keo with x := x } }).waits h))

/-- The exchange ends without a commit. -/
def State.endXchg (s : State) : State := { s with keo := { s.keo with x := { s.keo.x with st := 0, held := [], later := [], shadow := [], force := [] } } }

/-- EXCHANGE_PREPARED (16 R408): the new code stands in the idle half of the code store. -/
def execExchangePrepared (s : State) : Out :=
  .next (if s.live ∧ s.keo.x.st = 1 then
           (if s.copyMatches (1 - s.keo.bank) then { s with keo := { s.keo with x := { s.keo.x with st := 2 } } }
            else s.endXchg.fail s.keo.x.h .badState 0x17)
         else s)

/-- EXCHANGE_TIMEOUT (16 R409). -/
def execExchangeTimeout (s : State) : Out :=
  .next (if s.live ∧ (s.keo.x.st = 1 ∨ s.keo.x.st = 2) ∧ s.keo.x.since + s.keo.x.dead ≤ s.cyc then s.endXchg.fail s.keo.x.h .timeout 0x10 else s)

/-- The old instance an instance of the new image continues (16 R410 step 2). -/
def oldInst (p i : List Byte) : Option (List Byte) := (imgInsts p).find? fun o => slice o 0 8 == slice i 0 8

/-- The old variable a variable of the new image continues: VARTAG and TYPE equal (16 R410 step 3). -/
def oldVar (p v : List Byte) : Option (List Byte) := (imgVars p).find? fun o => slice o 0 5 == slice v 0 5

/-- Data with the value of a variable put in place; `d` holds the four areas of `p`. -/
def putVar (p d v : List Byte) (value : Nat) : List Byte :=
  let b := areaBase p (byteAt v 5)
  let ad := le v 8 4
  if byteAt v 4 = 0 then d.set (b + ad / 8) (setBit8 ((d[b + ad / 8]?).getD 0) (ad % 8) (value % 2 == 1))
  else setBytes d (b + ad) (toLE (tySize (byteAt v 4)) value)

/-- The value of a variable of the running image. -/
def State.varValue (s : State) (v : List Byte) : Nat :=
  let b := areaBase s.keo.run (byteAt v 5)
  let ad := le v 8 4
  if byteAt v 4 = 0 then b2n (bit (byteAt (s.iread (b + ad / 8) 1) 0) (ad % 8))
  else le (s.iread (b + ad) (tySize (byteAt v 4))) 0 (tySize (byteAt v 4))

/-- The new data of 16 R410, steps 1 to 3. -/
def State.newData (s : State) (q : List Byte) : List Byte :=
  let d := (imgInsts q).foldl (fun d i => match oldInst s.keo.run i with
    | none => d
    | some o => setBytes d (areaBase q 3 + le i 8 4) (s.iread (areaBase s.keo.run 3 + le o 8 4) (le o 12 4))) (initData q)
  ((imgVars q).filter fun v => byteAt v 5 == 1 || byteAt v 5 == 2).foldl (fun d v => match oldVar s.keo.run v with
    | none => d
    | some o => putVar q d v (s.varValue o)) d

/-- What becomes of a force under the new image (16 R416): its variable there, or the REASON it is released. -/
def forceFate (q : List Byte) (f : Force) : List Byte ⊕ Nat :=
  match imgVar q f.vartag with
  | none => .inr 1
  | some v => if byteAt v 4 = f.typ then .inl v else .inr 2

/-- EXCHANGE_COMMIT (16 R409, R410): every task has ended and no release waits; the new data are built in the shadow. -/
def execExchangeCommit (s : State) : Out :=
  let q := (s.bankImg (1 - s.keo.bank)).getD []
  let due := s.keo.task.any fun (e : Nat × KTask) => e.2.per != 0 && decide (e.2.relNext ≤ s.now)
  .next (if s.live ∧ s.keo.st = 2 ∧ s.keo.x.st = 2 ∧ s.kBest = none ∧ due = false then
    let x := s.keo.x
    let keep := s.keo.force.filterMap fun (e : Nat × Force) => match forceFate q e.2 with
      | .inl v => some (e.1, { e.2 with area := byteAt v 5, addr := le v 8 4 })
      | .inr _ => none
    let rel := s.keo.force.filterMap fun (e : Nat × Force) => match forceFate q e.2 with
      | .inl _ => none
      | .inr r => some (e.2.vartag, e.2.typ, r, e.2.discard)
    let data := keep.foldl (fun d (e : Nat × Force) => match imgVar q e.2.vartag with
      | some v => putVar q d v e.2.value
      | none => d) (s.newData q)
    let inits := ((imgInsts q).filter fun i => (oldInst s.keo.run i).isNone).length
    { s with keo := { s.keo with x := { x with st := 3, since := s.cyc, time := s.now, shadow := data, force := keep, rel := rel, inits := inits } } }
  else s)

/-- An OUT entry of a released force (16 R416). -/
def relEntry (e : Nat × Nat × Nat × Nat) : List Byte :=
  toLE 4 e.1 ++ [BitVec.ofNat 8 e.2.1, BitVec.ofNat 8 e.2.2.1, 0, 0] ++ toLE 4 e.2.2.2 ++ zeros 4

/-- The retained commands of the channels the new image maps are kept (log 31). -/
def keepCmds (q : List Byte) (l : List Nat) : List Nat :=
  (l.zip (List.range l.length)).map fun (e : Nat × Nat) => if (imgMap q).any (fun m => mpKind m == 0x10 && mpUnit m == e.2) then e.1 else 0

/-- EXCHANGE_SWAP_END (16 R410, R411, R416): the new image becomes active with its data, a pass starts, the command completes, and
what was held during the swap follows. -/
def execExchangeSwapEnd (s : State) : Out :=
  .next (if s.live ∧ s.keo.x.st = 3 then
    let x := s.keo.x
    let b := 1 - s.keo.bank
    let q := (s.bankImg b).getD []
    let cmds := keepCmds q s.handImg.2
    let s := (s.activate b q).iwrite 0 x.shadow
    let s := (s.extend 3 (stMeasure (s.bankHdr b))).recapture
    let s := { s with keo := { s.keo with force := x.force, buf := [], sig := [], wref := 0, pass := none, cimg := s.retainedNow q, ccmd := cmds } }
    let old := s.keo.task
    let s := s.freshTasks fun t => t.after s.now
    let task := s.keo.task.map fun (e : Nat × KTask) => (e.1, e.2.keepRegs (look (fun _ => {}) old e.1))
    let s := ({ s with keo := { s.keo with task := task } }.recordEpochs).passStart
    let s := s.writeOut x.out (x.rel.map relEntry).flatten
    let n := x.rel.length
    let x' : Xchg := { x with st := 0, relN := n, cnt := satAdd 32 x.cnt 1, held := [], later := [], shadow := [], force := [] }
    let s := { s with keo := { s.keo with x := x' } }
    let s := s.replyAt x.h .ok 0 (16 * n + n * 2 ^ 32 + x.inits % 65536 * 2 ^ 48) x.time true
    let s := x.later.foldl (fun s i => s.doLater i) s
    (x.held.foldl (fun s (e : HeldRel) => if s.keo.st = 2 then s.kRelease e.task e.relT e.caps else s) s).settle
  else s)

/-! ### FAULT.INJECT (21 R538) -/

/-- The reaction of an injected source of class HOME, as its home chapter states it for a detected one: KEORE_WDG and KEORE_TRAP halt the
engine (15 R395), with HTASK and HCAUSE as INFO has them and HALTPC open; ISO_LINK switches the isolated outputs off (17 R444). The boot
sources and TEN_TABLE have theirs in the boot alone (log 65). -/
def State.injectHome (s : State) (src : Nat) : State :=
  if (src = 0x60 ∨ src = 0x61) ∧ (s.keo.st = 1 ∨ s.keo.st = 2) then
    let (pc, s) := s.draw
    let s := { s with keo := { s.keo with st := 3, hcause := 15, htask := 7, haltPc := pc % 2 ^ 32, haltT := s.now, cur := none } }
    ((s.keoTrace 2 7).cancelXchg.holdOutputs).settle
  else if src = 0x75 then (s.isoOff fun _ => true).syncIso
  else s

/-- FAULT.INJECT (05 R132; 21 R538). -/
def execFaultInject (h : Hdr) (src : Nat) (s : State) : Out :=
  fwCmd h s (s.guarded h [noEpoch h, srcChk src, t0 h, bst (decide (s.sys.lcCur = 3)) 0x12]
    (((s.raise src 0xFFFFFFFF true).injectHome src).ok h))

end Sys2Proof.Machine
end

