-- ==== Sys2Proof/Machine/Reset.lean ====
section
/-! DEFINITION. Resets: what each reach leaves, and the sources (03 R57 to R62; 21 R525). -/
namespace Sys2Proof.Machine
open Sys2Proof

/-- Memory that a reset keeps (03 R60, R78): eMRAM and the external xSPI flash. -/
def keptAddr (a : Nat) : Bool := (decide (0x22000000 ≤ a) && decide (a < 0x22480000)) || (decide (0x60000000 ≤ a) && decide (a < 0x80000000))

/-- Condition sources that the C-die's return finds as they are (21 R564): the clock, SAFE_N, the junction, and those of the companion
dies. -/
def keptSource (n : Nat) : Bool := ([0x02, 0x03, 0x07, 0x34, 0x35, 0x37, 0x39, 0x74, 0x75] : List Nat).contains n

/-- A channel as the P-die keeps it (09 R237): its epoch restarts, and what the C-die held for it is gone. -/
def Chan.kept (c : Chan) : Chan := { c with epoch := 0, handle := noHandle, granted := false, via := .none, cap := none }

/-- A segment as the M-die keeps it (03 R60): the exchange that the C-die ran is over. -/
def Seg.kept (x : Seg) : Seg :=
  { x with pst := 0, ready := 0, tries := 0, winAt := none, commitAt := none, retryAt := none, abort := false, woken := false,
           handle := noHandle, retryLink := none, xh := [] }

/-- The owners that the P-dies and the I-die hold (18 R458): load channels and isolated channels. -/
def dieOwners (t : Tab Nat) : Tab Nat := t.filter fun (p : Nat × Nat) => p.1 / 65536 == 3 || p.1 / 65536 == 13

/-- A fuse word in progress is finished before a reset of C-die scope (03 R61). -/
def State.finishFuse (s : State) (o : Op) : State :=
  if !o.running then s
  else match o.cmd with
    | .sysLifecycle _ _ _ t => { s with sys := { s.sys with lcWord := put s.sys.lcWord t 0xFFFFFFFF } }
    | .sysFuse _ op key svn hash =>
      if op = 1 then { s with sys := { s.sys with keyHash := put s.sys.keyHash key (fitTo 32 hash) } }
      else if op = 2 then { s with sys := { s.sys with revoked := put s.sys.revoked key true } }
      else { s with sys := { s.sys with svn := put s.sys.svn key (Nat.max svn (look (fun _ => 0) s.sys.svn key)) } }
    | _ => s

/-- Units of 64 bytes of [a, a + n) taken from `t`, unit `i` where bit `i` of `v` is set; the others keep what they hold in `s`. -/
def State.cutMem (s t : State) (v a n : Nat) : State :=
  (List.range (ceilDiv n 64)).foldl (fun s i => if v.testBit i then (s.store (a + 64 * i) (memRead t.mem (a + 64 * i) 64)).2 else s) s

/-- The eMRAM that a running operation writes, and the machine in which it has written it (03 R79; 15 R368; 19 R477; 21 R534). -/
def State.opWrites (s : State) (o : Op) : Option (Nat × Nat × State) :=
  match o.cmd with
  | .keyWrite _ _ _ slot => some (slotAddr slot, 128, s.keyWriteEnd o.h slot o.data true)
  | .keyDerive _ slot ktype label => some (slotAddr slot, 128, s.keyDeriveEnd o.h slot ktype label true)
  | .keyErase _ slot => some (slotAddr slot, 128, s.keyEraseEnd o.h slot true)
  | .keoreLoad _ _ _ => some (bankAddr (1 - s.keo.bank), o.data.length, s.keoreLoadEnd o.h o.data true)
  | .sysUpdate _ _ _ _ =>
    some (copyBase (stType o.data) (s.spareCopy (stType o.data)), o.data.length, s.updateEnd o.h 0 o.data true)
  | .faultLogclr _ count => some (0x22370000, 64 + 64 * 32, s.logclrEnd o.h count)
  | _ => none

/-- A reset finds an operation writing eMRAM (03 R58, R61): the unit in progress is finished, and each unit of the write holds its old or
its new content. Which ones are new is a free value (log 60). -/
def State.cutOp (s : State) (o : Op) : State :=
  if !o.running then s
  else match s.opWrites o with
    | none => s
    | some (a, n, t) =>
      let (v, s) := s.draw
      s.cutMem t v a n

/-- A power-on reset or PORST_N finds a fuse word of the life cycle being programmed (03 R61, R74): a free number of its bits is set, fewer
than 24, so the state stays the previous one. What an interrupted SYS.FUSE leaves the spec does not say; it counts as not programmed
(DESIGN CHOICE, log 60). -/
def State.cutFuse (s : State) (o : Op) : State :=
  match o.running, o.cmd with
  | true, .sysLifecycle _ _ _ t =>
    let (v, s) := s.draw
    let old := look (fun _ => 0) s.sys.lcWord t
    let w := old ||| v % 2 ^ 32
    if popcount w < 24 then { s with sys := { s.sys with lcWord := put s.sys.lcWord t w } } else s
  | _, _ => s

/-- What stands after a reset of the C-die (03 R60, R78; 09 R237; 13 R335; 16 R406; 18 R458; 21 R526): everything else is at its reset
value. Log 33. -/
def State.survives (s : State) : State :=
  let y := s.sys
  let i := s.iso
  { State.reset with
    clk := { cyc := s.clk.cyc, aoCyc := s.clk.aoCyc, aoSess := s.clk.aoSess, free := s.clk.free }
    sys := { variant := y.variant, uid := y.uid, pwr := y.pwr, boot := if y.pwr = .valid then 1 else 0, clkSrc := y.clkSrc, cause := y.cause,
             full := y.full, starts := y.starts, startId := y.startId, nextCause := y.nextCause, nextFull := y.nextFull,
             lcWord := y.lcWord, lcCur := y.lcCur, keyHash := y.keyHash, thHash := y.thHash, revoked := y.revoked, svn := y.svn,
             ddrSize := y.ddrSize, resetAt := s.cyc }
    lch := { s.lch with wait := [], chan := s.lch.chan.map fun (p : Nat × Chan) => (p.1, p.2.kept),
                        bunt := s.lch.bunt.map fun (p : Nat × BuntPos) => (p.1, { p.2 with epoch := 0 }) }
    inp := s.inp.kept s.cyc
    iso := { i with ch := i.ch.map (fun (p : Nat × IsoCh) => (p.1, { p.2 with wait := [] })), wr := [] }
    wake := { s.wake with seg := s.wake.seg.map (fun (p : Nat × Seg) => (p.1, p.2.kept)), ind := [], phase := 0, h := [] }
    flt := { latch := s.flt.latch, safeLow := s.flt.safeLow, active := s.flt.active.filter fun (p : Nat × Nat) => keptSource p.1 }
    ten := { own := dieOwners s.ten.own, svOwn := s.ten.svOwn, svBez := s.ten.svBez, svClasp := s.ten.svClasp, svPermit := s.ten.svPermit }
    key := { lastLc := s.key.lastLc }
    keo := { bank := s.keo.bank, outs := s.keo.outs }
    can := { saved := s.can.saved }
    mem := s.mem.filter fun (c : Host.Cell) => keptAddr c.1
    ecc := s.ecc.filter fun (p : Nat × Nat) => keptAddr (8 * p.1)
    pending := s.pending }

/-- The cause of the start in preparation (03 R63): of two sources in one cycle the smaller code, else the later one. -/
def State.causeOf (s : State) (cause : Nat) : Nat :=
  if s.sys.boot < 2 ∧ s.sys.resetAt = s.cyc then Nat.min cause s.sys.nextCause else cause

/-- A reset of C-die scope (03 R60 to R62). -/
def State.cdieReset (s : State) (cause : Nat) : State :=
  let c := s.causeOf cause
  let full := s.sys.nextFull && decide (s.sys.boot < 2)
  let s := (s.hal.ops.foldl (fun s o => (s.finishFuse o).cutOp o) s).survives
  { s with sys := { s.sys with nextCause := c, nextFull := full } }

/-- The P-dies and the I-die lose their supply (03 R60; 09 R237; 13 R346): channels and outputs are off at once. -/
def State.dropDies (s : State) : State :=
  { s with lch := {}, iso := {}, ten := { s.ten with own := [] }, keo := { s.keo with outs := [] },
           flt := { s.flt with active := s.flt.active.filter fun (p : Nat × Nat) => decide (p.1 < 0x30) } }

/-- A full reset (03 R60): it waits for nothing (R61). -/
def State.fullReset (s : State) (cause : Nat) : State :=
  let c := s.causeOf cause
  let s := (s.hal.ops.foldl (fun s o => (s.cutFuse o).cutOp o) s).survives.dropDies
  { s with inp := {}, wake := {}, clk := { s.clk with aoCyc := 0 }, flt := { s.flt with latch := false },
           sys := { s.sys with nextCause := c, nextFull := true } }

/-- POWER_ON_RESET (03 R57, R59): VBAT_LOGIC falls below 4.5 V; every rail switches off. -/
def execPowerOnReset (s : State) : Out :=
  let s := s.fullReset 1
  .next { s with sys := { s.sys with pwr := .off, boot := 0, clkSrc := .unset } }

/-- VBAT_RISE (03 R57): VBAT_LOGIC rises through 5.5 V. -/
def execVbatRise (s : State) : Out := .next (if s.sys.pwr = .off then { s with sys := { s.sys with pwr := .starting } } else s)

/-- RAILS_VALID (03 R56, R69 t1; 02 R51): `edges` are those CLKIN carries in the 20 us that follow; they choose the reference clock. -/
def execRailsValid (edges : Nat) (s : State) : Out :=
  .next (if s.sys.pwr = .starting then
    { s with sys := { s.sys with pwr := .valid, boot := 1, clkSrc := if 64 ≤ edges then .clkin else .xtal }
             flt := { s.flt with active := s.flt.active.filter (· != (0x02, 0)) } }
  else s)

/-- PORST_N_ASSERT (03 R59): PORST_N low for 10 us. A module that sleeps starts its rails. -/
def execPorstNAssert (s : State) : Out :=
  .next (if s.sys.pwr = .off then s
    else
      let asleep := decide (s.sys.pwr = .aoOnly)
      let s := s.fullReset 2
      if asleep then { s with sys := { s.sys with pwr := .starting, boot := 0 } } else s)

/-- RESET_N_EXTERNAL (03 R59): another device pulls RESET_N low while the module leaves it high impedance. -/
def execResetNExternal (s : State) : Out := .next (if s.live then s.cdieReset 3 else s)

/-- FAULT_RESET_DEMAND (21 R525): 10 ms after MP_FAULT or RT0_FAULT, once the log mirror holds the entry. -/
def execFaultResetDemand (s : State) : Out :=
  .next (match s.flt.rst with
    | some t => if s.live ∧ t ≤ s.cyc ∧ !s.flt.dirty then s.cdieReset 5 else s
    | none => s)

/-- The real-time pair `k` leaves reset with its TCM reset (03 R59; 21 R522): one whose stage failed stays held (R70). -/
def State.resetPair (s : State) (k : Nat) : State :=
  let lo := 0x08000000 + k * 0x40000
  { s with sys := { s.sys with rtHeld := s.sys.rtHeld.filter fun j => j != k || s.sys.rtBad.contains k || decide (s.sys.boot < 8) },
           mem := memClear s.mem lo (lo + 0x40000), ecc := s.ecc.filter fun (p : Nat × Nat) => !(decide (lo ≤ 8 * p.1) && decide (8 * p.1 < lo + 0x40000)),
           dbg := { s.dbg with halted := s.dbg.halted.filter (· != 0x10 + k) } }

/-- The application cluster is reset (03 R59): its cores start in machine mode with MTAG 0 (18 R450). -/
def State.resetCluster (s : State) : State :=
  ({ s with ten := { s.ten with mtag := [], mtagNow := [], low := [] }, dbg := { s.dbg with halted := s.dbg.halted.filter fun u => decide (5 < u) } } : State).traceGaps s

/-- SYS.RESET of pair or cluster scope completes once its unit `u` has left reset (03 R59); one that stays held (R70) keeps it waiting. -/
def State.resetDone (s : State) (h : Hdr) (u : Nat) (held : Bool) : State :=
  if held then ({ s with sys := { s.sys with rstWait := s.sys.rstWait ++ [(u, h)] } }).waits h else s.ok h

/-- SYS.RESET (05 R118; 03 R59). -/
def execSysReset (h : Hdr) (scope : Nat) (s : State) : Out :=
  fwCmd h s (s.guarded h [noEpoch h, t0 h, bp (decide (4 < scope)) 0x12]
    (if scope = 0 then s.cdieReset 4
     else if scope = 4 then s.resetCluster.resetDone h 3 s.sys.appHeld
     else (s.resetPair (scope - 1)).resetDone h (scope - 1) ((s.resetPair (scope - 1)).sys.rtHeld.contains (scope - 1))))

end Sys2Proof.Machine
end

