-- ==== Sys2Proof/Machine/Boot.lean ====
section
/-! DEFINITION. The boot of the C-die (03 R65 to R72): instants t2 to t8 of R69. -/
namespace Sys2Proof.Machine
open Sys2Proof

/-- BOOT_START (03 R69 t2): the C-die leaves reset. The wake latches are copied (13 R338; 17 R447), a set SAFE latch drives the line
(21 R526), and the fabric initialisation is demanded (10 R261). -/
def execBootStart (s : State) : Out :=
  .next (if s.sys.pwr = .valid ∧ s.sys.boot = 1 then
    let y := s.sys
    let latches := listMask ((List.range 22).filter fun g => (s.seg g).latch)
    { s with
      sys := { y with boot := 2, cause := y.nextCause, full := y.nextFull, starts := if y.nextFull then 0 else satAdd 16 y.starts 1 }
      wake := { s.wake with causeSeg := latches, causeMod := s.wake.modLatch, inhOff := false }
      inp := { s.inp with wakeSwC := s.inp.wakeSw }
      flt := { s.flt with initReq := true, safeReq := s.flt.latch, safeSrc := if s.flt.latch then 0xFF else s.flt.safeSrc } }
  else s)

/-! ### t3 -/

/-- A log entry as the mirror holds it (21 R530, R533). -/
def logEntOf (b : List Byte) : LogEnt :=
  let f := byteAt b 5
  { src := byteAt b 4, sev := f % 4, inj := bit f 2, restored := true, pending := bit f 4, done := bit f 5, preempted := bit f 6,
    count := le b 6 2, tfirst := le b 8 8, tlast := le b 16 4, info := le b 20 4, seq := le b 24 4, starts := le b 28 2 }

/-- The log rebuilt from its mirror (21 R533); a mirror without its MAGIC is empty. -/
def State.restoreLog (s : State) : State :=
  let h := memRead s.mem 0x22370000 64
  if le h 0 4 ≠ 0x474F4C46 then s
  else
    let l := (List.range (Nat.min (byteAt h 12) 64)).map fun k => logEntOf (memRead s.mem (0x22370040 + 32 * k) 32)
    { s with flt := { s.flt with log := l, seq := le h 4 4, lost := le h 8 4, degr := l.any fun (e : LogEnt) => decide (1 ≤ e.sev) } }

/-- STARTID after one more start (03 R64): modulo 2^32, never 0. -/
def nextStart (n : Nat) : Nat := if (n + 1) % 2 ^ 32 = 0 then 1 else (n + 1) % 2 ^ 32

/-- Every channel and every isolated output off (03 R73): in RETIRED they stay off. -/
def State.outputsOff (s : State) : State :=
  let off := fun (c : Chan) => { c with st := .off, act := .off, out := false, held := .off, holds := [], limit := false }
  { s with lch := { s.lch with chan := s.lch.chan.map fun (p : Nat × Chan) => (p.1, off p.2) }
           iso := { s.iso with ch := s.iso.ch.map fun (p : Nat × IsoCh) => (p.1, { p.2 with cmd := false, hold := false }) } }

/-- BOOT_FUSES_READ (03 R64, R68, R69 t3, R74; 16 R406; 18 R467; 21 R533, R564). -/
def execBootFusesRead (s : State) : Out :=
  .next (if s.sys.boot = 2 then
    let y := s.sys
    let lc := s.lcFused
    let on := if lc = 0 then 0xFFFF else 0
    let id := nextStart (le (memRead s.mem 0x22380004 4) 0 4)
    let s := { s with
      sys := { y with boot := 3, lcCur := lc, startId := id }
      dbg := { s.dbg with ni := on, inv := on }
      clk := { s.clk with aoSess := if y.full then (s.clk.aoSess + 1) % 2 ^ 32 else s.clk.aoSess }
      mem := memPutAll s.mem 0x22380004 (toLE 4 id) }
    let s := s.extend 0 (toLE 4 Config.romVersion ++ toLE 4 s.lcstate ++ toLE 4 s.dbgen ++ zeros 52)
    let s := s.restoreLog
    let s := (s.flt.active.foldr (rankIns s.rankOf) []).foldl (fun s p => s.raise p.1 p.2) s
    let s := (s.orphanReport 0).orphanReport 1
    if lc = 5 then s.outputsOff else s
  else s)

/-! ### Trying stages -/

/-- A stage as it stands in memory: header and payload, the header alone where LEN does not fit the area. None on a memory error. -/
def State.stageAt (s : State) (base area : Nat) : Option (List Byte) × State :=
  match s.load base hdrLen with
  | (none, s) => (none, s)
  | (some h, s) =>
    if area < hdrLen + stLen h then (some h, s)
    else match s.load (base + hdrLen) (stLen h) with
      | (none, s) => (none, s)
      | (some p, s) => (some (h ++ p), s)

/-- A stage at `base` verified by 03 R66; `ok` adds what its own chapter checks. -/
def State.tryStage (s : State) (typ base area : Nat) (ok : List Byte → Bool) : Option (List Byte) × State :=
  match s.stageAt base area with
  | (none, s) => (none, s)
  | (some r, s) => if (s.stageFails r (stPayload r) typ area).isNone && ok (stPayload r) then (some r, s) else (none, s)

/-- Two places tried in order (03 R67): which of them passed (0 or 1) with its stage. -/
def State.tryTwo (s : State) (typ a b area : Nat) (ok : List Byte → Bool) : Option (Nat × List Byte) × State :=
  match s.tryStage typ a area ok with
  | (some r, s) => (some (0, r), s)
  | (none, s) => match s.tryStage typ b area ok with
    | (some r, s) => (some (1, r), s)
    | (none, s) => (none, s)

/-- The copy of a stage type that the boot preference unit names (03 R78): 1 names copy B, any other value copy A. -/
def State.preferred (s : State) (typ : Nat) : Nat := if byteAt (memRead s.mem 0x22380000 2) (typ - 1) = 1 then 1 else 0

/-- The preferred copy tried first and the other second (03 R67): BOOTSTAT's code of the copy, and its stage. -/
def State.tryCopies (s : State) (typ : Nat) : Option (Nat × List Byte) × State :=
  let c := s.preferred typ
  match s.tryTwo typ (copyBase typ c) (copyBase typ (1 - c)) (copyArea typ) fun _ => true with
  | (some (i, r), s) => (some (1 + (if i = 0 then c else 1 - c), r), s)
  | (none, s) => (none, s)

/-- The stage accepted in place `slot` is measured and its SVN noted (03 R68, R76). -/
def State.measured (s : State) (n slot : Nat) (r : List Byte) : State := (s.extend n (stMeasure r)).acceptStage slot r

/-! ### t4 and t5 -/

/-- LPDDR5 training asks for its leave (03 R69 t8; 07 R164). -/
def State.askDdr (s : State) : State :=
  if s.sys.ddrH ≠ noHandle then s
  else s.requestInternal 6 1500 0 .ddr fun s hd => { s with sys := { s.sys with ddrH := hd } }

/-- BOOT_PATCH_APPLY (03 R69 t4, R70): the MP patch; from t4 on the MP serves, and the work of t8 starts. RETIRED stops after t3. -/
def execBootPatchApply (s : State) : Out :=
  .next (if s.sys.boot = 3 ∧ s.sys.lcCur ≠ 5 then
    let c := s.preferred 1
    let (f, s) := s.tryCopies 1
    let s := match f with
      | some (k, r) =>
        let s := s.measured 1 (k - 1) r
        let s := { s with sys := { s.sys with patch := k } }
        if k = 1 + c then s else s.raise 0x10 0
      | none => ({ s with sys := { s.sys with patch := 3 } }).raise 0x11 0
    ({ s with sys := { s.sys with boot := 4 } }).askDdr
  else s)

/-- The tenancy table applied (18 R458): owners, Bezels, Clasps and write permissions; what the dies hold is kept after a start that
followed neither a full reset nor a sleep. A table that fails leaves tag 0 everywhere else. -/
def State.applyTable (s : State) (good : Bool) : State :=
  let t := s.ten
  let keep := !(s.sys.full || s.sys.cause == 6)
  let base := if good then t.svOwn else []
  let own := if keep then (dieOwners t.own).foldl (fun b (p : Nat × Nat) => put b p.1 p.2) (base.filter fun (p : Nat × Nat) => p.1 / 65536 != 3 && p.1 / 65536 != 13) else base
  let rt := fun (g : Nat) => look (fun _ => 0) own (ownKey 12 g)
  let s := { s with
    ten := { t with own := own, svOwn := if good then own else t.svOwn, bez := if good then t.svBez else [], clasp := if good then t.svClasp else [],
                    applied := good }
    key := { s.key with permit := if good then t.svPermit else [] }
    sys := { s.sys with rtTag := put (put s.sys.rtTag 1 (rt 8)) 2 (rt 9) } }
  if good then s else s.raise 0x23 0

/-- The Locket store wiped in a new life-cycle state, and every slot checked (19 R479, R480). -/
def State.scanSlots (s : State) : State :=
  let s := if s.key.lastLc = s.sys.lcCur then s else (List.range 128).foldl (fun s i => s.writeSlot i [] 0 0 []) s
  let s := (List.range 128).foldl (fun s i => s.checkSlot i) s
  { s with key := { s.key with scan := true, lastLc := s.sys.lcCur } }

/-- A segment set to a transceiver state by the BCR (13 R330). -/
def State.bcrXcvr (s : State) (g st : Nat) : State :=
  if st = 0 then (if (s.seg g).xst = 0 then s else if g < 16 then s.normal g else s.askNormal g)
  else if st = 1 then s.listen g
  else if st = 2 then s.standby g false
  else let s := s.standby g false; s.setSeg g { s.seg g with xst := 3 }

/-- A port record of the BCR (11 R274, R275). -/
def State.bcrPort (s : State) (p : Nat) (r : List Byte) : State :=
  let on := bit (byteAt r 1) 0
  let l := (s.port p).lst
  let s := if !on && l != .disabled then s.disablePort p else s
  let s := s.setPort p { s.port p with rcd := r }
  if on && l == .disabled then s.enablePort p else s

/-- One setting of the BCR applied (03 R67); one outside its chapter's rules changes nothing (log 32). -/
def State.bcrItem (s : State) (i : BcrItem) : State :=
  let u := i.unit
  let r := i.data
  match i.kind with
  | 0 => if u < 12 ∧ r.length = 64 ∧ !ctlRange r ∧ !ctlMix u r then s.setCtl u { s.ctl u with rcd := r } else s
  | 1 => if u < 12 ∧ byteAt (s.ctl u).rcd 0 = 1 ∧ 1 ≤ byteAt r 0 ∧ byteAt r 0 ≤ 3 then
           s.setCtl u { s.ctl u with want := some (byteAt r 0), integ := true } else s
  | 2 => if u < 8 ∧ 16 ≤ r.length ∧ r.length = linLength r ∧ !linRange r ∧ !linMix r then s.setLin u { s.lin u with rcd := r } else s
  | 3 => if u < 4096 ∧ r.length = 48 ∧ !routeReserved r ∧ !routeRange r then
           s.setRoute u { s.route u with rcd := r, written := true, tokens := rtBurst r * tokenUnit, fillAt := s.cyc } else s
  | 4 =>
    let l := look (fun _ => []) s.brg.wake u
    let e := le r 0 2
    if u < 16 ∧ e < 4096 ∧ l.length < 16 ∧ !l.contains e then { s with brg := { s.brg with wake := put s.brg.wake u (l ++ [e]) } } else s
  | 5 => if 2 ≤ u ∧ u ≤ 15 ∧ r.length = 64 ∧ !portReserved r ∧ !portRange u r then s.bcrPort u r else s
  | 6 =>
    if u < 1024 ∧ r.length = 32 ∧ !schedRange r ∧ !schedMix r then
      let e : SEnt := { rcd := r, st := 2 }
      let s := s.setSent u { e with next := e.trigger }
      if byteAt r 0 = 0 then s.forward u else s
    else s
  | 9 => if u = 0 ∧ r.length = 2 ∧ 1 ≤ le r 0 2 ∧ le r 0 2 ≤ 6400 then { s with sys := { s.sys with ddrRate := le r 0 2 } } else s
  | 10 => if u < 2 ∧ r.length = 2 ∧ 1 ≤ le r 0 2 ∧ le r 0 2 ≤ 400 then { s with sys := { s.sys with xspi := put s.sys.xspi u (le r 0 2) } } else s
  | 8 => if 8 ≤ u ∧ u < 22 ∧ byteAt r 0 < 4 ∧ !(u < 16 && byteAt r 0 == 1) then s.bcrXcvr u (byteAt r 0) else s
  | _ => s

/-- Each segment from number `lo` on whose own latch bit is set enters Normal at t5 (13 R346). -/
def State.wakeLatched (s : State) (lo : Nat := 0) : State :=
  ((List.range 22).filter fun g => decide (lo ≤ g) && (s.seg g).latch).foldl (fun s g => s.wakeSeg g) s

/-- BOOT_BCR_APPLY (03 R69 t5, R70): the BCR is verified and applied, after the tenancy table and the Locket store. `tab` tells whether
the table passes its check; `items` is what the payload of the applied copy spells, whose framing the spec does not give (log 32). -/
def execBootBcrApply (tab : Bool) (items : List BcrItem) (s : State) : Out :=
  .next (if s.sys.boot = 4 then
    let s := (s.scanSlots).applyTable tab
    let (f, s) := s.tryCopies 2
    let s := match f with
      | some (k, r) =>
        let s := s.measured 2 (k - 1) r
        let s := { s with sys := { s.sys with bcr := k } }
        let s := items.foldl (fun (s : State) (i : BcrItem) => s.bcrItem i) s
        let stay := (items.filter fun (i : BcrItem) => i.kind == 7).map fun (i : BcrItem) => i.unit
        ((List.range 8).filter fun g => !stay.contains g && (s.seg g).xst != 0).foldl (fun (s : State) (g : Nat) => s.normal g) s
      | none => ({ s with sys := { s.sys with bcr := 3 } }).raise 0x12 0
    let s := s.wakeLatched (if s.sys.bcr = 3 then 8 else 0)
    ({ s with sys := { s.sys with boot := 5 } }).syncWake.settle
  else s)

/-! ### t6 and t7 -/

/-- The outputs of an image that may not start stay safe (03 R70; 15 R395): the mapped channels are held. -/
def State.holdUnstarted (s : State) : State := s.keo.outs.foldl (fun s n => s.holdCh n .keore) s

/-- BOOT_KEORE_PREPARE (03 R69 t6, R70; 16 R407): the active bank, then the other; a warm start where 16 R404 allows it and the active
bank passed. -/
def execBootKeorePrepare (s : State) : Out :=
  .next (if s.sys.boot = 5 then
    let b := s.keo.bank
    let (f, s) := s.tryTwo 3 (bankAddr b) (bankAddr (1 - b)) 0x100000 s.imageOk
    let s := { s with sys := { s.sys with boot := 6 } }
    match f with
    | none => (({ s with sys := { s.sys with keoreB := 3 } }).raise 0x14 0).holdUnstarted.settle
    | some (i, r) =>
      let k := if i = 0 then b else 1 - b
      let p := stPayload r
      let s := s.measured 3 k r
      let s := { s with keo := { s.keo with img := put s.keo.img k p, hdr := put s.keo.hdr k (r.take hdrLen) } }
      let s := s.activate k p
      let warm := i == 0 && (s.warmCopy p).isSome
      let s := { s with sys := { s.sys with keoreB := 1 + k, warm := warm }, keo := { s.keo with st := 1, startH := none, startWarm := warm } }
      let s := if i = 0 then s else s.raise 0x13 b
      let c := s.newest.filter fun c => byteAt (s.commitRec c) 5 == payloadTag (some p)
      (match warm, c with
       | false, some c => s.raise 0x62 c
       | _, _ => s)
  else s)

/-- BOOT_FIRST_RELEASE (03 R69 t7; 09 R239): the start ends, so the first tasks are released, and orphaned holds of channels that Keore
does not map end. -/
def execBootFirstRelease (s : State) : Out :=
  .next (if s.sys.boot = 6 then
    let s := { s with sys := { s.sys with boot := 7 } }
    let s := if s.keo.st = 1 ∧ s.keo.startH.isNone then s.startDone else s
    ((s.leadsOf fun _ => true).foldl (fun s n => s.releaseOrphan n) s).settle
  else s)

/-! ### t8 -/

/-- The commands that wait for a unit to leave reset complete (03 R59): units 0 to 2 the pairs, 3 the application cluster. -/
def State.leftReset (s : State) (u : Nat) : State :=
  let y := s.sys
  let l := y.rstWait.filter fun (p : Nat × Hdr) => p.1 == u
  l.foldl (fun s (p : Nat × Hdr) => s.ok p.2) { s with sys := { y with rstWait := y.rstWait.filter fun (p : Nat × Hdr) => p.1 != u } }

/-- A stage copied to its load address (03 R65, R66); one with LOAD 0 is used in place. -/
def State.loadStage (s : State) (r : List Byte) : State := if le r 16 8 = 0 then s else (s.store (le r 16 8) (stPayload r)).2

/-- The payload as it stands in its destination. -/
def State.loadedAs (s : State) (r : List Byte) : List Byte :=
  if le r 16 8 = 0 then stPayload r else memRead s.mem (le r 16 8) (stLen r)

/-- One place of a late stage tried (03 R66, R67): steps 1 to 7 on the header, then the copy to its destination, and step 8 there. -/
def State.tryLate (s : State) (typ base area : Nat) : Option (List Byte) × State :=
  match s.stageAt base area with
  | (none, s) => (none, s)
  | (some r, s) =>
    if ((s.stageFails r (stPayload r) typ area).filter fun n => n != 8).isSome then (none, s)
    else
      let s := s.loadStage r
      if (s.stageFails r (s.loadedAs r) typ area).isSome then (none, s) else (some r, s)

/-- A late stage tried in xSPI0 and then in xSPI1 (03 R67), at offset `at0` and `at1` of the windows: the code BOOTSTAT shows (03 R72),
1 xSPI0, 2 xSPI1, 3 failed, with the stage. A window whose gate is cut is not read. -/
def State.lateStage (s : State) (typ at0 at1 : Nat) : Nat × Option (List Byte) × State :=
  let area := fun (o : Nat) => 0x10000000 - o
  match (if s.cut 0x10 then (none, s) else s.tryLate typ (0x60000000 + at0) (area at0) : Option (List Byte) × State) with
  | (some r, s) => (1, some r, s)
  | (none, s) =>
    match (if s.cut 0x11 then (none, s) else s.tryLate typ (0x70000000 + at1) (area at1) : Option (List Byte) × State) with
    | (some r, s) => (2, some r, s)
    | (none, s) => (3, none, s)

/-- A real-time pair leaves reset with its verified stage, or stays held because the stage failed from both sources (03 R70). -/
def State.lateRt (s : State) (k at0 at1 : Nat) : Nat × State :=
  let (res, r, s) := s.lateStage (if k = 0 then 4 else 5) at0 at1
  (res, match r with
    | some r =>
      (({ s with sys := { s.sys with rtHeld := s.sys.rtHeld.filter (· != k) } }).measured (if k = 0 then 4 else 5) (k - 1) r).leftReset k
    | none => ({ s with sys := { s.sys with rtBad := s.sys.rtBad ++ [k] } }).raise (if k = 0 then 0x15 else 0x16) (if k = 0 then 0 else 5))

/-- The application cluster leaves reset with its verified loader, or stays held (03 R70). -/
def State.lateApp (s : State) (at0 at1 : Nat) : Nat × State :=
  let (res, r, s) := s.lateStage 6 at0 at1
  (res, match r with
    | some r => (({ s with sys := { s.sys with appHeld := false } }).measured 6 0 r).leftReset 3
    | none => s.raise 0x16 6)

/-- BOOT_LATE_STAGES (03 R66, R67, R69 t8, R70, R71): LPDDR5 is trained once its leave is granted, and the secure partition, the images of
RT1 and RT2 and the application loader are verified from xSPI0 or xSPI1, loaded, measured and released. Where in the flash they stand is
not stated: `at0` and `at1` list the offsets of the four in each window (log 32). -/
def execBootLateStages (at0 at1 : List Nat) (s : State) : Out :=
  .next (if s.sys.boot ≠ 7 then s
    else match s.handleIdx s.sys.ddrH with
    | none => s.askDdr
    | some i =>
      if (s.admEnt i).st ≠ 2 then s
      else
        let o := fun (l : List Nat) (i : Nat) => (l[i]?).getD 0
        let s := { s with sys := { s.sys with boot := 8, ddrOk := true } }
        let s := s.freeHandle s.sys.ddrH
        let s := { s with sys := { s.sys with ddrH := noHandle } }
        let (a, s) := s.lateRt 0 (o at0 0) (o at1 0)
        let (b, s) := s.lateRt 1 (o at0 1) (o at1 1)
        let (c, s) := s.lateRt 2 (o at0 2) (o at1 2)
        let (d, s) := s.lateApp (o at0 3) (o at1 3)
        ({ s with sys := { s.sys with rtsec := a, rtx := if b = 3 ∨ c = 3 then 3 else Nat.max b c, appl := d } }).settle)

end Sys2Proof.Machine
end

