-- ==== Sys2Proof/Machine/Power.lean ====
section
/-! DEFINITION. The profile, the life cycle, the fuses, stage updates, and module sleep (01 R27, R28; 03 R73 to R79; 13 R337, R346;
17 R430). -/
namespace Sys2Proof.Machine
open Sys2Proof

/-! ### SYS.PROFILE -/

/-- SYS.PROFILE (05 R118; 01 R27, R28): a change to LATENCY first asks leave for six cores. -/
def execSysProfile (h : Hdr) (profile : Nat) (s : State) : Out :=
  let y := s.sys
  fwCmd h s (s.guarded h [noEpoch h, t01 h, bp (decide (1 < profile)) 0x12]
    (if profile = y.prof then s.ok h y.prof
     else if y.profBusy then s.fail h .busy 0x03
     else
       let s := { s with sys := { y with profBusy := true, profTarget := profile, profCmd := some h } }
       if profile = 1 then (s.accepted h 0x01).inflightState h 4
       else s.requestOp h 8 3600 (.sysProfile h profile) []))

/-- A frame slot holds a frame of the express lane. -/
def onExpress (t : Option Tx) : Bool := (t.map fun (x : Tx) => x.express).getD false

/-- A frame is still on the express lane (01 R28): on the line, or preempted and waiting for its next fragment. -/
def State.expressBusy (s : State) : Bool := s.net.port.any fun (p : Nat × Port) => onExpress p.2.tx || onExpress p.2.pre

/-- The transition in progress has ended: the profile is the target, and its grant is held while LATENCY lasts (07 R164). -/
def State.profileDone (s : State) (h : Hdr) (hd : Nat) : State :=
  let t := s.sys.profTarget
  let s := if t = 1 then s.freeHandle s.sys.profH else s
  let s := { s with sys := { s.sys with prof := t, hperf := t == 0, profBusy := false, profCmd := none, profH := hd } }
  ((s.dropOp h).ok h t).settle

/-- PROFILE_TRANSITION_END (01 R28): to EFFICIENCY once the express lane is empty, to LATENCY after the grant. A refusal or the
deadline has ended the command already (07 R168). -/
def execProfileTransitionEnd (s : State) : Out :=
  .next (match s.sys.profCmd with
    | none => s
    | some h =>
      if !s.live || !s.sys.profBusy then s
      else if s.sys.profTarget = 1 then (if s.expressBusy then s else s.profileDone h noHandle)
      else match s.opOf h with
        | some o => if o.running then s.profileDone h o.handle else s
        | none => s)

/-! ### Life cycle and fuses -/

/-- Signers of the tokens a transition needs, Thenuvex tokens and owner tokens (03 R75); none for one that is not listed. -/
def lcTokens (cur target : Nat) : Option (Nat × Nat) :=
  if cur = 0 ∧ target = 1 then some (1, 0)
  else if cur = 1 ∧ (target = 2 ∨ target = 3) then some (0, 1)
  else if cur = 3 ∧ target = 4 then some (1, 1)
  else if 1 ≤ cur ∧ cur ≤ 4 ∧ target = 5 then some (0, 1)
  else none

/-- Bytes of a token: its header and 32 bytes. -/
def tokenLen : Nat := hdrLen + 32

/-- The tokens placed end to end, as many as the transition needs. Bytes of the descriptor behind them are not looked at: the spec does
not speak of a surplus token (DESIGN CHOICE, log 50). -/
def tokensOf (n : Nat) (r : List Byte) : List (List Byte) := (List.range n).map fun i => slice r (tokenLen * i) tokenLen

/-- The step of 03 R66 at which a set of tokens fails; a set with other signers than R75 asks for fails at step 2. -/
def State.tokensFail (s : State) (l : List (List Byte)) (n0 : Nat) : Option Nat :=
  if l.any fun t => !stForm t 7 tokenLen then some 1
  else if (l.filter fun t => stSigner t == 0).length ≠ n0 then some 2
  else (l.filterMap fun t => s.stageFails t (stPayload t) 7 tokenLen).head?

/-- A token names this transition and this device (03 R75). -/
def State.tokenFor (s : State) (target : Nat) (t : List Byte) : Bool :=
  slice t 36 16 == s.sys.uid && stPayload t == toLE 4 target ++ toLE 4 s.sys.lcCur ++ fitTo 16 s.sys.uid ++ zeros 8

/-- SYS.LIFECYCLE (05 R118; 03 R74, R75; 18 R465: the tokens are verified in the Signet engine, log 64). -/
def execSysLifecycle (h : Hdr) (addr len target : Nat) (s : State) : Out :=
  fwCmd h s (s.withDesc h addr len [noEpoch h, t0 h] true fun r s =>
    match lcTokens s.sys.lcCur target with
    | none => s.fail h .badParam 0x1C
    | some (n0, n1) =>
      let l := tokensOf (n0 + n1) r
      s.guarded h
        [stageChk (s.tokensFail l n0), bp (!l.all (s.tokenFor target)) 0x1C,
         bp (decide (s.sys.lcCur = 1 ∧ target = 3) && s.sys.keyHash.isEmpty) 0x1C, s.gated 1]
        (s.requestOp h 4 400 (.sysLifecycle h addr len target) []))

/-- SYS.LIFECYCLE ends (03 R74, R75): the word is verified as set; the state it selects takes effect at the next C-die start. -/
def State.lifecycleEnd (s : State) (h : Hdr) (o : Op) : State := (s.finishFuse o).ok h

/-- Owner key `k` counts as unrevoked: fused, not revoked, and no revocation of it in progress. -/
def State.keyStands (s : State) (k : Nat) : Bool :=
  s.ownKeyOk k && !s.hal.ops.any fun (o : Op) => match o.cmd with
    | .sysFuse _ 2 j _ _ => j == k
    | _ => false

/-- SYS.FUSE (05 R118; 03 R76). -/
def execSysFuse (h : Hdr) (op key svn : Nat) (hash : List Byte) (s : State) : Out :=
  let counter := look (fun _ => 0) s.sys.svn key
  fwCmd h s (s.guarded h
    [noEpoch h, t0 h, bp (decide (op ≠ 1) && !allZero hash) 0x01, bp (decide (op ≠ 3 ∧ svn ≠ 0)) 0x01,
     bp (decide (op = 0 ∨ 3 < op)) 0x12,
     bp (decide (key = 0 ∨ (if op = 3 then 6 else 4) < key ∨ 31 < svn)) 0x12,
     bst (decide (op = 1 ∧ (s.sys.lcCur ≠ 1 ∨ (look (fun _ => []) s.sys.keyHash key ≠ [])))) 0x10,
     bst (decide (op = 2) && s.keyStands key && (([1, 2, 3, 4] : List Nat).filter s.keyStands).length == 1) 0x11,
     bst (decide (op = 3 ∧ counter < svn ∧ s.topSvn key < svn)) 0x12]
    (if op = 3 ∧ svn ≤ counter then s.ok h
     else s.requestOp h 4 400 (.sysFuse h op key svn hash) []))

/-! ### SYS.UPDATE -/

/-- SYS.UPDATE (05 R118; 03 R79): steps 1 to 7 now, in the Signet engine (18 R465; log 64), step 8 after the write. -/
def execSysUpdate (h : Hdr) (addr len prefer : Nat) (s : State) : Out :=
  fwCmd h s (s.withDesc h addr len [noEpoch h, t0 h] true fun r s =>
    let typ := if stType r = 2 then 2 else 1
    s.guarded h [bp (decide (1 < prefer)) 0x12, stageChk ((s.stageFails r (stPayload r) typ (copyArea typ)).filter fun n => n != 8), s.gated 1]
      (s.requestOp h 3 300 (.sysUpdate h addr len prefer) (r.take (hdrLen + stLen r))))

/-! ### Module sleep -/

/-- Some wake latch bit is set (13 R346). -/
def State.anyLatch (s : State) : Bool := s.wake.modLatch != 0 || (List.range 22).any fun g => (s.seg g).latch

/-- Some wake source of the module is armed (13 R335, R336; 17 R430). -/
def State.anyArmed (s : State) : Bool :=
  let r := s.wake.rcd
  byteAt r 1 != 0 || byteAt r 4 != 0 || le r 8 4 != 0 || ((List.range 22).any fun g => s.wakeSrc g) || (List.range 48).any fun n => (s.sw n).wakes

/-- A channel or an isolated output has its output on (13 R346). -/
def State.anyOn (s : State) : Bool := ((List.range 40).any fun n => (s.chan n).out) || (List.range 16).any fun n => s.isoOn n

/-- A segment is moved to Sleep without Pennant (13 R346 t0). -/
def State.toSleep (s : State) (g : Nat) : State :=
  if (s.seg g).xst = 3 then s
  else
    let s := if (s.seg g).xst = 2 then s else s.standby g false
    s.setSeg g { s.seg g with xst := 3, sleepAt := none, pst := 0, winAt := none, commitAt := none, retryAt := none, abort := false, woken := false }

/-- The Keore engine stops for module sleep (13 R346; 15 R367): a start or a swap first ends. -/
def State.keoreSleep (s : State) : State :=
  let h : Hdr := { ring := 16 }
  if s.keo.st = 1 then { s with keo := { s.keo with stopH := s.keo.stopH ++ [h] } }
  else if s.keo.x.st = 3 then { s with keo := { s.keo with x := { s.keo.x with later := s.keo.x.later ++ [Instr.keoreStop h] } } }
  else if s.keo.st = 2 then s.kStop
  else s

/-- Each effective switch wake source takes its reference (17 R430). -/
def State.armSwitches (s : State) : State :=
  let s := { s with inp := { s.inp with wakeSw := [] } }
  (List.range 48).foldl (fun s n => if (s.sw n).conf then s.setSw n { s.sw n with armed := (s.sw n).wakes, ref := (s.sw n).raw, diff := 0 } else s) s

/-- Instant t0 of module sleep (13 R346). -/
def State.sleepT0 (s : State) : State :=
  let s := s.keoreSleep
  let s := (List.range 22).foldl (fun s g => s.toSleep g) s
  let s := s.indCheck
  let s := (([2, 3, 4, 5, 6, 7, 8, 9] : List Nat).filter fun p => (s.port p).lst != .asleep).foldl (fun s p => s.disablePort p) s
  s.armSwitches

/-- WAKE.MODULE (05 R122; 13 R346). -/
def execWakeModule (h : Hdr) (s : State) : Out :=
  fwCmd h s (s.guarded h [noEpoch h, t0 h, bst s.anyLatch 0x11, bst (!s.anyArmed) 0x12, bst s.anyOn 0x13]
    (s.farWrite h 0 0x4E000000 0x20
      (let s := if s.wake.phase = 0 then s.sleepT0 else s
       let w := s.wake
       if w.phase = 2 then s.ok h
       else (({ s with wake := { w with phase := 1, h := w.h ++ [h], at_ := if w.phase = 0 then s.cyc else w.at_ } }).inflightState h 4).syncWake)))

/-- MODULE_SLEEP_LATCH_CHECK (13 R346 t1, t2): a wake since t0 leaves the module awake. -/
def execModuleSleepLatchCheck (s : State) : Out :=
  .next (if s.live ∧ s.wake.phase = 1 then
    let l := s.wake.h
    let s' := { s with wake := { s.wake with phase := 0, h := [] } }
    if s.anyLatch then ((l.foldl (fun s h => s.fail h .badState 0x11) s').wakeLatched).syncWake.settle
    else
      let s' := l.foldl (fun s h => s.ok h) s'
      { s' with wake := { s'.wake with phase := 2 } }
  else s)

/-- MODULE_SLEEP_POWER_OFF (13 R346 t3): the waits of 03 R61 have run; rails 2 to 5 switch off. A wake latched since t1 starts them
again at once. -/
def execModuleSleepPowerOff (s : State) : Out :=
  .next (if s.live ∧ s.wake.phase = 2 then
    let s := ((s.hal.ops.foldl (fun s o => (s.finishFuse o).cutOp o) s).survives).dropDies
    let w := s.wake
    let s := { s with sys := { s.sys with pwr := .aoOnly, boot := 0, clkSrc := .unset }
                      wake := { w with phase := 3, inhOff := true, at_ := s.cyc, pulseAt := s.cyc + msCyc 10 } }
    if s.moduleWake then s.wakeStart else s
  else s)

/-- Whether an event of `src` is a wake (13 R337): `some` where the table decides, none between its two columns. `t` is the length in ns of
the dominant, energy or level phase, of the shortest phase for the CAN pattern; `n` is that pattern's whole length, or the edge of a WAKE
pin, 0 rising and 1 falling. A WAKE pin counts only with its armed edge. -/
def State.isWake (s : State) (src t n : Nat) : Option Bool :=
  let held := fun (lo hi : Nat) => if hi ≤ t then some true else if t ≤ lo then some false else none
  if src < 8 then (if bit (byteAt (s.segRec src) 0) 1 ∨ 1000000 < n then some false else held 500 2000)
  else if src < 16 then held 30000 150000
  else if src < 22 then held 20000 100000
  else if src < 26 then
    let k := src - 22
    let edge := bits (byteAt s.wake.rcd 2) (2 * k + 1) (2 * k)
    if bit (byteAt s.wake.rcd 1) k && (edge == 2 || edge == n) then held 10000 50000 else some false
  else some true

/-- A detected wake is latched and served (13 R338, R339, R346). A TC10 wake-up while the module sleeps counts where PORTWAKE arms it. -/
def State.wokenBy (s : State) (src : Nat) : State :=
  if src < 22 then (if s.asleep src then s.wokenSeg src else s)
  else if src < 26 then (s.latchMod (src - 22)).sleepEnds
  else
    let p := src - 24
    if s.wake.phase = 3 then (if bit (byteAt s.wake.rcd 4) (src - 26) then (s.latchMod (p + 2)).sleepEnds else s)
    else if s.servesWakes then s.tc10Wake p
    else if (s.phy p).asleep then (s.setPhy p { s.phy p with asleep := false }).latchMod (p + 2)
    else s

/-- WAKE_DETECT (13 R337 to R339, R346): `src` 0 to 21 a segment, 22 to 25 WAKE0 to WAKE3, 26 to 33 SP02 to SP09. Between the two columns
of R337 whether it is a wake is a free value. -/
def execWakeDetect (src t n : Nat) (s : State) : Out :=
  unitEvent (decide (src < 34))
    (if s.sys.pwr = .off then s
     else match s.isWake src t n with
       | some w => if w then s.wokenBy src else s
       | none =>
         let (k, s) := s.draw
         if bit k 0 then s.wokenBy src else s)

/-- SLEEP_TIMER (13 R337): TIMER s after the module entered sleep, within 5 %. -/
def execSleepTimer (s : State) : Out :=
  .next (let t := le s.wake.rcd 8 4
         if s.wake.phase = 3 ∧ t ≠ 0 ∧ s.wake.at_ + msCyc (950 * t) ≤ s.cyc then (s.latchMod 13).sleepEnds else s)

/-- SLEEP_WETTING_PULSE (17 R430): every 10 ms each effective wake source is sampled, `mask` holding the levels; two consecutive
samples that differ from the reference are a wake. -/
def execSleepWettingPulse (mask : Nat) (s : State) : Out :=
  .next (if s.wake.phase = 3 ∧ s.wake.pulseAt ≤ s.cyc then
    let s := { s with wake := { s.wake with pulseAt := s.wake.pulseAt + msCyc 10 } }
    let s := ((List.range 48).filter fun n => (s.sw n).armed).foldl (fun (s : State) (n : Nat) =>
      let x := s.sw n
      let s := s.setSw n { x with diff := if bit mask n != x.ref then x.diff + 1 else 0 }
      if bit mask n != x.ref ∧ 1 ≤ x.diff then ({ s with inp := { s.inp with wakeSw := s.inp.wakeSw ++ [n] } }).latchMod 12 else s) s
    s.sleepEnds
  else s)

end Sys2Proof.Machine
end

