-- ==== Sys2Proof/Machine/Access.lean ====
section
/-! DEFINITION. Accesses of initiators to memory and register windows, tags of the application cores, and debug (01 R19, R30, R31,
R563; 18 R450 to R473; 20 R503, R504). -/
namespace Sys2Proof.Machine
open Sys2Proof

/-! ### Register windows -/

/-- The die behind a bridge window (20 R502), coded as 20 R513; none for a direct window. -/
def windowDie (a : Nat) : Option Nat :=
  let o := a % 0x1000000
  match a / 0x1000000 with
  | 0x41 =>
    some (if o < 0x2800 then 1 + chDie (o / 256)
          else if 0x4000 ≤ o ∧ o < 0x4010 then 1 + (o - 0x4000) / 8
          else if 0x4100 ≤ o ∧ o < 0x41A0 then 1 + chDie ((o - 0x4100) / 4)
          else if 0x4200 ≤ o ∧ o < 0x42A0 then 1 + chDie ((o - 0x4200) / 4)
          else 1)
  | 0x4B => some 3
  | 0x4E => some 0
  | _ => none

/-- A bridge window takes an aligned 4-byte access, or an aligned 8-byte read (20 R504). -/
def windowSizeOk (kind a n : Nat) : Bool := (n == 4 && a % 4 == 0) || (kind == 0 && n == 8 && a % 8 == 0)

/-- `n` bytes of the register words from `a` on, as a reader sees them. -/
def State.regBytes (s : State) (ini tag a n : Nat) : List Byte :=
  (List.range n).map fun i => BitVec.ofNat 8 (s.regRead ini tag ((a + i) / 4 * 4) / 256 ^ ((a + i) % 4))

/-- Address of SCHED.DT_LO (06 R138). -/
def dtAddr : Nat := 0x45000000

/-- A read of a register window: a 64-bit read of SCHED.DT is one instant, a 32-bit read of DT_LO loads the reader's latch
(06 R138). -/
def State.regReads (s : State) (ini tag a n : Nat) : List Byte × State :=
  if a = dtAddr ∧ n = 8 then (toLE 8 s.now, s)
  else
    let d := s.regBytes ini tag a n
    (d, if a = dtAddr ∧ n = 4 then (execDtLoRead ini s).orElse s else s)

/-- A 32-bit write of the register word at `a` (01 R19): doorbells (04 R107, R108), direct channel commands (08 R209) and the event
router (21 R540); every other register is a mirror, and a write has no effect (00 R7, R8). -/
def State.regWrite (s : State) (ini tag a v : Nat) : State :=
  let o := a % 0x1000000
  match a / 0x1000000 with
  | 0x41 => if o < 0x2800 ∧ o % 256 = 0 then s.directWrite ini tag (o / 256) (bits v 31 16) (bits v 15 14) (bits v 13 10) (bits v 9 0) 0 else s
  | 0x4C =>
    let n := o / 256
    let r := o % 256
    if 16 ≤ n then s
    else if r = 0 then s.doorbell ini tag n (s.setRing n { s.ring n with baseLo := v })
    else if r = 4 then
      (if bits v 31 30 = 1 then (execRingAttach ini tag n (bits v 11 8) (bits v 7 0) s).orElse s
       else if bits v 31 30 = 2 then (execRingDetach ini tag n s).orElse s
       else s.doorbell ini tag n s)
    else if r = 8 then (execCmdDb ini tag n v s).orElse s
    else if r = 12 then (execCplDb ini tag n v s).orElse s
    else s
  | 0x49 =>
    let n := (o - 0x8000) / 16
    let r := o % 16
    if o < 0x8000 ∨ 512 ≤ n then s
    else if r = 0 then (execEventCfgWrite ini tag n v s).orElse s
    else if r = 4 then (execEventPendClear ini tag n v s).orElse s
    else if r = 8 then (execEventSwtrig ini tag n v s).orElse s
    else s
  | _ => s

/-- A write of `d` to register words: every whole word takes its write (log 9). -/
def State.regWrites (s : State) (ini tag a : Nat) (d : List Byte) : State :=
  (List.range (d.length / 4)).foldl (fun s i => if a % 4 = 0 then s.regWrite ini tag (a + 4 * i) (le d (4 * i) 4) else s) s

/-! ### One access -/

/-- The access ends with a bus error (01 R31). -/
def State.busErr (s : State) : State := { s with bus := { err := true, data := [] } }

/-- The access ends with data. -/
def State.busOk (s : State) (d : List Byte) : State := { s with bus := { err := false, data := d } }

/-- The refusal of an access: outside every region, in a bank, or in the window of a cut xSPI block, a bus error alone (01 R30, R31;
18 R464); elsewhere a counted refusal (18 R454). -/
def State.refuseAccess (s : State) (ini tag kind a n : Nat) : State :=
  let plain := (List.range n).any fun i => match s.region (a + i) with
    | .hole | .bankA | .bankB => true
    | .xspi k => s.cut (0x10 + k)
    | _ => false
  (if plain || (isRv32 ini && decide (0x100000000 < a + n)) then s else s.violate ini tag kind a).busErr

/-- An access of `n` bytes by initiator `ini` presenting `tag` (18 R453, R454; 01 R563; 20 R504); false when it ended with a bus
error. -/
def State.access (s : State) (ini tag kind a n : Nat) (data : List Byte) : Bool × State :=
  if !s.spanOK ini tag kind a n then (false, s.refuseAccess ini tag kind a n)
  else if s.region a = .regs then
    match windowDie a with
    | some die =>
      if !windowSizeOk kind a n then
        let s := { s with fb := { s.fb with size := satAdd 32 s.fb.size 1 } }
        (false, (s.fbLog { addr := a, time := s.now32, die := die, code := 1, ini := ini, kind := b2n (kind == 1), tag := tag }).busErr)
      else if kind = 0 then (true, s.busOk (s.regBytes ini tag a n))
      else (true, (s.regWrites ini tag a (fitTo n data)).busOk [])
    | none =>
      if kind = 0 then
        let (d, s) := s.regReads ini tag a n
        (true, s.busOk d)
      else (true, (s.regWrites ini tag a (fitTo n data)).busOk [])
  else if kind = 1 then
    match s.store a (fitTo n data) with
    | (true, s) => (true, s.busOk [])
    | (false, s) => (false, s.busErr)
  else match s.load a n with
    | (some d, s) => (true, s.busOk d)
    | (none, s) => (false, s.busErr)

/-! ### Tags of initiators -/

/-- A unit runs (03 R69, R70; 18 R464, R469): it has been released from reset, its clock is not cut and it is not halted. -/
def State.unitRuns (s : State) (ini : Nat) : Bool :=
  s.live && !s.dbg.halted.contains ini &&
    (if ini ≤ 5 then !s.sys.appHeld
     else if 0x10 ≤ ini ∧ ini ≤ 0x12 then !s.sys.rtHeld.contains (ini - 0x10) && (ini == 0x10 || !s.cut (ini - 9))
     else if ini = 0x20 then !s.hal.mpFault
     else if ini = 0x21 then s.keo.st == 2
     else true)

/-- MEMORY_ACCESS (18 R453, R454): an access by an initiator under the tag it presents; `kind` 0 read, 1 write, 2 fetch. `more` tells
that a DMA channel goes on with its transfer, which a refused burst ends. -/
def execMemoryAccess (ini kind addr n : Nat) (data : List Byte) (more : Bool) (s : State) : Out :=
  match s.iniTag ini with
  | none => .fault .noSuchUnit
  | some tag =>
    .next (if !s.unitRuns ini ∨ n = 0 then s
      else
        let (ok, s) := s.access ini tag kind addr n data
        if isDma ini then { s with ten := { s.ten with dma := put s.ten.dma (ini - 0x30) { en := ok && more, err := !ok } } } else s)

/-- REGISTER_WRITE_OTHER (00 R7, R8; 01 R19): a write of a register word; one without a behaviour of its own has no effect. -/
def execRegisterWriteOther (ini tag addr value : Nat) (s : State) : Out :=
  .next (if s.live && s.presents ini tag then s.regWrite ini tag (addr / 4 * 4) (value % 2 ^ 32) else s)

/-- MTAG_WRITE (18 R450): machine mode writes MTAG, bits [3:0]; it takes effect at the next return. -/
def execMtagWrite (core value : Nat) (s : State) : Out :=
  unitEvent (decide (core < 6))
    (if s.unitRuns core && !s.ten.low.contains core then { s with ten := { s.ten with mtag := put s.ten.mtag core (value % 16) } } else s)

/-- MACHINE_MODE_ENTRY (18 R450). -/
def execMachineModeEntry (core : Nat) (s : State) : Out :=
  unitEvent (decide (core < 6)) (if s.unitRuns core then ({ s with ten := { s.ten with low := s.ten.low.filter (· != core) } } : State).traceGaps s else s)

/-- MACHINE_MODE_RETURN (18 R450): the value of MTAG becomes the core's tag. -/
def execMachineModeReturn (core : Nat) (s : State) : Out :=
  unitEvent (decide (core < 6))
    (if s.unitRuns core && !s.ten.low.contains core then
       ({ s with ten := { s.ten with low := s.ten.low ++ [core], mtagNow := put s.ten.mtagNow core (look (fun _ => 0) s.ten.mtag core) } } : State).traceGaps s
     else s)

/-! ### Debug -/

/-- Enables a life-cycle state allows for a tag (18 R467): non-invasive and invasive. -/
def dbgAllowed (lc tag : Nat) : Bool × Bool :=
  if lc = 5 then (false, false)
  else if tag ≠ 0 then (true, true)
  else if lc = 3 then (false, false)
  else if lc = 4 then (true, false)
  else (true, true)

/-- The tag a unit code runs under, for the units that debug can halt (18 R468). -/
def State.dbgUnitTag (s : State) (u : Nat) : Option Nat :=
  if u ≤ 5 then some (s.coreTag u)
  else if 0x10 ≤ u ∧ u ≤ 0x12 then some (s.rtTagOf (u - 0x10))
  else if u = 0x20 then some 0
  else none

/-- DEBUG.ENABLE (05 R132; 18 R467, R470): invasive debug includes the non-invasive. -/
def execDebugEnable (h : Hdr) (tag en : Nat) (s : State) : Out :=
  let inv := bit en 1
  let ni := bit en 0 || inv
  let lim := dbgAllowed s.sys.lcCur tag
  fwCmd h s (s.guarded h
    [noEpoch h, t0 h, bp (decide (3 < en)) 0x01, bp (decide (15 < tag)) 0x12, bst ((ni && !lim.1) || (inv && !lim.2)) 0x10]
    (let d := s.dbg
     let d := { d with ni := maskSet d.ni tag ni, inv := maskSet d.inv tag inv }
     if d.ni = s.dbg.ni ∧ d.inv = s.dbg.inv then s.ok h
     else
       let d := if inv then d else { d with halted := d.halted.filter (fun u => s.dbgUnitTag u != some tag), brk := d.brk.filter fun b => b.1 != tag }
       let s := ({ s with dbg := d } : State).traceGaps s
       ((s.extend 0 (toLE 4 s.dbgen ++ toLE 8 s.now ++ zeros 52)).recapture).ok h))

/-- Index of a trace source in code order (18 R471). -/
def traceIndex (src : Nat) : Option Nat :=
  if src ≤ 5 then some src else if 0x10 ≤ src ∧ src ≤ 0x12 then some (src - 10) else if src = 0x20 then some 9
  else if src = 0x21 then some 10 else none

/-- Code of a trace source. -/
def traceCode (i : Nat) : Nat := if i ≤ 5 then i else if i ≤ 8 then i + 10 else if i = 9 then 0x20 else 0x21

/-- The tag a trace source runs under. -/
def State.traceTag (s : State) (src : Nat) : Nat := (s.iniTag src).getD 0

/-- DEBUG.TRACE (05 R132; 18 R471). -/
def execDebugTrace (h : Hdr) (src enable : Nat) (s : State) : Out :=
  let i := traceIndex src
  fwCmd h s (s.guarded h
    [noEpoch h, bp i.isNone 0x11, t0 h, bp (decide (1 < enable)) 0x12, bst (!bit s.dbg.ni (s.traceTag src)) 0x10]
    ({ s with dbg := { s.dbg with trace := maskSet s.dbg.trace (i.getD 0) (enable == 1), gap := del s.dbg.gap (i.getD 0) } }.ok h))

/-- TRACE_SYNC_PACKET (18 R471): header and device time, of a source that is traced now. -/
def execTraceSyncPacket (i : Nat) (s : State) : Out :=
  unitEvent (decide (i < 11))
    (if s.live && bit s.dbg.trace i && bit s.dbg.ni (s.traceTag (traceCode i)) then
       { s with dbg := { s.dbg with out := BitVec.ofNat 8 (0x10 + i) :: toLE 8 s.now, syncAt := s.cyc } }
     else s)

/-- IDCODE (18 R466). -/
def idcode : Nat := 0x10484000 + 2 * Config.jtagMaker.toNat + 1

/-- What a debug port access does to a unit: 2 halts it (`on`) or lets it run, 3 steps a halted one, 4 sets or removes a breakpoint
at `addr`. -/
def State.dbgUnit (s : State) (op tag unit addr : Nat) (on : Bool) : State :=
  let d := s.dbg
  if op = 2 then { s with dbg := { d with halted := (d.halted.filter (· != unit)) ++ (if on then [unit] else []) } }
  else if op = 4 then { s with dbg := { d with brk := (d.brk.filter (· != (tag, unit, addr))) ++ (if on then [(tag, unit, addr)] else []) } }
  else s

/-- DEBUG_PORT_ACCESS (18 R466 to R468): `op` 0 a read, 1 a write, 2 to 4 on a unit that runs under the tag; 5 selects or leaves
EXTEST, 6 reads IDCODE. A refused access follows R454 with initiator 0x70. -/
def execDebugPortAccess (tag op unit addr n : Nat) (data : List Byte) (on : Bool) (s : State) : Out :=
  .next (if !s.live then s
    else if op = 6 then s.busOk (toLE 4 idcode)
    else if op = 5 then (if s.sys.lcCur = 3 then s else { s with dbg := { s.dbg with extest := on } })
    else
      let ok := if op = 0 then bit s.dbg.ni tag else bit s.dbg.inv tag
      if !ok then (s.violate 0x70 tag (if op = 0 then 0 else 1) addr).busErr
      else if op ≤ 1 then (if n = 0 then s else (s.access 0x70 tag op addr n data).2)
      else if s.dbgUnitTag unit = some tag then s.dbgUnit op tag unit addr on
      else (s.violate 0x70 tag 1 addr).busErr)

end Sys2Proof.Machine
end

