-- ==== Sys2Proof/Machine/Finish.lean ====
section
/-! DEFINITION. The end of long-running firmware operations, and scheduler actions reaching their targets (04 R98; 06 R150 to R154). -/
namespace Sys2Proof.Machine
open Sys2Proof

/-! ### Operations (04 R98; 07 R166) -/

/-- What the end of an operation does; `ok` is false when what was written fails its verification. A fuse word that does not verify
is programmed further: the operation goes on (none). -/
def State.opEnds (s : State) (o : Op) (ok : Bool) : Option State :=
  let h := o.h
  match o.cmd with
  | .keyWrite _ _ _ slot => some (s.keyWriteEnd h slot o.data ok)
  | .keyDerive _ slot ktype label => some (s.keyDeriveEnd h slot ktype label ok)
  | .keyErase _ slot => some (s.keyEraseEnd h slot ok)
  | .keySign _ _ _ _ out _ => some (s.keySignEnd h o out)
  | .attestReport _ out _ _ => some (s.attestEnd h o out)
  | .faultLogclr _ count => some (s.logclrEnd h count)
  | .keoreLoad _ _ _ => some (s.keoreLoadEnd h o.data ok)
  | .sysUpdate _ _ _ prefer => some (s.updateEnd h prefer o.data ok)
  | .sysLifecycle _ _ _ _ | .sysFuse _ _ _ _ _ => if ok then some ((s.finishFuse o).ok h) else none
  | _ => none

/-- LONG_RUNNING_OPERATION_END (04 R98; 07 R166): a running operation of a command ends, its grant ends, and its final completion
falls due. The Signet engine ends its operations in the order they started (19 R493). -/
def execLongRunningOperationEnd (ring ctag : Nat) (good : Bool) (s : State) : Out :=
  .next (match s.opOf { ring := ring, ctag := ctag } with
    | none => s
    | some o =>
      if !s.live || !o.running || (cmdSigns o.cmd && (s.hal.ops.find? Op.signing).map (·.h) != some o.h) then s
      else match ((s.freeHandle o.handle).dropOp o.h).opEnds o good with
        | some s' => s'.settle
        | none => s)

/-! ### Scheduler actions (06 R152 to R154) -/

/-- The first dispatched action of entry `n` that is due changed, or dropped. -/
def State.changeDisp (s : State) (n : Nat) (f : Disp → Disp) : State :=
  { s with sch := { s.sch with disp := updFirst (fun d => d.ent == n && d.due s.now) f s.sch.disp } }
def State.dropDisp (s : State) (n : Nat) : State :=
  { s with sch := { s.sch with disp := dropFirst (fun d => d.ent == n && d.due s.now) s.sch.disp } }

/-- The leave asked for entry `n` at dispatch becomes the channel's (06 R153). -/
def State.leaveToChan (s : State) (m hd : Nat) (granted : Bool) (o : Origin) : State :=
  let s := match s.handleIdx hd with
    | some i => s.setAdmEnt i { s.admEnt i with client := .chan m }
    | none => s
  s.modCh m fun c => { c with handle := hd, granted := granted, via := o }

/-- A channel action reaches its channel (06 R152, R153; 08 R189; 09 R217), unless the link is DOWN or the die takes no command
(20 R512, 09 R237). -/
def State.chanAction (s : State) (n : Nat) (d : Disp) : State :=
  let e := s.sent n
  let m := s.lead e.target
  let act := if e.action = 1 then Act.on else if e.action = 2 then .off else .pwm
  let duty := le e.rcd 6 2
  let o := Origin.sched n
  let grid := if d.pos || d.late then s.chNow m else d.trig
  if s.linkDown (1 + chDie m) || s.dieAbsent m then ((s.freeHandle d.handle).dropDisp n).firingEnds n 5
  else
    let s := s.changeDisp n fun x => { x with wait := true, trigCyc := s.cyc }
    let s := (s.protect m).modCh m fun c => { c with cmdAt := some s.cyc }
    let rec1 := fun (c : Chan) => { c with act := act, duty := if act = .pwm then duty else c.duty }
    if d.leave ≠ 0 ∧ (s.chan m).st = .off ∧ s.sys.lcCur ≠ 5 then
      let s := ((s.withdrawSched m n).modCh m rec1).leaveToChan m d.handle (d.leave == 2) (if d.leave = 2 then .none else o)
      let s := s.modCh m fun c => { c with fromOff := true }
      if d.leave = 2 then (s.turnOn m grid).report m o .applied else s.goCh m .admitWait
    else
      let s := if d.leave = 0 then s else if d.handle = outsideHandle then s.freeOutside m else s.freeHandle d.handle
      s.chCommand m act duty o (le e.rcd 30 2) grid

/-- A dispatched channel action has its turn (06 R151; 01 R18): its channel has taken no command in this cycle, no command of higher order
comes, and of the actions due for that channel this one comes first by trigger and entry number. -/
def State.actionTurn (s : State) (m : Nat) (d : Disp) : Bool :=
  (s.chan m).cmdAt != some s.cyc && !s.pending.any (s.rival m 1) &&
    s.sch.disp.all fun x => !(x.due (s.chNow m) && x.ok == 0 && s.dispLead x == some m) ||
      decide (d.trig < x.trig ∨ (d.trig = x.trig ∧ d.ent ≤ x.ent))

/-- A KEORE_REL firing (15 R375): refused for a task that is not in the image or is released on its own grid, or while the engine
does not run. -/
def State.keoreRel (s : State) (k trig : Nat) : Bool × State :=
  match imgTask s.keo.run k with
  | some t => if s.keo.st = 2 ∧ tkMode t = 1 then (true, s.kArrive k trig) else (false, s)
  | none => (false, s)

/-- An action other than a channel's reaches its target: whether it is applied (06 R152, R154). `smp` is what the target samples. -/
def State.otherAction (s : State) (n : Nat) (d : Disp) (smp : Nat) : Bool × State :=
  let e := s.sent n
  let t := e.target
  if e.action = 4 then s.adcTrig t (le e.rcd 6 2) smp d.trig
  else if e.action = 5 then (if 256 ≤ t ∧ s.linkDown 3 then (false, s) else s.inSample t (bit smp 0) d.trig)
  else if e.action = 6 then s.canRef n t s.cyc
  else if e.action = 7 then s.keoreRel t d.trig
  else (true, s.pulse t)

/-- SCHED_ACTION_APPLY (06 R150 to R154, R157): the oldest dispatched action of an entry that is due reaches its target. -/
def execSchedActionApply (ent smp : Nat) (s : State) : Out :=
  unitEvent (decide (ent < 1024))
    (match s.sch.disp.find? fun d => d.ent == ent && d.due s.now with
     | none => s
     | some d =>
       let a := (s.sent ent).action
       if !s.live then s
       else if d.ok ≠ 0 then (s.dropDisp ent).firingEnds ent d.ok
       else if 1 ≤ a ∧ a ≤ 3 then
         (if s.actionTurn (s.lead (s.sent ent).target) d then (s.chanAction ent d).settle else s)
       else
         let s := s.dropDisp ent
         let (ok, s) := s.otherAction ent d smp
         s.firingEnds ent (if ok then (if d.late then 2 else 1) else 5))

end Sys2Proof.Machine
end

