-- ==== Sys2Proof/Machine/Packets.lean ====
section
/-! DEFINITION. Command packets: what each opcode's entry says of its packet, and the command it spells (04 R89 to R91, R95;
05 R113 to R132). -/
namespace Sys2Proof.Machine
open Sys2Proof

/-- An opcode's entry: FW or HW, E, the forms of FLAGS.DESC (0 no descriptor, 1 always, 2 either), the least PLEN, the PARAM bytes its
fields take beside a descriptor (start, length), and the command. -/
structure PktRow where
  fw : Bool
  e : Bool
  desc : Nat
  need : Nat
  used : List Byte → List (Nat × Nat)
  run : Hdr → List Byte → State → Out

/-- A 40-bit address at offset 0 and its length at offset 8: a descriptor (04 R91), or OUT (05 R116). -/
def pkAddr (p : List Byte) : Nat := le p 0 5
def pkLen (p : List Byte) : Nat := le p 8 4

/-- FW entries: without a descriptor, with one, and with OUT. -/
def pkFw (need : Nat) (used : List (Nat × Nat)) (run : Hdr → List Byte → State → Out) : Option PktRow :=
  some { fw := true, e := false, desc := 0, need := need, used := fun _ => used, run := run }
def pkDesc (need : Nat) (used : List (Nat × Nat)) (run : Hdr → List Byte → State → Out) : Option PktRow :=
  some { fw := true, e := false, desc := 1, need := need, used := fun _ => used, run := run }
def pkOut (need : Nat) (used : List (Nat × Nat)) (run : Hdr → List Byte → State → Out) : Option PktRow :=
  pkFw need ((0, 5) :: (8, 4) :: used) run

/-- An entry marked E, and an HW entry. -/
def pkE (r : Option PktRow) : Option PktRow := r.map fun x => { x with e := true }
def pkHw (r : Option PktRow) : Option PktRow := r.map fun x => { x with fw := false }

/-- Entries of the SYS and CHAN families (05 R118, R119). -/
def pktSys (op : Nat) : Option PktRow :=
  match op with
  | 0x0101 => pkFw 1 [(0, 1)] fun h p => execSysReset h (byteAt p 0)
  | 0x0102 => pkFw 1 [(0, 1)] fun h p => execSysProfile h (byteAt p 0)
  | 0x0103 => pkFw 3 [(0, 3)] fun h p => execSysPincfg h (byteAt p 0) (byteAt p 1) (byteAt p 2)
  | 0x0104 => pkDesc 17 [(16, 1)] fun h p => execSysLifecycle h (pkAddr p) (pkLen p) (byteAt p 16)
  | 0x0105 => pkFw 40 [(0, 3), (8, 32)] fun h p => execSysFuse h (byteAt p 0) (byteAt p 1) (byteAt p 2) (slice p 8 32)
  | 0x0106 => pkDesc 17 [(16, 1)] fun h p => execSysUpdate h (pkAddr p) (pkLen p) (byteAt p 16)
  | 0x0107 => pkFw 1 [(0, 1)] fun h p => execSysFbpoll h (byteAt p 0)
  | 0x0108 => pkFw 12 [(0, 1), (4, 8)] fun h p => execSysWdi h (byteAt p 0) (le p 4 4) (le p 8 4)
  | 0x0201 => pkE (pkHw (pkFw 8 [(0, 8)] fun h p => execChanSet h (byteAt p 0) (byteAt p 1) (le p 2 2) (le p 4 4)))
  | 0x0202 => pkE (pkDesc 17 [(16, 1)] fun h p => execChanConfig h (pkAddr p) (pkLen p) (byteAt p 16))
  | 0x0203 => pkE (pkFw 1 [(0, 1)] fun h p => execChanClear h (byteAt p 0))
  | 0x0204 =>
    some { fw := true, e := true, desc := 0, need := 16
           used := fun p => let n := if byteAt p 0 = 2 then 2 else 4; [(0, 1 + n), (8, 2 * n)]
           run := fun h p => execChanBond h (byteAt p 0) ((List.range 4).map fun i => byteAt p (1 + i)) ((List.range 4).map fun i => le p (8 + 2 * i) 2) }
  | 0x0205 => pkE (pkFw 1 [(0, 1)] fun h p => execChanUnbond h (byteAt p 0))
  | 0x0206 => pkE (pkOut 16 [(12, 4)] fun h p => execChanCapture h (pkAddr p) (pkLen p) (byteAt p 12) (byteAt p 13) (le p 14 2))
  | _ => none

/-- Entries of the NET and CAN families (05 R120, R121). -/
def pktNet (op : Nat) : Option PktRow :=
  match op with
  | 0x0301 => pkDesc 17 [(16, 1)] fun h p => execNetPortcfg h (pkAddr p) (pkLen p) (byteAt p 16)
  | 0x0302 => pkFw 11 [(0, 2), (4, 3), (8, 3)] fun h p => execNetVlan h (le p 0 2) (le p 4 3) (le p 8 3)
  | 0x0303 => pkFw 15 [(0, 1), (2, 8), (12, 3)] fun h p => execNetFdb h (byteAt p 0) (le p 2 6) (le p 8 2) (le p 12 3)
  | 0x0304 => pkDesc 32 [(16, 2), (24, 8)] fun h p => execNetTsn h (pkAddr p) (pkLen p) (byteAt p 16) (byteAt p 17) (le p 24 8)
  | 0x0305 => pkFw 32 [(0, 5), (8, 12), (24, 8)] fun h p =>
      execNetMacsec h (byteAt p 0) (byteAt p 1) (byteAt p 2) (byteAt p 3) (byteAt p 4) (le p 8 8) (le p 16 4) (le p 24 8)
  | 0x0306 => pkFw 1 [(0, 1)] fun h p => execNetSleep h (byteAt p 0)
  | 0x0307 => pkFw 8 [(0, 1), (4, 4)] fun h p => execNetWake h (byteAt p 0) (le p 4 4)
  | 0x0308 => pkDesc 16 [] fun h p => execNetGptp h (pkAddr p) (pkLen p)
  | 0x0401 => pkDesc 17 [(16, 1)] fun h p => execCanCtrl h (pkAddr p) (pkLen p) (byteAt p 16)
  | 0x0402 => pkFw 2 [(0, 2)] fun h p => execCanMode h (byteAt p 0) (byteAt p 1)
  | 0x0403 => pkE (pkFw 9 [(0, 9)] fun h p => execCanObj h (le p 0 2) (byteAt p 2) (byteAt p 3) (le p 4 4) (byteAt p 8))
  | 0x0405 => pkFw 10 [(0, 2), (4, 6)] fun h p => execCanAuth h (byteAt p 0) (byteAt p 1) (le p 4 4) (byteAt p 8) (byteAt p 9)
  | 0x0406 => pkFw 8 [(0, 8)] fun h p => execCanTmaster h (byteAt p 0) (byteAt p 1) (le p 2 2) (le p 4 4)
  | 0x0407 => pkDesc 17 [(16, 1)] fun h p => execCanLin h (pkAddr p) (pkLen p) (byteAt p 16)
  | 0x0408 => pkFw 3 [(0, 3)] fun h p => execCanLinrun h (byteAt p 0) (byteAt p 1) (byteAt p 2)
  | _ => none

/-- CAN.TX in either form (05 R121): data after LEN are unused bytes. -/
def pktCanTx (desc : Bool) : Option PktRow :=
  if desc then pkE (pkDesc 18 [(16, 2)] fun h p => execCanTx h (le p 16 2) true (pkAddr p) (pkLen p) [])
  else
    some { fw := true, e := true, desc := 0, need := 56
           used := fun p => [(0, 3), (8, Nat.min 48 (byteAt p 2))]
           run := fun h p => execCanTx h (le p 0 2) false 0 0 (fitTo (byteAt p 2) (p.drop 8)) }

/-- Entries of the WAKE, BRIDGE and KEORE families (05 R122 to R124). -/
def pktWake (op : Nat) : Option PktRow :=
  match op with
  | 0x0501 => pkDesc 16 [] fun h p => execWakeSource h (pkAddr p) (pkLen p)
  | 0x0502 => pkFw 2 [(0, 2)] fun h p => execWakeXcvr h (byteAt p 0) (byteAt p 1)
  | 0x0503 => pkFw 9 [(0, 9)] fun h p => execWakeIndicate h (le p 0 4) (le p 4 4) (byteAt p 8)
  | 0x0504 => pkFw 0 [] fun h _ => execWakeModule h
  | 0x0505 => pkFw 2 [(0, 2)] fun h p => execWakeInh h (byteAt p 0) (byteAt p 1)
  | 0x0601 => pkE (pkFw 56 [(0, 2), (8, 48)] fun h p => execBridgeRoute h (le p 0 2) (slice p 8 48))
  | 0x0602 => pkE (pkFw 2 [(0, 2)] fun h p => execBridgeClear h (le p 0 2))
  | 0x0603 => pkFw 4 [(0, 4)] fun h p => execBridgeWakelist h (byteAt p 0) (byteAt p 1) (le p 2 2)
  | 0x0701 => pkDesc 16 [] fun h p => execKeoreLoad h (pkAddr p) (pkLen p)
  | 0x0702 => pkFw 1 [(0, 1)] fun h p => execKeoreStart h (byteAt p 0)
  | 0x0703 => pkFw 0 [] fun h _ => execKeoreStop h
  | 0x0704 => pkOut 16 [(12, 4)] fun h p => execKeoreExchange h (pkAddr p) (pkLen p) (le p 12 4)
  | 0x0705 => pkFw 16 [(0, 5), (8, 8)] fun h p => execKeoreForce h (le p 0 4) (byteAt p 4) (le p 8 8)
  | 0x0706 => pkFw 4 [(0, 4)] fun h p => execKeoreUnforce h (le p 0 4)
  | _ => none

/-- Entries of the SCHED, ADMIT, INPUT and ISO families (05 R125 to R127). -/
def pktSched (op : Nat) : Option PktRow :=
  match op with
  | 0x0801 => pkE (pkFw 40 [(0, 2), (8, 32)] fun h p => execSchedWrite h (le p 0 2) (slice p 8 32))
  | 0x0802 => pkE (pkFw 2 [(0, 2)] fun h p => execSchedClear h (le p 0 2))
  | 0x0803 => pkE (pkHw (pkFw 16 [(0, 2), (8, 8)] fun h p => execSchedArm h (le p 0 2) (le p 8 8)))
  | 0x0804 => pkE (pkHw (pkFw 2 [(0, 2)] fun h p => execSchedDisarm h (le p 0 2)))
  | 0x0805 => pkFw 16 [(0, 1), (8, 8)] fun h p => execSchedTime h (byteAt p 0) (le p 8 8)
  | 0x0901 => pkHw (pkFw 16 [(0, 2), (4, 12)] fun h p => execAdmitRequest h (byteAt p 0) (byteAt p 1) (le p 4 4) (le p 8 4) (le p 12 4))
  | 0x0902 => pkHw (pkFw 2 [(0, 2)] fun h p => execAdmitRelease h (le p 0 2))
  | 0x0903 => pkFw 16 [(0, 1), (4, 12)] fun h p => execAdmitBudget h (byteAt p 0) (le p 4 4) (le p 8 4) (le p 12 4)
  | 0x0904 => pkFw 24 [(0, 1), (4, 20)] fun h p => execAdmitWindow h (byteAt p 0) (le p 4 4) (le p 8 4) (le p 12 4) (le p 16 8)
  | 0x0A01 => pkFw 12 [(0, 12)] fun h p => execInputSw h (byteAt p 0) (byteAt p 1) (byteAt p 2) (byteAt p 3) (le p 4 4) (le p 8 2) (le p 10 2)
  | 0x0A02 => pkFw 3 [(0, 3)] fun h p => execInputAn h (byteAt p 0) (byteAt p 1) (byteAt p 2)
  | 0x0A03 => pkFw 8 [(0, 8)] fun h p => execInputPc h (byteAt p 0) (byteAt p 1) (byteAt p 2) (byteAt p 3) (le p 4 4)
  | 0x0A04 => pkFw 2 [(0, 2)] fun h p => execInputClear h (byteAt p 0) (byteAt p 1)
  | 0x0B01 => pkFw 3 [(0, 3)] fun h p => execIsoCfg h (byteAt p 0) (byteAt p 1) (byteAt p 2)
  | 0x0B02 => pkFw 2 [(0, 2)] fun h p => execIsoSet h (byteAt p 0) (byteAt p 1)
  | 0x0B03 => pkFw 1 [(0, 1)] fun h p => execIsoClear h (byteAt p 0)
  | _ => none

/-- Entries of the TEN, KEY and ATTEST families (05 R128, R131). -/
def pktTen (op : Nat) : Option PktRow :=
  match op with
  | 0x0C01 => pkE (pkFw 6 [(0, 6)] fun h p => execTenAssign h (byteAt p 0) (byteAt p 1) (le p 2 2) (le p 4 2))
  | 0x0C02 => pkFw 12 [(0, 12)] fun h p => execTenBezel h (byteAt p 0) (byteAt p 1) (byteAt p 2) (byteAt p 3) (le p 4 4) (le p 8 4)
  | 0x0C03 => pkFw 8 [(0, 5), (6, 2)] fun h p => execTenRingcfg h (byteAt p 0) (byteAt p 1) (le p 2 2) (byteAt p 4) (le p 6 2)
  | 0x0C04 => pkE (pkFw 8 [(0, 8)] fun h p => execTenClasp h (byteAt p 0) (byteAt p 1) (byteAt p 2) (byteAt p 3) (le p 4 2) (le p 6 2))
  | 0x0C05 => pkE (pkFw 40 [(0, 1), (8, 32)] fun h p => execTenPost h (byteAt p 0) (slice p 8 32))
  | 0x0C06 => pkE (pkOut 13 [(12, 1)] fun h p => execTenTake h (pkAddr p) (pkLen p) (byteAt p 12))
  | 0x0C07 => pkFw 3 [(0, 3)] fun h p => execTenGate h (le p 0 2) (byteAt p 2)
  | 0x0D01 => pkDesc 17 [(16, 1)] fun h p => execKeyWrite h (pkAddr p) (pkLen p) (byteAt p 16)
  | 0x0D02 =>
    some { fw := true, e := false, desc := 0, need := 56
           used := fun p => [(0, 3), (8, Nat.min 48 (byteAt p 2))]
           run := fun h p => execKeyDerive h (byteAt p 0) (byteAt p 1) (fitTo (byteAt p 2) (p.drop 8)) }
  | 0x0D03 => pkFw 1 [(0, 1)] fun h p => execKeyErase h (byteAt p 0)
  | 0x0D04 => pkFw 2 [(0, 2)] fun h p => execKeyPermit h (byteAt p 0) (byteAt p 1)
  | 0x0D05 => pkDesc 52 [(16, 2), (20, 12), (40, 5), (48, 4)] fun h p =>
      execKeyAead h (pkAddr p) (pkLen p) (byteAt p 16) (byteAt p 17) (slice p 20 12) (le p 40 5) (le p 48 4)
  | 0x0D06 => pkDesc 52 [(16, 1), (40, 5), (48, 4)] fun h p => execKeyCmac h (pkAddr p) (pkLen p) (byteAt p 16) (le p 40 5) (le p 48 4)
  | 0x0D07 => pkDesc 52 [(16, 1), (40, 5), (48, 4)] fun h p => execKeySign h (pkAddr p) (pkLen p) (byteAt p 16) (le p 40 5) (le p 48 4)
  | 0x0D08 => pkDesc 16 [] fun h p => execKeyVerify h (pkAddr p) (pkLen p)
  | 0x0D09 => pkOut 13 [(12, 1)] fun h p => execKeyPubkey h (pkAddr p) (pkLen p) (byteAt p 12)
  | 0x0E01 => pkOut 44 [(12, 32)] fun h p => execAttestReport h (pkAddr p) (pkLen p) (slice p 12 32)
  | 0x0E02 => pkFw 56 [(0, 1), (8, 48)] fun h p => execAttestExtend h (byteAt p 0) (slice p 8 48)
  | 0x0E03 => pkOut 12 [] fun h p => execAttestIdentity h (pkAddr p) (pkLen p)
  | _ => none

/-- Entries of the FAULT, STATE and DEBUG families (05 R132); STATE.READ is HW or FW by its object (R133). -/
def pktFault (op obj : Nat) : Option PktRow :=
  match op with
  | 0x0F01 => pkFw 6 [(0, 6)] fun h p => execFaultCfg h (le p 0 2) (byteAt p 2) (byteAt p 3) (le p 4 2)
  | 0x0F02 => pkFw 0 [] fun h _ => execFaultRecover h
  | 0x0F03 => pkFw 1 [(0, 1)] fun h p => execFaultLogclr h (byteAt p 0)
  | 0x0F04 => pkFw 2 [(0, 2)] fun h p => execFaultInject h (le p 0 2)
  | 0x0F05 => pkFw 2 [(0, 2)] fun h p => execFaultRelease h (le p 0 2)
  | 0x1001 =>
    let r := pkOut 18 [(12, 6)] fun h p => execStateRead h (pkAddr p) (pkLen p) (le p 12 2) (le p 14 2) (le p 16 2)
    match readObj obj with
    | some (_, _, true) => r
    | _ => pkHw r
  | 0x1101 => pkFw 2 [(0, 2)] fun h p => execDebugEnable h (byteAt p 0) (byteAt p 1)
  | 0x1102 => pkFw 2 [(0, 2)] fun h p => execDebugTrace h (byteAt p 0) (byteAt p 1)
  | _ => none

/-- The entry of an opcode for a packet (05 R118 to R132). -/
def pktRow (b : List Byte) : Option PktRow :=
  let op := le b 0 2
  let f := op / 256
  if f ≤ 2 then pktSys op
  else if op = 0x0404 then pktCanTx (bit (byteAt b 4) 2)
  else if f ≤ 4 then pktNet op
  else if f ≤ 7 then pktWake op
  else if f ≤ 0xB then pktSched op
  else if f ≤ 0xE then pktTen op
  else pktFault op (le b 20 2)

/-- PARAM of a packet (04 R89). -/
def pktParam (b : List Byte) : List Byte := slice b 8 56

/-- The packet's header in the command. -/
def pktHdr (ring : Nat) (b : List Byte) : Hdr := { ring := ring, ctag := le b 2 2, irq := bit (byteAt b 4) 0, epoch := le b 6 2 }

/-- Some PARAM byte that no field of the entry takes is not 0 (04 R89, R91, R94). -/
def unusedSet (r : PktRow) (p : List Byte) : Bool :=
  let used := (if r.desc = 1 then [(0, 5), (8, 4)] else []) ++ r.used p
  (List.range 56).any fun i => byteAt p i != 0 && !used.any fun (q : Nat × Nat) => decide (q.1 ≤ i) && decide (i < q.1 + q.2)

/-- Step 2 of 04 R94. -/
def pktStep2 (r : PktRow) (b : List Byte) : List Chk :=
  let p := pktParam b
  let n := byteAt b 5
  [bp (decide (8 ≤ byteAt b 4)) 0x01, bp (decide (56 < n ∨ n < r.need)) 0x02,
   bp (!allZero (p.drop n) || unusedSet r p) 0x01, bp (!r.e && le b 6 2 != 0) 0x01,
   bp (bit (byteAt b 4) 2 != (r.desc == 1)) 0x13]

end Sys2Proof.Machine
end

