-- ==== Sys2Proof/Machine/Transport.lean ====
section
/-! DEFINITION. Fetching commands from rings and starting them (04 R90, R94 to R103, R109). -/
namespace Sys2Proof.Machine
open Sys2Proof

/-- FENCE of a packet (04 R90). -/
def pktFence (b : List Byte) : Bool := bit (byteAt b 4) 1

/-- A command with FENCE that has not started holds its ring (04 R90). -/
def State.fenced (s : State) (n : Nat) : Option InFl :=
  s.hal.inflight.find? fun e => e.ring == n && pktFence e.pkt && (e.st == 2 || e.st == 3)

/-- The ring may fetch (04 R94, R100, R109): a free entry of the 768, within its quota, and no FENCE. -/
def State.mayFetch (s : State) (n : Nat) : Bool :=
  let r := s.ring n
  decide (s.hal.inflight.length < 768) && r.st == 1 && !r.stopped && r.cmdHead != r.cmdTail && decide (s.inflightCount n < Nat.min r.quota (r.entries / 2)) && (s.fenced n).isNone

/-- A command that waits behind its FENCE may start: every earlier one of its ring has its final completion written (04 R90). -/
def State.fenceReady (s : State) (n : Nat) : Bool := match s.fenced n with
  | some e => e.st == 2 && s.inflightCount n == 1
  | none => false

/-- A ring has something to do in a turn. -/
def State.hasTurn (s : State) (n : Nat) : Bool := s.mayFetch n || s.fenceReady n

/-- Ring `n` is next in the round robin (04 R94). -/
def State.nextTurn (s : State) (n : Nat) : Bool :=
  ((List.range 16).map fun i => (s.hal.rr + 1 + i) % 16).find? (fun k => s.hasTurn k) == some n

/-- A command starts (04 R95): a HW command is applied at its unit, a FW command joins the queue of the MP. -/
def State.startCmd (s : State) (n : Nat) (b : List Byte) (r : PktRow) : State :=
  let h := pktHdr n b
  if r.fw then
    let s := s.inflightState h 3
    { s with hal := { s.hal with mpq := s.hal.mpq ++ [(n, h.ctag)] } }
  else
    let s := s.inflightState h 1
    (r.run h (pktParam b) s).orElse s

/-- The in-flight entry that a fetch takes (04 R100), that of a duplicate CTAG too. -/
def State.takeEntry (s : State) (n : Nat) (b : List Byte) (fw : Bool) (i : Nat) (dup : Bool := false) : State :=
  let e : InFl := { ring := n, ctag := le b 2 2, opcode := le b 0 2, st := 1, fetched := s.now32, index := i, irq := bit (byteAt b 4) 0, fw := fw,
                    dup := dup, pkt := b }
  { s with hal := { s.hal with inflight := s.hal.inflight ++ [e] } }

/-- Firmware commands in flight on every ring: the MP queue holds no more than 128 (04 R102). -/
def State.fwInFlight (s : State) : Nat := (s.hal.inflight.filter fun e => e.fw).length

/-- The checks of 04 R94, in order; a duplicate CTAG leaves the running command alone. A firmware command that would be the 129th finds
the MP queue full and is answered as one beyond its ring's quota (log 53). -/
def State.fetchCmd (s : State) (n i : Nat) (b : List Byte) : State :=
  let h := pktHdr n b
  let dup := s.hal.inflight.any fun e => e.ring == n && e.ctag == h.ctag
  let refuse := fun (st : Status) (d : Nat) => (s.takeEntry n b false i dup).replyAt h st d 0 s.now true dup
  match pktRow b with
  | none => refuse .unsupported 0
  | some r =>
    match firstBad (pktStep2 r b) with
    | some (st, d, _) => refuse st d
    | none =>
      if dup then refuse .badParam 0x04
      else if r.fw ∧ ((s.ring n).fwQuota ≤ s.fwCount n ∨ 128 ≤ s.fwInFlight) then refuse .busy 0x01
      else if r.fw ∧ !s.mpUp then refuse .busy 0x02
      else
        let p := pktParam b
        if r.desc = 1 ∧ s.spanOK halyardIni n 0 (pkAddr p) (pkLen p) = false then refuse .badParam 0x03
        else
          let s := s.takeEntry n b r.fw i
          if pktFence b ∧ 1 < s.inflightCount n then s.inflightState h 2 else s.startCmd n b r

/-- One turn of a ring: its command behind a FENCE starts, or the next entry is read (04 R90, R94, R109). -/
def State.turn (s : State) (n : Nat) : State :=
  let s := { s with hal := { s.hal with rr := n } }
  match s.fenced n with
  | some e => match pktRow e.pkt with
    | some r => s.startCmd n e.pkt r
    | none => s
  | none =>
    let r := s.ring n
    let a := r.base + 64 * (r.cmdHead % r.entries)
    if !s.spanOK halyardIni n 0 a 64 then s.violate halyardIni n 0 a
    else match s.load a 64 true with
      | (none, s) => (s.setRing n { s.ring n with stopped := true, err := 6 }).raise 0x21 n
      | (some b, s) =>
        let s := (s.setRing n { s.ring n with cmdHead := (r.cmdHead + 1) % 2 ^ 32 }).writeControl n
        s.fetchCmd n r.cmdHead b

/-- COMMAND_FETCH (04 R94): Halyard fetches one command in the turn of ring `ring`; a ring whose turn it is not waits. -/
def execCommandFetch (ring : Nat) (s : State) : Out :=
  unitEvent (decide (ring < 16)) (if s.live && s.nextTurn ring then s.turn ring else s)

/-- The ring the MP serves next (04 R102): turns alternate between ring 0 and the others, which it serves round-robin. -/
def State.mpNext (s : State) : Option Nat :=
  let has := fun (n : Nat) => s.hal.mpq.any fun (q : Nat × Nat) => q.1 == n
  let other := ((List.range 15).map fun i => (s.hal.mpRr + i) % 15 + 1).find? has
  if has 0 && (s.hal.mpZero || other.isNone) then some 0 else other

/-- MP_COMMAND_START (04 R102): the MP takes its next command and carries it out. -/
def execMpCommandStart (s : State) : Out :=
  .next (if !s.live || !s.mpUp then s
    else match s.mpNext with
      | none => s
      | some n =>
        match s.hal.mpq.find? fun (q : Nat × Nat) => q.1 == n with
        | none => s
        | some (_, ctag) =>
          let a := s.hal
          let s := { s with hal := { a with mpq := dropFirst (· == (n, ctag)) a.mpq, mpZero := n != 0, mpRr := if n = 0 then a.mpRr else n } }
          match s.inflightOf n ctag with
          | none => s
          | some e =>
            let h := pktHdr n e.pkt
            let s := s.inflightState h 4
            match pktRow e.pkt with
            | some r => (r.run h (pktParam e.pkt) s).orElse s
            | none => s)

end Sys2Proof.Machine
end

