-- ==== Sys2Proof/Machine/Dispatch.lean ====
section
/-! DEFINITION. exec: one arm per command, each one direct call of that command's meaning. -/
namespace Sys2Proof.Machine
open Sys2Proof

-- The effect of one command on everything but the queue.
def exec (i : Instr) (s : State) : Host.Outcome State Fault Refusal :=
  match i with
  | .kNop => Sys2Proof.Machine.execKNop s
  | .kLdb d base byte bit => Sys2Proof.Machine.execKLdb d base byte bit s
  | .kStb d base byte bit => Sys2Proof.Machine.execKStb d base byte bit s
  | .kSetb d base byte bit => Sys2Proof.Machine.execKSetb d base byte bit s
  | .kRstb d base byte bit => Sys2Proof.Machine.execKRstb d base byte bit s
  | .kAndb d base byte bit => Sys2Proof.Machine.execKAndb d base byte bit s
  | .kOrb d base byte bit => Sys2Proof.Machine.execKOrb d base byte bit s
  | .kXorb d base byte bit => Sys2Proof.Machine.execKXorb d base byte bit s
  | .kAndnb d base byte bit => Sys2Proof.Machine.execKAndnb d base byte bit s
  | .kLd d base off t => Sys2Proof.Machine.execKLd d base off t s
  | .kSt d base off t => Sys2Proof.Machine.execKSt d base off t s
  | .kLdx d base x off t => Sys2Proof.Machine.execKLdx d base x off t s
  | .kStx d base x off t => Sys2Proof.Machine.execKStx d base x off t s
  | .kLea d base off => Sys2Proof.Machine.execKLea d base off s
  | .kAdd d a b t => Sys2Proof.Machine.execKAdd d a b t s
  | .kSub d a b t => Sys2Proof.Machine.execKSub d a b t s
  | .kMul d a b t => Sys2Proof.Machine.execKMul d a b t s
  | .kDiv d a b t => Sys2Proof.Machine.execKDiv d a b t s
  | .kMod d a b t => Sys2Proof.Machine.execKMod d a b t s
  | .kMin d a b t => Sys2Proof.Machine.execKMin d a b t s
  | .kMax d a b t => Sys2Proof.Machine.execKMax d a b t s
  | .kNeg d a t => Sys2Proof.Machine.execKNeg d a t s
  | .kAbs d a t => Sys2Proof.Machine.execKAbs d a t s
  | .kAnd d a b t => Sys2Proof.Machine.execKAnd d a b t s
  | .kOr d a b t => Sys2Proof.Machine.execKOr d a b t s
  | .kXor d a b t => Sys2Proof.Machine.execKXor d a b t s
  | .kNot d a t => Sys2Proof.Machine.execKNot d a t s
  | .kShl d a b t => Sys2Proof.Machine.execKShl d a b t s
  | .kShr d a b t => Sys2Proof.Machine.execKShr d a b t s
  | .kRol d a b t => Sys2Proof.Machine.execKRol d a b t s
  | .kRor d a b t => Sys2Proof.Machine.execKRor d a b t s
  | .kCeq d a b t => Sys2Proof.Machine.execKCeq d a b t s
  | .kCne d a b t => Sys2Proof.Machine.execKCne d a b t s
  | .kClt d a b t => Sys2Proof.Machine.execKClt d a b t s
  | .kCle d a b t => Sys2Proof.Machine.execKCle d a b t s
  | .kCgt d a b t => Sys2Proof.Machine.execKCgt d a b t s
  | .kCge d a b t => Sys2Proof.Machine.execKCge d a b t s
  | .kSel d a b t => Sys2Proof.Machine.execKSel d a b t s
  | .kCvt d a f t => Sys2Proof.Machine.execKCvt d a f t s
  | .kSqrt d a t => Sys2Proof.Machine.execKSqrt d a t s
  | .kTrunc d a t => Sys2Proof.Machine.execKTrunc d a t s
  | .kMov d a t => Sys2Proof.Machine.execKMov d a t s
  | .kLdi d imm => Sys2Proof.Machine.execKLdi d imm s
  | .kLui d imm => Sys2Proof.Machine.execKLui d imm s
  | .kAddi d imm => Sys2Proof.Machine.execKAddi d imm s
  | .kBfx d a pos len => Sys2Proof.Machine.execKBfx d a pos len s
  | .kBfi d a pos len => Sys2Proof.Machine.execKBfi d a pos len s
  | .kJmp disp => Sys2Proof.Machine.execKJmp disp s
  | .kJt c disp => Sys2Proof.Machine.execKJt c disp s
  | .kJf c disp => Sys2Proof.Machine.execKJf c disp s
  | .kCall c disp => Sys2Proof.Machine.execKCall c disp s
  | .kRet => Sys2Proof.Machine.execKRet s
  | .kNow d => Sys2Proof.Machine.execKNow d s
  | .kNowr d => Sys2Proof.Machine.execKNowr d s
  | .kEnd => Sys2Proof.Machine.execKEnd s
  | .kTon g base off => Sys2Proof.Machine.execKTon g base off s
  | .kTof g base off => Sys2Proof.Machine.execKTof g base off s
  | .kTp g base off => Sys2Proof.Machine.execKTp g base off s
  | .kRtrig g base off => Sys2Proof.Machine.execKRtrig g base off s
  | .kFtrig g base off => Sys2Proof.Machine.execKFtrig g base off s
  | .kCtu g base off => Sys2Proof.Machine.execKCtu g base off s
  | .kCtd g base off => Sys2Proof.Machine.execKCtd g base off s
  | .kSr g base off => Sys2Proof.Machine.execKSr g base off s
  | .kRs g base off => Sys2Proof.Machine.execKRs g base off s
  | .kRamp g base off => Sys2Proof.Machine.execKRamp g base off s
  | .kPid g base off => Sys2Proof.Machine.execKPid g base off s
  | .kLimit d a b t => Sys2Proof.Machine.execKLimit d a b t s
  | .sysReset h scope => Sys2Proof.Machine.execSysReset h scope s
  | .sysProfile h profile => Sys2Proof.Machine.execSysProfile h profile s
  | .sysPincfg h pin func pull => Sys2Proof.Machine.execSysPincfg h pin func pull s
  | .sysLifecycle h addr len target => Sys2Proof.Machine.execSysLifecycle h addr len target s
  | .sysFuse h op key svn hash => Sys2Proof.Machine.execSysFuse h op key svn hash s
  | .sysUpdate h addr len prefer => Sys2Proof.Machine.execSysUpdate h addr len prefer s
  | .sysFbpoll h poll => Sys2Proof.Machine.execSysFbpoll h poll s
  | .sysWdi h enable tmax tmin => Sys2Proof.Machine.execSysWdi h enable tmax tmin s
  | .chanSet h ch act duty deadline => Sys2Proof.Machine.execChanSet h ch act duty deadline s
  | .chanConfig h addr len ch => Sys2Proof.Machine.execChanConfig h addr len ch s
  | .chanClear h ch => Sys2Proof.Machine.execChanClear h ch s
  | .chanBond h count members epochs => Sys2Proof.Machine.execChanBond h count members epochs s
  | .chanUnbond h ch => Sys2Proof.Machine.execChanUnbond h ch s
  | .chanCapture h out outLen ch kind count => Sys2Proof.Machine.execChanCapture h out outLen ch kind count s
  | .netPortcfg h addr len port => Sys2Proof.Machine.execNetPortcfg h addr len port s
  | .netVlan h vid member untag => Sys2Proof.Machine.execNetVlan h vid member untag s
  | .netFdb h op mac vid mask => Sys2Proof.Machine.execNetFdb h op mac vid mask s
  | .netTsn h addr len table port base => Sys2Proof.Machine.execNetTsn h addr len table port base s
  | .netMacsec h port op an dir locket sci ssci pn => Sys2Proof.Machine.execNetMacsec h port op an dir locket sci ssci pn s
  | .netSleep h port => Sys2Proof.Machine.execNetSleep h port s
  | .netWake h port deadline => Sys2Proof.Machine.execNetWake h port deadline s
  | .netGptp h addr len => Sys2Proof.Machine.execNetGptp h addr len s
  | .canCtrl h addr len ctrl => Sys2Proof.Machine.execCanCtrl h addr len ctrl s
  | .canMode h ctrl mode => Sys2Proof.Machine.execCanMode h ctrl mode s
  | .canObj h obj fmt enable id ctrl => Sys2Proof.Machine.execCanObj h obj fmt enable id ctrl s
  | .canTx h obj desc addr len data => Sys2Proof.Machine.execCanTx h obj desc addr len data s
  | .canAuth h ctrl op id locket maclen => Sys2Proof.Machine.execCanAuth h ctrl op id locket maclen s
  | .canTmaster h ctrl enable entry id => Sys2Proof.Machine.execCanTmaster h ctrl enable entry id s
  | .canLin h addr len lin => Sys2Proof.Machine.execCanLin h addr len lin s
  | .canLinrun h lin table mode => Sys2Proof.Machine.execCanLinrun h lin table mode s
  | .wakeSource h addr len => Sys2Proof.Machine.execWakeSource h addr len s
  | .wakeXcvr h seg st => Sys2Proof.Machine.execWakeXcvr h seg st s
  | .wakeIndicate h mask deadline attempts => Sys2Proof.Machine.execWakeIndicate h mask deadline attempts s
  | .wakeModule h => Sys2Proof.Machine.execWakeModule h s
  | .wakeInh h mask level => Sys2Proof.Machine.execWakeInh h mask level s
  | .bridgeRoute h entry rec => Sys2Proof.Machine.execBridgeRoute h entry rec s
  | .bridgeClear h entry => Sys2Proof.Machine.execBridgeClear h entry s
  | .bridgeWakelist h seg op entry => Sys2Proof.Machine.execBridgeWakelist h seg op entry s
  | .keoreLoad h addr len => Sys2Proof.Machine.execKeoreLoad h addr len s
  | .keoreStart h mode => Sys2Proof.Machine.execKeoreStart h mode s
  | .keoreStop h => Sys2Proof.Machine.execKeoreStop h s
  | .keoreExchange h out outLen deadline => Sys2Proof.Machine.execKeoreExchange h out outLen deadline s
  | .keoreForce h vartag typ value => Sys2Proof.Machine.execKeoreForce h vartag typ value s
  | .keoreUnforce h vartag => Sys2Proof.Machine.execKeoreUnforce h vartag s
  | .schedWrite h entry rec => Sys2Proof.Machine.execSchedWrite h entry rec s
  | .schedClear h entry => Sys2Proof.Machine.execSchedClear h entry s
  | .schedArm h entry trigger => Sys2Proof.Machine.execSchedArm h entry trigger s
  | .schedDisarm h entry => Sys2Proof.Machine.execSchedDisarm h entry s
  | .schedTime h op value => Sys2Proof.Machine.execSchedTime h op value s
  | .admitRequest h typ budget amount duration deadline => Sys2Proof.Machine.execAdmitRequest h typ budget amount duration deadline s
  | .admitRelease h grant => Sys2Proof.Machine.execAdmitRelease h grant s
  | .admitBudget h budget limit charge reserve => Sys2Proof.Machine.execAdmitBudget h budget limit charge reserve s
  | .admitWindow h enable frame phase length start => Sys2Proof.Machine.execAdmitWindow h enable frame phase length start s
  | .inputSw h input wet deb flags maxact chatter window => Sys2Proof.Machine.execInputSw h input wet deb flags maxact chatter window s
  | .inputAn h an conv deb => Sys2Proof.Machine.execInputAn h an conv deb s
  | .inputPc h pc mode deb zpre preset => Sys2Proof.Machine.execInputPc h pc mode deb zpre preset s
  | .inputClear h input what => Sys2Proof.Machine.execInputClear h input what s
  | .isoCfg h ch mode deb => Sys2Proof.Machine.execIsoCfg h ch mode deb s
  | .isoSet h ch value => Sys2Proof.Machine.execIsoSet h ch value s
  | .isoClear h ch => Sys2Proof.Machine.execIsoClear h ch s
  | .tenAssign h kind tag index count => Sys2Proof.Machine.execTenAssign h kind tag index count s
  | .tenBezel h range tag enable perms base size => Sys2Proof.Machine.execTenBezel h range tag enable perms base size s
  | .tenRingcfg h ring enable quota fwquota event => Sys2Proof.Machine.execTenRingcfg h ring enable quota fwquota event s
  | .tenClasp h clasp op tagA tagB evA evB => Sys2Proof.Machine.execTenClasp h clasp op tagA tagB evA evB s
  | .tenPost h clasp msg => Sys2Proof.Machine.execTenPost h clasp msg s
  | .tenTake h out outLen clasp => Sys2Proof.Machine.execTenTake h out outLen clasp s
  | .tenGate h gate op => Sys2Proof.Machine.execTenGate h gate op s
  | .keyWrite h addr len slot => Sys2Proof.Machine.execKeyWrite h addr len slot s
  | .keyDerive h slot ktype label => Sys2Proof.Machine.execKeyDerive h slot ktype label s
  | .keyErase h slot => Sys2Proof.Machine.execKeyErase h slot s
  | .keyPermit h slot allow => Sys2Proof.Machine.execKeyPermit h slot allow s
  | .keyAead h addr len slot op iv out outLen => Sys2Proof.Machine.execKeyAead h addr len slot op iv out outLen s
  | .keyCmac h addr len slot out outLen => Sys2Proof.Machine.execKeyCmac h addr len slot out outLen s
  | .keySign h addr len slot out outLen => Sys2Proof.Machine.execKeySign h addr len slot out outLen s
  | .keyVerify h addr len => Sys2Proof.Machine.execKeyVerify h addr len s
  | .keyPubkey h out outLen slot => Sys2Proof.Machine.execKeyPubkey h out outLen slot s
  | .attestReport h out outLen nonce => Sys2Proof.Machine.execAttestReport h out outLen nonce s
  | .attestExtend h len data => Sys2Proof.Machine.execAttestExtend h len data s
  | .attestIdentity h out outLen => Sys2Proof.Machine.execAttestIdentity h out outLen s
  | .faultCfg h src sev event line => Sys2Proof.Machine.execFaultCfg h src sev event line s
  | .faultRecover h => Sys2Proof.Machine.execFaultRecover h s
  | .faultLogclr h count => Sys2Proof.Machine.execFaultLogclr h count s
  | .faultInject h src => Sys2Proof.Machine.execFaultInject h src s
  | .faultRelease h src => Sys2Proof.Machine.execFaultRelease h src s
  | .stateRead h out outLen obj index count => Sys2Proof.Machine.execStateRead h out outLen obj index count s
  | .debugEnable h tag en => Sys2Proof.Machine.execDebugEnable h tag en s
  | .debugTrace h src enable => Sys2Proof.Machine.execDebugTrace h src enable s
  | .captureTrigger ch => Sys2Proof.Machine.execCaptureTrigger ch s
  | .gateCutApply gate => Sys2Proof.Machine.execGateCutApply gate s
  | .debugPortAccess tag op unit addr n data on => Sys2Proof.Machine.execDebugPortAccess tag op unit addr n data on s
  | .cmdDb ini tag n value => Sys2Proof.Machine.execCmdDb ini tag n value s
  | .cplDb ini tag n value => Sys2Proof.Machine.execCplDb ini tag n value s
  | .ringAttach ini tag n size hi => Sys2Proof.Machine.execRingAttach ini tag n size hi s
  | .ringDetach ini tag n => Sys2Proof.Machine.execRingDetach ini tag n s
  | .commandFetch ring => Sys2Proof.Machine.execCommandFetch ring s
  | .completionPublish ring => Sys2Proof.Machine.execCompletionPublish ring s
  | .directCmdOff ini tag ch epoch reserved => Sys2Proof.Machine.execDirectCmdOff ini tag ch epoch reserved s
  | .directCmdOn ini tag ch epoch reserved => Sys2Proof.Machine.execDirectCmdOn ini tag ch epoch reserved s
  | .directCmdPwm ini tag ch epoch reserved duty => Sys2Proof.Machine.execDirectCmdPwm ini tag ch epoch reserved duty s
  | .eventCfgWrite ini tag n value => Sys2Proof.Machine.execEventCfgWrite ini tag n value s
  | .eventPendClear ini tag n value => Sys2Proof.Machine.execEventPendClear ini tag n value s
  | .eventSwtrig ini tag n value => Sys2Proof.Machine.execEventSwtrig ini tag n value s
  | .registerWriteOther ini tag addr value => Sys2Proof.Machine.execRegisterWriteOther ini tag addr value s
  | .dtLoRead ini => Sys2Proof.Machine.execDtLoRead ini s
  | .mtagWrite core value => Sys2Proof.Machine.execMtagWrite core value s
  | .memoryAccess ini kind addr n data more => Sys2Proof.Machine.execMemoryAccess ini kind addr n data more s
  | .railsValid edges => Sys2Proof.Machine.execRailsValid edges s
  | .bootBcrApply tab items => Sys2Proof.Machine.execBootBcrApply tab items s
  | .bootLateStages at0 at1 => Sys2Proof.Machine.execBootLateStages at0 at1 s
  | .mpFault kind => Sys2Proof.Machine.execMpFault kind s
  | .rtPairFault k kind => Sys2Proof.Machine.execRtPairFault k kind s
  | .cdieOvertemp temp => Sys2Proof.Machine.execCdieOvertemp temp s
  | .safeNChange low => Sys2Proof.Machine.execSafeNChange low s
  | .syncReception second port offset => Sys2Proof.Machine.execSyncReception second port offset s
  | .pcEdge k a b => Sys2Proof.Machine.execPcEdge k a b s
  | .pcZEdge k => Sys2Proof.Machine.execPcZEdge k s
  | .schedDispatch ent => Sys2Proof.Machine.execSchedDispatch ent s
  | .schedActionApply ent smp => Sys2Proof.Machine.execSchedActionApply ent smp s
  | .admitGrantEnd ix => Sys2Proof.Machine.execAdmitGrantEnd ix s
  | .admitDeadline ix => Sys2Proof.Machine.execAdmitDeadline ix s
  | .admitHold k => Sys2Proof.Machine.execAdmitHold k s
  | .turnOnEnd ch => Sys2Proof.Machine.execTurnOnEnd ch s
  | .slewDeadline ch => Sys2Proof.Machine.execSlewDeadline ch s
  | .turnOffEnd ch => Sys2Proof.Machine.execTurnOffEnd ch s
  | .pwmPeriodStart ch => Sys2Proof.Machine.execPwmPeriodStart ch s
  | .pwmOffEdge ch => Sys2Proof.Machine.execPwmOffEdge ch s
  | .protectOc ch => Sys2Proof.Machine.execProtectOc ch s
  | .protectSc ch => Sys2Proof.Machine.execProtectSc ch s
  | .protectOt ch tj => Sys2Proof.Machine.execProtectOt ch tj s
  | .protectDt ch tj => Sys2Proof.Machine.execProtectDt ch tj s
  | .retryRestart ch => Sys2Proof.Machine.execRetryRestart ch s
  | .retryCounterReset ch => Sys2Proof.Machine.execRetryCounterReset ch s
  | .currentSample ch cur vout tj vb => Sys2Proof.Machine.execCurrentSample ch cur vout tj vb s
  | .openLoadOn ch => Sys2Proof.Machine.execOpenLoadOn ch s
  | .offStateTest ch v1 v2 => Sys2Proof.Machine.execOffStateTest ch v1 v2 s
  | .buntingImbalance n => Sys2Proof.Machine.execBuntingImbalance n s
  | .groupUndervoltage g mv => Sys2Proof.Machine.execGroupUndervoltage g mv s
  | .groupUvRecover g mv => Sys2Proof.Machine.execGroupUvRecover g mv s
  | .groupOvervoltage g mv => Sys2Proof.Machine.execGroupOvervoltage g mv s
  | .reversePolarity g on => Sys2Proof.Machine.execReversePolarity g on s
  | .dieTempHigh d temp => Sys2Proof.Machine.execDieTempHigh d temp s
  | .cDieAbsent d => Sys2Proof.Machine.execCDieAbsent d s
  | .cDiePresent d => Sys2Proof.Machine.execCDiePresent d s
  | .orphanHoldEnd ch => Sys2Proof.Machine.execOrphanHoldEnd ch s
  | .frameIngress port data good ago dma frags => Sys2Proof.Machine.execFrameIngress port data good ago dma frags s
  | .cellWrite ix ecc => Sys2Proof.Machine.execCellWrite ix ecc s
  | .cellRead k ecc => Sys2Proof.Machine.execCellRead k ecc s
  | .rsqGap o ix c => Sys2Proof.Machine.execRsqGap o ix c s
  | .transmitStart p => Sys2Proof.Machine.execTransmitStart p s
  | .transmitEnd p dma buf => Sys2Proof.Machine.execTransmitEnd p dma buf s
  | .gateEntryChange p => Sys2Proof.Machine.execGateEntryChange p s
  | .gateListSwitch p => Sys2Proof.Machine.execGateListSwitch p s
  | .fdbAgeout ix => Sys2Proof.Machine.execFdbAgeout ix s
  | .cbRecoveryReset ix => Sys2Proof.Machine.execCbRecoveryReset ix s
  | .linkTrainingDone port => Sys2Proof.Machine.execLinkTrainingDone port s
  | .linkTrainingTimeout port => Sys2Proof.Machine.execLinkTrainingTimeout port s
  | .linkRetryTimer port => Sys2Proof.Machine.execLinkRetryTimer port s
  | .linkLoss port => Sys2Proof.Machine.execLinkLoss port s
  | .mdioPoll port up => Sys2Proof.Machine.execMdioPoll port up s
  | .usxgmiiInbandWord port word => Sys2Proof.Machine.execUsxgmiiInbandWord port word s
  | .tc10SleepRequestRx port => Sys2Proof.Machine.execTc10SleepRequestRx port s
  | .tc10SleepAckRx port => Sys2Proof.Machine.execTc10SleepAckRx port s
  | .tc10SleepAbort port => Sys2Proof.Machine.execTc10SleepAbort port s
  | .tc10WakeupRx port => Sys2Proof.Machine.execTc10WakeupRx port s
  | .canFrameReceive c frame ago => Sys2Proof.Machine.execCanFrameReceive c frame ago s
  | .canTxStart c => Sys2Proof.Machine.execCanTxStart c s
  | .canTxDone c tdc => Sys2Proof.Machine.execCanTxDone c tdc s
  | .canTxError c kind exc => Sys2Proof.Machine.execCanTxError c kind exc s
  | .canBusIntegration c => Sys2Proof.Machine.execCanBusIntegration c s
  | .canModeFrameEnd c => Sys2Proof.Machine.execCanModeFrameEnd c s
  | .canBusoffRecoveryStart c => Sys2Proof.Machine.execCanBusoffRecoveryStart c s
  | .canBusoffRecoveryEnd c => Sys2Proof.Machine.execCanBusoffRecoveryEnd c s
  | .canRefmsgTimeout c => Sys2Proof.Machine.execCanRefmsgTimeout c s
  | .freshnessSave ix => Sys2Proof.Machine.execFreshnessSave ix s
  | .d2dError link => Sys2Proof.Machine.execD2dError link s
  | .linSlotStart l err => Sys2Proof.Machine.execLinSlotStart l err s
  | .linResponseRx l data code ago => Sys2Proof.Machine.execLinResponseRx l data code ago s
  | .linNoResponse l => Sys2Proof.Machine.execLinNoResponse l s
  | .wakeDetect src t n => Sys2Proof.Machine.execWakeDetect src t n s
  | .segmentSleepEntry sg => Sys2Proof.Machine.execSegmentSleepEntry sg s
  | .pennantReadyRx sg seq node ready => Sys2Proof.Machine.execPennantReadyRx sg seq node ready s
  | .pennantReadyTimeout sg => Sys2Proof.Machine.execPennantReadyTimeout sg s
  | .pennantCommitPoint sg => Sys2Proof.Machine.execPennantCommitPoint sg s
  | .pennantRetry sg => Sys2Proof.Machine.execPennantRetry sg s
  | .wakeIndicateDeadline ring ctag => Sys2Proof.Machine.execWakeIndicateDeadline ring ctag s
  | .sleepWettingPulse mask => Sys2Proof.Machine.execSleepWettingPulse mask s
  | .bridgeLinAgeExpiry l fid => Sys2Proof.Machine.execBridgeLinAgeExpiry l fid s
  | .sp19AvtpduReceive vid uid good msgs => Sys2Proof.Machine.execSp19AvtpduReceive vid uid good msgs s
  | .keoreTaskRelease task => Sys2Proof.Machine.execKeoreTaskRelease task s
  | .retainPassEnd good => Sys2Proof.Machine.execRetainPassEnd good s
  | .inputLevelAccept kind ix level => Sys2Proof.Machine.execInputLevelAccept kind ix level s
  | .inputStuckDetect n => Sys2Proof.Machine.execInputStuckDetect n s
  | .chatterWindowEnd n => Sys2Proof.Machine.execChatterWindowEnd n s
  | .inputUnset kind ix => Sys2Proof.Machine.execInputUnset kind ix s
  | .adcConversion c an code => Sys2Proof.Machine.execAdcConversion c an code s
  | .isoBlankingEnd ch => Sys2Proof.Machine.execIsoBlankingEnd ch s
  | .isoMismatchDetect ch => Sys2Proof.Machine.execIsoMismatchDetect ch s
  | .isoOverload ch hot => Sys2Proof.Machine.execIsoOverload ch hot s
  | .vfieldOk mv => Sys2Proof.Machine.execVfieldOk mv s
  | .vfieldLoss mv => Sys2Proof.Machine.execVfieldLoss mv s
  | .fbPoll die code hot => Sys2Proof.Machine.execFbPoll die code hot s
  | .fbPostedWrite ini tag ch word code repeats => Sys2Proof.Machine.execFbPostedWrite ini tag ch word code repeats s
  | .fbDataBurst ch smp far code repeats => Sys2Proof.Machine.execFbDataBurst ch smp far code repeats s
  | .eventPulse n => Sys2Proof.Machine.execEventPulse n s
  | .longRunningOperationEnd ring ctag good => Sys2Proof.Machine.execLongRunningOperationEnd ring ctag good s
  | .canReceiveError c kind dominant => Sys2Proof.Machine.execCanReceiveError c kind dominant s
  | .currentLimiting ch ma mv => Sys2Proof.Machine.execCurrentLimiting ch ma mv s
  | .dieTempNormal d temp => Sys2Proof.Machine.execDieTempNormal d temp s
  | .bestMasterClockDecision second self port id => Sys2Proof.Machine.execBestMasterClockDecision second self port id s
  | .preemptionVerification p good => Sys2Proof.Machine.execPreemptionVerification p good s
  | .netWakeDeadline port => Sys2Proof.Machine.execNetWakeDeadline port s
  | .machineModeEntry core => Sys2Proof.Machine.execMachineModeEntry core s
  | .machineModeReturn core => Sys2Proof.Machine.execMachineModeReturn core s
  | .traceSyncPacket src => Sys2Proof.Machine.execTraceSyncPacket src s
  | .profileTransitionEnd => Sys2Proof.Machine.execProfileTransitionEnd s
  | .keoreStartComplete => Sys2Proof.Machine.execKeoreStartComplete s
  | .exchangePrepared => Sys2Proof.Machine.execExchangePrepared s
  | .exchangeCommit => Sys2Proof.Machine.execExchangeCommit s
  | .exchangeSwapEnd => Sys2Proof.Machine.execExchangeSwapEnd s
  | .exchangeTimeout => Sys2Proof.Machine.execExchangeTimeout s
  | .bezelFillDone => Sys2Proof.Machine.execBezelFillDone s
  | .mpCommandStart => Sys2Proof.Machine.execMpCommandStart s
  | .vbatRise => Sys2Proof.Machine.execVbatRise s
  | .powerOnReset => Sys2Proof.Machine.execPowerOnReset s
  | .porstNAssert => Sys2Proof.Machine.execPorstNAssert s
  | .resetNExternal => Sys2Proof.Machine.execResetNExternal s
  | .faultResetDemand => Sys2Proof.Machine.execFaultResetDemand s
  | .bootStart => Sys2Proof.Machine.execBootStart s
  | .bootFusesRead => Sys2Proof.Machine.execBootFusesRead s
  | .bootPatchApply => Sys2Proof.Machine.execBootPatchApply s
  | .bootKeorePrepare => Sys2Proof.Machine.execBootKeorePrepare s
  | .bootFirstRelease => Sys2Proof.Machine.execBootFirstRelease s
  | .clkLoss => Sys2Proof.Machine.execClkLoss s
  | .wdiToggle => Sys2Proof.Machine.execWdiToggle s
  | .wdiTimeout => Sys2Proof.Machine.execWdiTimeout s
  | .syncTimeout => Sys2Proof.Machine.execSyncTimeout s
  | .holdoverTimeout => Sys2Proof.Machine.execHoldoverTimeout s
  | .admitRefill => Sys2Proof.Machine.execAdmitRefill s
  | .admitWindowOpen => Sys2Proof.Machine.execAdmitWindowOpen s
  | .safeLineDemand => Sys2Proof.Machine.execSafeLineDemand s
  | .leakAudit => Sys2Proof.Machine.execLeakAudit s
  | .fabricInitStart => Sys2Proof.Machine.execFabricInitStart s
  | .fabricInitDiscard => Sys2Proof.Machine.execFabricInitDiscard s
  | .fabricInitRebuild => Sys2Proof.Machine.execFabricInitRebuild s
  | .fabricInitEnd => Sys2Proof.Machine.execFabricInitEnd s
  | .sleepTimer => Sys2Proof.Machine.execSleepTimer s
  | .moduleSleepLatchCheck => Sys2Proof.Machine.execModuleSleepLatchCheck s
  | .moduleSleepPowerOff => Sys2Proof.Machine.execModuleSleepPowerOff s
  | .bridgeLookup => Sys2Proof.Machine.execBridgeLookup s
  | .retainPassStart => Sys2Proof.Machine.execRetainPassStart s
  | .isoLinkSilent => Sys2Proof.Machine.execIsoLinkSilent s
  | .isoOrphanTimeout => Sys2Proof.Machine.execIsoOrphanTimeout s
  | .tenancyTableSave => Sys2Proof.Machine.execTenancyTableSave s
  | .faultReactionStart => Sys2Proof.Machine.execFaultReactionStart s
  | .faultLogMirror => Sys2Proof.Machine.execFaultLogMirror s
  | .barrierLinkReturn => Sys2Proof.Machine.execBarrierLinkReturn s
  | .gptpSyncTransmit second => Sys2Proof.Machine.execGptpSyncTransmit second s

end Sys2Proof.Machine
end

