-- ==== Sys2Proof/Machine/Tick.lean ====
section
/-! DEFINITION. One fabric cycle of 2.5 ns: what the block's clock does while no command waits (06 R135; log 1). -/
namespace Sys2Proof.Machine
open Sys2Proof

/-- The increment of device time per fabric cycle, in 2^-32 ns (06 R135): 2.5 ns × (1 + RATE), RATE in units of 0.001 ppm; how a
fraction below 2^-32 ns is rounded is open (log 13). -/
def dtStep (rate : Int) : Nat :=
  let n := 10737418240 * rate
  (10737418240 + (if n % 1000000000 = 0 then n / 1000000000 else Config.roundDivI n 1000000000)).toNat

/-- Elapsed cycles, the always-on count, and device time, which counts from the C-die start (06 R135; 16 R406). -/
def State.tickClk (s : State) : State :=
  let k := s.clk
  { s with clk := { k with cyc := k.cyc + 1, aoCyc := if s.sys.pwr = .off then k.aoCyc else k.aoCyc + 1,
                           dt := if s.live then (k.dt + dtStep k.rate) % 2 ^ 96 else k.dt } }

/-- A companion die's own device time over one cycle (01 R21; 06 R137; 09 R237): aligned to the C-die counter while the C-die is present,
else running on at its own 2.5 ns. -/
def Die.tick (x : Die) (live : Bool) (dt : Nat) : Die :=
  { x with dt := if x.seen && !x.absent && live then dt else (x.dt + 10737418240) % 2 ^ 96 }

/-- The replicas of the P-dies and the I-die over one cycle; a die without supply stands still. -/
def State.tickDies (s : State) : State :=
  if s.sys.pwr ≠ .valid then s
  else
    let s := (s.setPdie 0 ((s.pdie 0).tick s.live s.clk.dt)).setPdie 1 ((s.pdie 1).tick s.live s.clk.dt)
    { s with iso := { s.iso with die := s.iso.die.tick s.live s.clk.dt } }

/-- The slot counter of the fabric: a slot is four cycles (10 R241). -/
def State.tickSlot (s : State) : State :=
  let f := s.fab
  { s with fab := if f.phase = 3 then { f with phase := 0, slot := f.slot + 1 } else { f with phase := f.phase + 1 } }

/-- One fabric cycle (log 1): the channel commands and isolated output writes that waited for it are applied (01 R18; 17 R440), time passes, the fabric's slots and wait timers
count, a pass of its leak audit goes on (10 R259), the deadlines of scheduler actions whose trigger is reached start (07 R170), routed copies
age (14 R359), and a fault reaction of 2 us has reached its units
(21 R522). -/
def State.tick (s : State) : State :=
  let s := s.chWaits.isoWaits.tickClk.tickDies
  if !s.live then s
  else
    let s := (List.range 12).foldl (fun s c => s.ageRouted c) s.anchor.tickSlot.waitTick.auditTick
    if s.flt.cur.isSome ∧ s.flt.curAt + usCyc 2 ≤ s.cyc then s.reactionDone else s

end Sys2Proof.Machine
end

