-- ==== Sys2Proof/Machine/Step.lean ====
section
/-! DEFINITION. One step: the command at the front of the queue, or one fabric cycle while nothing waits. -/
namespace Sys2Proof.Machine
open Sys2Proof

/-- One step of the module (log 1): the front command runs on the queue's rest; an empty queue passes one fabric cycle. -/
def step (s : State) : Host.Outcome State Fault Refusal :=
  match s.pending with
  | [] => .next s.tick
  | c :: rest => exec c { s with pending := rest }

/-- The command a word spells put at the front of the queue; no row of the table has bits, so nothing changes. -/
def State.withFetchWord (s : State) (nbits w : Nat) : State :=
  match decodeTableWord nbits w with
  | none => s
  | some i => { s with pending := i :: s.pending }

end Sys2Proof.Machine
end

