-- ==== Sys2Proof/Machine/Contacts.lean ====
section
/-! DEFINITION. The signal contacts: the state of every signal of 02 R48 as the module's state gives it (02 R45 to R51; 03 R59 to R63;
13 R330 to R334; 18 R466, R471; 21 R535, R540). -/
namespace Sys2Proof.Machine
open Sys2Proof

/-- The signals of 02 R48, each group by its number. -/
inductive Contact where
  | ddrData | ddrCk | ddrResetN | ddrZq
  | xspiClk (n : Nat) | xspiCsN (n : Nat) | xspiData (n : Nat) | xspiResetN (n : Nat) | vio33
  | serTx (n : Nat) | serRx (n : Nat) | mdc | mdio | tckTrstN | tmsTdi | tdo | trace
  | sp (n : Nat) | can (n : Nat) | canTxd (n : Nat) | canRxd (n : Nat) | canMode (n : Nat) | lin (n : Nat) | inh (n : Nat)
  | wake (n : Nat) | sw (n : Nat) | an (n : Nat) | pc (n : Nat) | gp (n : Nat) | xtal | clkin
  | porstN | resetN | faultN | safeN | wdi | iso (n : Nat)
deriving DecidableEq, Repr

/-- What the module does at a contact. `used` leaves the level to the unit the contact belongs to; `scanned` leaves it to the boundary
scan register (18 R466). -/
inductive Level where
  | unpowered | low | high | highZ | input | pullUp | pullDown | terminated | idle | wetting | wakeDetect | standby | recessive
  | used | scanned
deriving DecidableEq, Repr

/-- VIO33 is on: the rails are valid (02 R48). -/
def State.vio33 (s : State) : Bool := s.sys.pwr == .valid

/-- A ball of a C-die domain (02 R47): unpowered without VIO33, its reset state during a C-die reset and until its unit is configured. -/
def State.cBall (s : State) (reset : Level) (conf : Bool) (work : Level) : Level :=
  if !s.vio33 then .unpowered else if !s.live || !conf then reset else work

/-- A ball of domain V33, which the boundary scan register covers (18 R466). -/
def State.v33Ball (s : State) (reset : Level) (conf : Bool) (work : Level) : Level :=
  if s.vio33 && s.dbg.extest then .scanned else s.cBall reset conf work

/-- The external memories are set up by the boot ROM from boot instant t5 on (03 R69 t8, R71; log 66). -/
def State.memUp (s : State) : Bool := decide (5 ≤ s.sys.boot)

/-- The pull of a GP pin (05 R118): 0 none, 1 down, 2 up. -/
def pullLevel (p : Nat) : Level := if p = 1 then .pullDown else if p = 2 then .pullUp else .input

/-- A GP pin (02 R45, R48): the function's unit drives it; in F0 it is an input with its pull, but for the 100 ns of an event pulse
(21 R540). -/
def State.gpLevel (s : State) (n : Nat) : Level :=
  let p := look (fun _ => ({} : Pin)) s.sys.pins n
  if p.func ≠ 0 then .used
  else if s.flt.line.any fun (l : Nat × EvLine) => bits l.2.cfg 15 8 == n && l.2.cfg % 8 == 4 && l.2.drove != 0 && decide (s.cyc + 1 < l.2.drove + 40) then .high
  else pullLevel p.pull

/-- A segment's bus (13 R330): 0 to 7 CAN, 8 to 15 LIN. -/
def State.busLevel (s : State) (g : Nat) (rest : Level) : Level :=
  if s.sys.pwr = .off then .unpowered
  else match (s.seg g).xst with
    | 0 => .used
    | 1 => .recessive
    | 3 => .wakeDetect
    | _ => rest

/-- A port of the M-die (02 R48; 11 R271, R294): no energy until its link is up or trains; asleep, and armed while the module sleeps, it
detects a wake. A PHY that a C-die reset found asleep still does (02 R47; 03 R60). -/
def State.spLevel (s : State) (p : Nat) : Level :=
  let asleep := if isT1s p then decide ((s.seg (p + 6)).xst = 3)
                else if s.sys.pwr = .aoOnly then bit (byteAt s.wake.rcd 4) (p - 2) else decide ((s.port p).lst = .asleep) || (s.phy p).asleep
  if s.sys.pwr = .off then .unpowered
  else if asleep then .wakeDetect
  else match (s.port p).lst with
    | .up | .training | .sleepReq => .used
    | _ => if s.sys.pwr = .aoOnly then .highZ else .idle

/-- CANn_MODE of CAN8 to CAN11 (12 R297; 13 R333): low in modes 1 to 3, high in configuration mode and at reset; unpowered, with high
impedance, while the module sleeps. -/
def State.canModePin (s : State) (n : Nat) : Level := s.v33Ball .high ((s.ctl n).mode != 0) .low

/-- What the module does at a contact (02 R48). -/
def State.contact (s : State) : Contact → Level
  | .ddrData => s.cBall .highZ s.sys.ddrOk .used
  | .ddrCk => s.cBall .low s.sys.ddrOk .used
  | .ddrResetN => s.cBall .low s.sys.ddrOk .high
  | .ddrZq => if s.vio33 then .terminated else .unpowered
  | .xspiClk _ => s.v33Ball .low s.memUp .used
  | .xspiCsN _ => s.v33Ball .high s.memUp .used
  | .xspiData _ => s.v33Ball .pullDown s.memUp .used
  | .xspiResetN _ => s.v33Ball .low s.memUp .high
  | .vio33 => if s.vio33 then .high else .unpowered
  | .serTx n => s.cBall .idle ((s.port n).lst != .disabled) .used
  | .serRx _ => if s.vio33 then .terminated else .unpowered
  | .mdc => s.v33Ball .low false .used
  | .mdio => s.v33Ball .pullUp false .used
  | .tckTrstN => if s.vio33 then .pullDown else .unpowered
  | .tmsTdi => if s.vio33 then .pullUp else .unpowered
  | .tdo => if s.vio33 then .highZ else .unpowered
  | .trace => s.v33Ball .highZ (s.dbg.trace != 0) .used
  | .sp n => s.spLevel n
  | .can n => s.busLevel n .standby
  | .canTxd n => s.v33Ball .high ((s.ctl n).mode != 0 && (s.ctl n).tx.isSome) .used
  | .canRxd _ => s.v33Ball .pullUp true .pullUp
  | .canMode n => s.canModePin n
  | .lin n => s.busLevel (8 + n) .recessive
  | .inh n => if s.sys.pwr = .off then .unpowered else if s.inhOut n then .high else .highZ
  | .wake n => if s.sys.pwr = .off then .unpowered else if s.sys.pwr = .aoOnly && bit (byteAt s.wake.rcd 1) n then .wakeDetect else .input
  | .sw n =>
    if s.sys.pwr = .off then .unpowered
    else if s.sys.pwr = .aoOnly then (if (s.sw n).armed then .wakeDetect else .highZ)
    else if s.live && (s.sw n).conf && (s.sw n).wet != 0 then .wetting else .input
  | .an _ => if s.sys.pwr = .off then .unpowered else .highZ
  | .pc n => if s.sys.pwr = .off then .unpowered else if s.live && (s.pc n).conf then .pullUp else .input
  | .gp n => s.v33Ball .pullDown true (s.gpLevel n)
  | .xtal => if s.sys.clkSrc = .xtal && s.vio33 then .used else .highZ
  | .clkin => .input
  | .porstN => if s.sys.pwr = .off then .unpowered else .pullUp
  | .resetN => if s.sys.pwr = .off then .unpowered else if s.live then .highZ else .low
  | .faultN => if s.sys.pwr = .off then .unpowered else if s.faultN then .low else .highZ
  | .safeN => if s.sys.pwr = .off then .unpowered else .pullUp
  | .wdi => if s.sys.pwr = .off then .unpowered else .pullDown
  | .iso n => if s.sys.pwr ≠ .valid then .unpowered else if s.isoOn n then .high else if (s.isoCh n).mode ≤ 1 then .terminated else .highZ

end Sys2Proof.Machine
end

