-- ==== Sys2Proof/WellFormed.lean ====
section
/-! DEFINITION. When a command is well formed: each operand fits the field or the range the spec gives it. -/
namespace Sys2Proof

/-- 0 when the byte list has the length its field has, else 1. -/
def lenOff (l : List Byte) (n : Nat) : Nat := if l.length = n then 0 else 1

/-- The largest number of a list. -/
def listTop (l : List Nat) : Nat := l.foldl Nat.max 0

/-- The operands of a command with the bound each must stay below: a packet field's width (04 R89, 05 R118 to R132)
or the number of units of a kind. -/
def Instr.fields : Instr → List (Nat × Nat)
  | .kNop => []
  | .kLdb d base byte bit => [(d, 16), (base, 4), (byte, 32768), (bit, 8)]
  | .kStb d base byte bit => [(d, 16), (base, 4), (byte, 32768), (bit, 8)]
  | .kSetb d base byte bit => [(d, 16), (base, 4), (byte, 32768), (bit, 8)]
  | .kRstb d base byte bit => [(d, 16), (base, 4), (byte, 32768), (bit, 8)]
  | .kAndb d base byte bit => [(d, 16), (base, 4), (byte, 32768), (bit, 8)]
  | .kOrb d base byte bit => [(d, 16), (base, 4), (byte, 32768), (bit, 8)]
  | .kXorb d base byte bit => [(d, 16), (base, 4), (byte, 32768), (bit, 8)]
  | .kAndnb d base byte bit => [(d, 16), (base, 4), (byte, 32768), (bit, 8)]
  | .kLd d base off t => [(d, 16), (base, 4), (off, 262144), (t, 8)]
  | .kSt d base off t => [(d, 16), (base, 4), (off, 262144), (t, 8)]
  | .kLdx d base x off t => [(d, 16), (base, 4), (x, 16), (off, 16384), (t, 8)]
  | .kStx d base x off t => [(d, 16), (base, 4), (x, 16), (off, 16384), (t, 8)]
  | .kLea d base off => [(d, 16), (base, 4), (off, 262144)]
  | .kAdd d a b t => [(d, 16), (a, 16), (b, 16), (t, 8)]
  | .kSub d a b t => [(d, 16), (a, 16), (b, 16), (t, 8)]
  | .kMul d a b t => [(d, 16), (a, 16), (b, 16), (t, 8)]
  | .kDiv d a b t => [(d, 16), (a, 16), (b, 16), (t, 8)]
  | .kMod d a b t => [(d, 16), (a, 16), (b, 16), (t, 8)]
  | .kMin d a b t => [(d, 16), (a, 16), (b, 16), (t, 8)]
  | .kMax d a b t => [(d, 16), (a, 16), (b, 16), (t, 8)]
  | .kNeg d a t => [(d, 16), (a, 16), (t, 8)]
  | .kAbs d a t => [(d, 16), (a, 16), (t, 8)]
  | .kAnd d a b t => [(d, 16), (a, 16), (b, 16), (t, 8)]
  | .kOr d a b t => [(d, 16), (a, 16), (b, 16), (t, 8)]
  | .kXor d a b t => [(d, 16), (a, 16), (b, 16), (t, 8)]
  | .kNot d a t => [(d, 16), (a, 16), (t, 8)]
  | .kShl d a b t => [(d, 16), (a, 16), (b, 16), (t, 8)]
  | .kShr d a b t => [(d, 16), (a, 16), (b, 16), (t, 8)]
  | .kRol d a b t => [(d, 16), (a, 16), (b, 16), (t, 8)]
  | .kRor d a b t => [(d, 16), (a, 16), (b, 16), (t, 8)]
  | .kCeq d a b t => [(d, 16), (a, 16), (b, 16), (t, 8)]
  | .kCne d a b t => [(d, 16), (a, 16), (b, 16), (t, 8)]
  | .kClt d a b t => [(d, 16), (a, 16), (b, 16), (t, 8)]
  | .kCle d a b t => [(d, 16), (a, 16), (b, 16), (t, 8)]
  | .kCgt d a b t => [(d, 16), (a, 16), (b, 16), (t, 8)]
  | .kCge d a b t => [(d, 16), (a, 16), (b, 16), (t, 8)]
  | .kSel d a b t => [(d, 16), (a, 16), (b, 16), (t, 8)]
  | .kCvt d a f t => [(d, 16), (a, 16), (f, 8), (t, 8)]
  | .kSqrt d a t => [(d, 16), (a, 16), (t, 8)]
  | .kTrunc d a t => [(d, 16), (a, 16), (t, 8)]
  | .kMov d a t => [(d, 16), (a, 16), (t, 8)]
  | .kLdi d imm => [(d, 16), (imm, 1048576)]
  | .kLui d imm => [(d, 16), (imm, 1048576)]
  | .kAddi d imm => [(d, 16), (imm, 1048576)]
  | .kBfx d a pos len => [(d, 16), (a, 16), (pos, 64), (len, 64)]
  | .kBfi d a pos len => [(d, 16), (a, 16), (pos, 64), (len, 64)]
  | .kJmp disp => [(disp, 1048576)]
  | .kJt c disp => [(c, 16), (disp, 1048576)]
  | .kJf c disp => [(c, 16), (disp, 1048576)]
  | .kCall c disp => [(c, 16), (disp, 1048576)]
  | .kRet => []
  | .kNow d => [(d, 16)]
  | .kNowr d => [(d, 16)]
  | .kEnd => []
  | .kTon g base off => [(g, 16), (base, 4), (off, 262144)]
  | .kTof g base off => [(g, 16), (base, 4), (off, 262144)]
  | .kTp g base off => [(g, 16), (base, 4), (off, 262144)]
  | .kRtrig g base off => [(g, 16), (base, 4), (off, 262144)]
  | .kFtrig g base off => [(g, 16), (base, 4), (off, 262144)]
  | .kCtu g base off => [(g, 16), (base, 4), (off, 262144)]
  | .kCtd g base off => [(g, 16), (base, 4), (off, 262144)]
  | .kSr g base off => [(g, 16), (base, 4), (off, 262144)]
  | .kRs g base off => [(g, 16), (base, 4), (off, 262144)]
  | .kRamp g base off => [(g, 16), (base, 4), (off, 262144)]
  | .kPid g base off => [(g, 16), (base, 4), (off, 262144)]
  | .kLimit d a b t => [(d, 16), (a, 16), (b, 16), (t, 8)]
  | .sysReset h scope => [(h.ring, 16), (h.ctag, 65536), (h.epoch, 65536), (scope, 256)]
  | .sysProfile h profile => [(h.ring, 16), (h.ctag, 65536), (h.epoch, 65536), (profile, 256)]
  | .sysPincfg h pin func pull => [(h.ring, 16), (h.ctag, 65536), (h.epoch, 65536), (pin, 256), (func, 256), (pull, 256)]
  | .sysLifecycle h addr len target => [(h.ring, 16), (h.ctag, 65536), (h.epoch, 65536), (addr, 1099511627776), (len, 4294967296), (target, 256)]
  | .sysFuse h op key svn hash => [(h.ring, 16), (h.ctag, 65536), (h.epoch, 65536), (op, 256), (key, 256), (svn, 256), (lenOff hash 32, 1)]
  | .sysUpdate h addr len prefer => [(h.ring, 16), (h.ctag, 65536), (h.epoch, 65536), (addr, 1099511627776), (len, 4294967296), (prefer, 256)]
  | .sysFbpoll h poll => [(h.ring, 16), (h.ctag, 65536), (h.epoch, 65536), (poll, 256)]
  | .sysWdi h enable tmax tmin => [(h.ring, 16), (h.ctag, 65536), (h.epoch, 65536), (enable, 256), (tmax, 4294967296), (tmin, 4294967296)]
  | .chanSet h ch act duty deadline => [(h.ring, 16), (h.ctag, 65536), (h.epoch, 65536), (ch, 256), (act, 256), (duty, 65536), (deadline, 4294967296)]
  | .chanConfig h addr len ch => [(h.ring, 16), (h.ctag, 65536), (h.epoch, 65536), (addr, 1099511627776), (len, 4294967296), (ch, 256)]
  | .chanClear h ch => [(h.ring, 16), (h.ctag, 65536), (h.epoch, 65536), (ch, 256)]
  | .chanBond h count members epochs => [(h.ring, 16), (h.ctag, 65536), (h.epoch, 65536), (count, 256), (listTop members, 256), (listTop epochs, 65536)]
  | .chanUnbond h ch => [(h.ring, 16), (h.ctag, 65536), (h.epoch, 65536), (ch, 256)]
  | .chanCapture h out outLen ch kind count => [(h.ring, 16), (h.ctag, 65536), (h.epoch, 65536), (out, 1099511627776), (outLen, 4294967296), (ch, 256), (kind, 256), (count, 65536)]
  | .netPortcfg h addr len port => [(h.ring, 16), (h.ctag, 65536), (h.epoch, 65536), (addr, 1099511627776), (len, 4294967296), (port, 256)]
  | .netVlan h vid member untag => [(h.ring, 16), (h.ctag, 65536), (h.epoch, 65536), (vid, 65536), (member, 16777216), (untag, 16777216)]
  | .netFdb h op mac vid mask => [(h.ring, 16), (h.ctag, 65536), (h.epoch, 65536), (op, 256), (mac, 281474976710656), (vid, 65536), (mask, 16777216)]
  | .netTsn h addr len table port base => [(h.ring, 16), (h.ctag, 65536), (h.epoch, 65536), (addr, 1099511627776), (len, 4294967296), (table, 256), (port, 256), (base, 18446744073709551616)]
  | .netMacsec h port op an dir locket sci ssci pn => [(h.ring, 16), (h.ctag, 65536), (h.epoch, 65536), (port, 256), (op, 256), (an, 256), (dir, 256), (locket, 256), (sci, 18446744073709551616), (ssci, 4294967296), (pn, 18446744073709551616)]
  | .netSleep h port => [(h.ring, 16), (h.ctag, 65536), (h.epoch, 65536), (port, 256)]
  | .netWake h port deadline => [(h.ring, 16), (h.ctag, 65536), (h.epoch, 65536), (port, 256), (deadline, 4294967296)]
  | .netGptp h addr len => [(h.ring, 16), (h.ctag, 65536), (h.epoch, 65536), (addr, 1099511627776), (len, 4294967296)]
  | .canCtrl h addr len ctrl => [(h.ring, 16), (h.ctag, 65536), (h.epoch, 65536), (addr, 1099511627776), (len, 4294967296), (ctrl, 256)]
  | .canMode h ctrl mode => [(h.ring, 16), (h.ctag, 65536), (h.epoch, 65536), (ctrl, 256), (mode, 256)]
  | .canObj h obj fmt enable id ctrl => [(h.ring, 16), (h.ctag, 65536), (h.epoch, 65536), (obj, 65536), (fmt, 256), (enable, 256), (id, 4294967296), (ctrl, 256)]
  | .canTx h obj _ addr len _ => [(h.ring, 16), (h.ctag, 65536), (h.epoch, 65536), (obj, 65536), (addr, 1099511627776), (len, 4294967296)]
  | .canAuth h ctrl op id locket maclen => [(h.ring, 16), (h.ctag, 65536), (h.epoch, 65536), (ctrl, 256), (op, 256), (id, 4294967296), (locket, 256), (maclen, 256)]
  | .canTmaster h ctrl enable entry id => [(h.ring, 16), (h.ctag, 65536), (h.epoch, 65536), (ctrl, 256), (enable, 256), (entry, 65536), (id, 4294967296)]
  | .canLin h addr len lin => [(h.ring, 16), (h.ctag, 65536), (h.epoch, 65536), (addr, 1099511627776), (len, 4294967296), (lin, 256)]
  | .canLinrun h lin table mode => [(h.ring, 16), (h.ctag, 65536), (h.epoch, 65536), (lin, 256), (table, 256), (mode, 256)]
  | .wakeSource h addr len => [(h.ring, 16), (h.ctag, 65536), (h.epoch, 65536), (addr, 1099511627776), (len, 4294967296)]
  | .wakeXcvr h seg st => [(h.ring, 16), (h.ctag, 65536), (h.epoch, 65536), (seg, 256), (st, 256)]
  | .wakeIndicate h mask deadline attempts => [(h.ring, 16), (h.ctag, 65536), (h.epoch, 65536), (mask, 4294967296), (deadline, 4294967296), (attempts, 256)]
  | .wakeModule h => [(h.ring, 16), (h.ctag, 65536), (h.epoch, 65536)]
  | .wakeInh h mask level => [(h.ring, 16), (h.ctag, 65536), (h.epoch, 65536), (mask, 256), (level, 256)]
  | .bridgeRoute h entry rec => [(h.ring, 16), (h.ctag, 65536), (h.epoch, 65536), (entry, 65536), (lenOff rec 48, 1)]
  | .bridgeClear h entry => [(h.ring, 16), (h.ctag, 65536), (h.epoch, 65536), (entry, 65536)]
  | .bridgeWakelist h seg op entry => [(h.ring, 16), (h.ctag, 65536), (h.epoch, 65536), (seg, 256), (op, 256), (entry, 65536)]
  | .keoreLoad h addr len => [(h.ring, 16), (h.ctag, 65536), (h.epoch, 65536), (addr, 1099511627776), (len, 4294967296)]
  | .keoreStart h mode => [(h.ring, 16), (h.ctag, 65536), (h.epoch, 65536), (mode, 256)]
  | .keoreStop h => [(h.ring, 16), (h.ctag, 65536), (h.epoch, 65536)]
  | .keoreExchange h out outLen deadline => [(h.ring, 16), (h.ctag, 65536), (h.epoch, 65536), (out, 1099511627776), (outLen, 4294967296), (deadline, 4294967296)]
  | .keoreForce h vartag typ value => [(h.ring, 16), (h.ctag, 65536), (h.epoch, 65536), (vartag, 4294967296), (typ, 256), (value, 18446744073709551616)]
  | .keoreUnforce h vartag => [(h.ring, 16), (h.ctag, 65536), (h.epoch, 65536), (vartag, 4294967296)]
  | .schedWrite h entry rec => [(h.ring, 16), (h.ctag, 65536), (h.epoch, 65536), (entry, 65536), (lenOff rec 32, 1)]
  | .schedClear h entry => [(h.ring, 16), (h.ctag, 65536), (h.epoch, 65536), (entry, 65536)]
  | .schedArm h entry trigger => [(h.ring, 16), (h.ctag, 65536), (h.epoch, 65536), (entry, 65536), (trigger, 18446744073709551616)]
  | .schedDisarm h entry => [(h.ring, 16), (h.ctag, 65536), (h.epoch, 65536), (entry, 65536)]
  | .schedTime h op value => [(h.ring, 16), (h.ctag, 65536), (h.epoch, 65536), (op, 256), (value, 18446744073709551616)]
  | .admitRequest h typ budget amount duration deadline => [(h.ring, 16), (h.ctag, 65536), (h.epoch, 65536), (typ, 256), (budget, 256), (amount, 4294967296), (duration, 4294967296), (deadline, 4294967296)]
  | .admitRelease h grant => [(h.ring, 16), (h.ctag, 65536), (h.epoch, 65536), (grant, 65536)]
  | .admitBudget h budget limit charge reserve => [(h.ring, 16), (h.ctag, 65536), (h.epoch, 65536), (budget, 256), (limit, 4294967296), (charge, 4294967296), (reserve, 4294967296)]
  | .admitWindow h enable frame phase length start => [(h.ring, 16), (h.ctag, 65536), (h.epoch, 65536), (enable, 256), (frame, 4294967296), (phase, 4294967296), (length, 4294967296), (start, 18446744073709551616)]
  | .inputSw h input wet deb flags maxact chatter window => [(h.ring, 16), (h.ctag, 65536), (h.epoch, 65536), (input, 256), (wet, 256), (deb, 256), (flags, 256), (maxact, 4294967296), (chatter, 65536), (window, 65536)]
  | .inputAn h an conv deb => [(h.ring, 16), (h.ctag, 65536), (h.epoch, 65536), (an, 256), (conv, 256), (deb, 256)]
  | .inputPc h pc mode deb zpre preset => [(h.ring, 16), (h.ctag, 65536), (h.epoch, 65536), (pc, 256), (mode, 256), (deb, 256), (zpre, 256), (preset, 4294967296)]
  | .inputClear h input what => [(h.ring, 16), (h.ctag, 65536), (h.epoch, 65536), (input, 256), (what, 256)]
  | .isoCfg h ch mode deb => [(h.ring, 16), (h.ctag, 65536), (h.epoch, 65536), (ch, 256), (mode, 256), (deb, 256)]
  | .isoSet h ch value => [(h.ring, 16), (h.ctag, 65536), (h.epoch, 65536), (ch, 256), (value, 256)]
  | .isoClear h ch => [(h.ring, 16), (h.ctag, 65536), (h.epoch, 65536), (ch, 256)]
  | .tenAssign h kind tag index count => [(h.ring, 16), (h.ctag, 65536), (h.epoch, 65536), (kind, 256), (tag, 256), (index, 65536), (count, 65536)]
  | .tenBezel h range tag enable perms base size => [(h.ring, 16), (h.ctag, 65536), (h.epoch, 65536), (range, 256), (tag, 256), (enable, 256), (perms, 256), (base, 4294967296), (size, 4294967296)]
  | .tenRingcfg h ring enable quota fwquota event => [(h.ring, 16), (h.ctag, 65536), (h.epoch, 65536), (ring, 256), (enable, 256), (quota, 65536), (fwquota, 256), (event, 65536)]
  | .tenClasp h clasp op tagA tagB evA evB => [(h.ring, 16), (h.ctag, 65536), (h.epoch, 65536), (clasp, 256), (op, 256), (tagA, 256), (tagB, 256), (evA, 65536), (evB, 65536)]
  | .tenPost h clasp msg => [(h.ring, 16), (h.ctag, 65536), (h.epoch, 65536), (clasp, 256), (lenOff msg 32, 1)]
  | .tenTake h out outLen clasp => [(h.ring, 16), (h.ctag, 65536), (h.epoch, 65536), (out, 1099511627776), (outLen, 4294967296), (clasp, 256)]
  | .tenGate h gate op => [(h.ring, 16), (h.ctag, 65536), (h.epoch, 65536), (gate, 65536), (op, 256)]
  | .keyWrite h addr len slot => [(h.ring, 16), (h.ctag, 65536), (h.epoch, 65536), (addr, 1099511627776), (len, 4294967296), (slot, 256)]
  | .keyDerive h slot ktype _ => [(h.ring, 16), (h.ctag, 65536), (h.epoch, 65536), (slot, 256), (ktype, 256)]
  | .keyErase h slot => [(h.ring, 16), (h.ctag, 65536), (h.epoch, 65536), (slot, 256)]
  | .keyPermit h slot allow => [(h.ring, 16), (h.ctag, 65536), (h.epoch, 65536), (slot, 256), (allow, 256)]
  | .keyAead h addr len slot op iv out outLen => [(h.ring, 16), (h.ctag, 65536), (h.epoch, 65536), (addr, 1099511627776), (len, 4294967296), (slot, 256), (op, 256), (lenOff iv 12, 1), (out, 1099511627776), (outLen, 4294967296)]
  | .keyCmac h addr len slot out outLen => [(h.ring, 16), (h.ctag, 65536), (h.epoch, 65536), (addr, 1099511627776), (len, 4294967296), (slot, 256), (out, 1099511627776), (outLen, 4294967296)]
  | .keySign h addr len slot out outLen => [(h.ring, 16), (h.ctag, 65536), (h.epoch, 65536), (addr, 1099511627776), (len, 4294967296), (slot, 256), (out, 1099511627776), (outLen, 4294967296)]
  | .keyVerify h addr len => [(h.ring, 16), (h.ctag, 65536), (h.epoch, 65536), (addr, 1099511627776), (len, 4294967296)]
  | .keyPubkey h out outLen slot => [(h.ring, 16), (h.ctag, 65536), (h.epoch, 65536), (out, 1099511627776), (outLen, 4294967296), (slot, 256)]
  | .attestReport h out outLen nonce => [(h.ring, 16), (h.ctag, 65536), (h.epoch, 65536), (out, 1099511627776), (outLen, 4294967296), (lenOff nonce 32, 1)]
  | .attestExtend h len data => [(h.ring, 16), (h.ctag, 65536), (h.epoch, 65536), (len, 256), (lenOff data 48, 1)]
  | .attestIdentity h out outLen => [(h.ring, 16), (h.ctag, 65536), (h.epoch, 65536), (out, 1099511627776), (outLen, 4294967296)]
  | .faultCfg h src sev event line => [(h.ring, 16), (h.ctag, 65536), (h.epoch, 65536), (src, 65536), (sev, 256), (event, 256), (line, 65536)]
  | .faultRecover h => [(h.ring, 16), (h.ctag, 65536), (h.epoch, 65536)]
  | .faultLogclr h count => [(h.ring, 16), (h.ctag, 65536), (h.epoch, 65536), (count, 256)]
  | .faultInject h src => [(h.ring, 16), (h.ctag, 65536), (h.epoch, 65536), (src, 65536)]
  | .faultRelease h src => [(h.ring, 16), (h.ctag, 65536), (h.epoch, 65536), (src, 65536)]
  | .stateRead h out outLen obj index count => [(h.ring, 16), (h.ctag, 65536), (h.epoch, 65536), (out, 1099511627776), (outLen, 4294967296), (obj, 65536), (index, 65536), (count, 65536)]
  | .debugEnable h tag en => [(h.ring, 16), (h.ctag, 65536), (h.epoch, 65536), (tag, 256), (en, 256)]
  | .debugTrace h src enable => [(h.ring, 16), (h.ctag, 65536), (h.epoch, 65536), (src, 256), (enable, 256)]
  | .captureTrigger ch => [(ch, 40)]
  | .gateCutApply gate => [(gate, 65536)]
  | .debugPortAccess tag op unit addr n _ _ => [(tag, 16), (op, 7), (unit, 256), (addr, 1099511627776), (n, 4097)]
  | .cmdDb ini tag n value => [(ini, 256), (tag, 16), (n, 16), (value, 4294967296)]
  | .cplDb ini tag n value => [(ini, 256), (tag, 16), (n, 16), (value, 4294967296)]
  | .ringAttach ini tag n size hi => [(ini, 256), (tag, 16), (n, 16), (size, 16), (hi, 256)]
  | .ringDetach ini tag n => [(ini, 256), (tag, 16), (n, 16)]
  | .commandFetch ring => [(ring, 16)]
  | .completionPublish ring => [(ring, 16)]
  | .directCmdOff ini tag ch epoch reserved => [(ini, 256), (tag, 16), (ch, 40), (epoch, 65536), (reserved, 16)]
  | .directCmdOn ini tag ch epoch reserved => [(ini, 256), (tag, 16), (ch, 40), (epoch, 65536), (reserved, 16)]
  | .directCmdPwm ini tag ch epoch reserved duty => [(ini, 256), (tag, 16), (ch, 40), (epoch, 65536), (reserved, 16), (duty, 1024)]
  | .eventCfgWrite ini tag n value => [(ini, 256), (tag, 16), (n, 512), (value, 4294967296)]
  | .eventPendClear ini tag n value => [(ini, 256), (tag, 16), (n, 512), (value, 4294967296)]
  | .eventSwtrig ini tag n value => [(ini, 256), (tag, 16), (n, 512), (value, 4294967296)]
  | .registerWriteOther ini tag addr value => [(ini, 256), (tag, 16), (addr, 1099511627776), (value, 18446744073709551616)]
  | .dtLoRead ini => [(ini, 256)]
  | .mtagWrite core value => [(core, 6), (value, 18446744073709551616)]
  | .memoryAccess ini kind addr n _ _ => [(ini, 256), (kind, 3), (addr, 1099511627776), (n, 4097)]
  | .railsValid edges => [(edges, 65536)]
  | .bootBcrApply _ _ => []
  | .bootLateStages at0 at1 => [(at0.length, 9), (at1.length, 9)] ++ (at0 ++ at1).map fun a => (a, 0x10000000)
  | .mpFault kind => [(kind, 2)]
  | .rtPairFault k kind => [(k, 3), (kind, 2)]
  | .cdieOvertemp _ => []
  | .safeNChange _ => []
  | .syncReception _ port _ => [(port, 10)]
  | .pcEdge k _ _ => [(k, 4)]
  | .pcZEdge k => [(k, 4)]
  | .schedDispatch ent => [(ent, 1024)]
  | .schedActionApply ent smp => [(ent, 1024), (smp, 65536)]
  | .admitGrantEnd ix => [(ix, 512)]
  | .admitDeadline ix => [(ix, 256)]
  | .admitHold k => [(k, 5)]
  | .turnOnEnd ch => [(ch, 40)]
  | .slewDeadline ch => [(ch, 40)]
  | .turnOffEnd ch => [(ch, 40)]
  | .pwmPeriodStart ch => [(ch, 40)]
  | .pwmOffEdge ch => [(ch, 40)]
  | .protectOc ch => [(ch, 40)]
  | .protectSc ch => [(ch, 40)]
  | .protectOt ch _ => [(ch, 40)]
  | .protectDt ch _ => [(ch, 40)]
  | .retryRestart ch => [(ch, 40)]
  | .retryCounterReset ch => [(ch, 40)]
  | .currentSample ch _ _ _ vb => [(ch, 40), (vb, 65536)]
  | .openLoadOn ch => [(ch, 40)]
  | .offStateTest ch _ _ => [(ch, 40)]
  | .buntingImbalance n => [(n, 40)]
  | .groupUndervoltage g mv => [(g, 4), (mv, 131072)]
  | .groupUvRecover g mv => [(g, 4), (mv, 131072)]
  | .groupOvervoltage g mv => [(g, 4), (mv, 131072)]
  | .reversePolarity g _ => [(g, 4)]
  | .dieTempHigh d _ => [(d, 2)]
  | .cDieAbsent d => [(d, 3)]
  | .cDiePresent d => [(d, 3)]
  | .orphanHoldEnd ch => [(ch, 40)]
  | .frameIngress port _ _ ago dma frags => [(port, 20), (ago, 16777216), (dma, 64), (frags, 256)]
  | .cellWrite ix ecc => [(ix, 20), (ecc, 3)]
  | .cellRead k ecc => [(k, 20), (ecc, 4)]
  | .rsqGap o ix c => [(o, 20), (ix, 20), (c, 8)]
  | .transmitStart p => [(p, 20)]
  | .transmitEnd p dma buf => [(p, 20), (dma, 64), (buf, 1099511627776)]
  | .gateEntryChange p => [(p, 20)]
  | .gateListSwitch p => [(p, 20)]
  | .fdbAgeout ix => [(ix, 8192)]
  | .cbRecoveryReset ix => [(ix, 256)]
  | .linkTrainingDone port => [(port, 20)]
  | .linkTrainingTimeout port => [(port, 20)]
  | .linkRetryTimer port => [(port, 20)]
  | .linkLoss port => [(port, 20)]
  | .mdioPoll port _ => [(port, 2)]
  | .usxgmiiInbandWord port word => [(port, 2), (word, 65536)]
  | .tc10SleepRequestRx port => [(port, 20)]
  | .tc10SleepAckRx port => [(port, 20)]
  | .tc10SleepAbort port => [(port, 20)]
  | .tc10WakeupRx port => [(port, 20)]
  | .canFrameReceive c _ ago => [(c, 12), (ago, 16777216)]
  | .canTxStart c => [(c, 12)]
  | .canTxDone c tdc => [(c, 12), (tdc, 256)]
  | .canTxError c kind _ => [(c, 12), (kind, 6)]
  | .canBusIntegration c => [(c, 12)]
  | .canModeFrameEnd c => [(c, 12)]
  | .canBusoffRecoveryStart c => [(c, 12)]
  | .canBusoffRecoveryEnd c => [(c, 12)]
  | .canRefmsgTimeout c => [(c, 12)]
  | .freshnessSave ix => [(ix, 256)]
  | .d2dError link => [(link, 20)]
  | .linSlotStart l _ => [(l, 8)]
  | .linResponseRx l _ code ago => [(l, 8), (code, 3), (ago, 268435456)]
  | .linNoResponse l => [(l, 8)]
  | .wakeDetect src t n => [(src, 34), (t, 4294967296), (n, 4294967296)]
  | .segmentSleepEntry sg => [(sg, 22)]
  | .pennantReadyRx sg seq node _ => [(sg, 22), (seq, 256), (node, 16)]
  | .pennantReadyTimeout sg => [(sg, 22)]
  | .pennantCommitPoint sg => [(sg, 22)]
  | .pennantRetry sg => [(sg, 22)]
  | .wakeIndicateDeadline ring ctag => [(ring, 16), (ctag, 65536)]
  | .sleepWettingPulse mask => [(mask, 281474976710656)]
  | .bridgeLinAgeExpiry l fid => [(l, 8), (fid, 64)]
  | .sp19AvtpduReceive vid uid _ _ => [(vid, 4096), (uid, 65536)]
  | .keoreTaskRelease task => [(task, 8)]
  | .retainPassEnd _ => []
  | .inputLevelAccept kind ix _ => [(kind, 3), (ix, 48)]
  | .inputStuckDetect n => [(n, 48)]
  | .chatterWindowEnd n => [(n, 48)]
  | .inputUnset kind ix => [(kind, 3), (ix, 48)]
  | .adcConversion c an code => [(c, 2), (an, 24), (code, 4096)]
  | .isoBlankingEnd ch => [(ch, 16)]
  | .isoMismatchDetect ch => [(ch, 16)]
  | .isoOverload ch _ => [(ch, 16)]
  | .vfieldOk mv => [(mv, 65536)]
  | .vfieldLoss mv => [(mv, 65536)]
  | .fbPoll die code hot => [(die, 4), (code, 3), (hot, 65536)]
  | .fbPostedWrite ini tag ch word code repeats => [(ini, 256), (tag, 16), (ch, 40), (word, 4294967296), (code, 3), (repeats, 4)]
  | .fbDataBurst ch smp far code repeats => [(ch, 40), (smp.length, 17), (far, 4294967296), (code, 3), (repeats, 4)]
  | .eventPulse n => [(n, 512)]
  | .longRunningOperationEnd ring ctag _ => [(ring, 16), (ctag, 65536)]
  | .canReceiveError c kind _ => [(c, 12), (kind, 6)]
  | .currentLimiting ch ma mv => [(ch, 40), (ma, 4294967296), (mv, 65536)]
  | .dieTempNormal d _ => [(d, 2)]
  | .bestMasterClockDecision _ _ port id => [(port, 10), (id, 18446744073709551616)]
  | .preemptionVerification p _ => [(p, 6)]
  | .netWakeDeadline port => [(port, 20)]
  | .machineModeEntry core => [(core, 6)]
  | .machineModeReturn core => [(core, 6)]
  | .traceSyncPacket src => [(src, 11)]
  | .profileTransitionEnd => []
  | .keoreStartComplete => []
  | .exchangePrepared => []
  | .exchangeCommit => []
  | .exchangeSwapEnd => []
  | .exchangeTimeout => []
  | .bezelFillDone => []
  | .mpCommandStart => []
  | .vbatRise => []
  | .powerOnReset => []
  | .porstNAssert => []
  | .resetNExternal => []
  | .faultResetDemand => []
  | .bootStart => []
  | .bootFusesRead => []
  | .bootPatchApply => []
  | .bootKeorePrepare => []
  | .bootFirstRelease => []
  | .clkLoss => []
  | .wdiToggle => []
  | .wdiTimeout => []
  | .syncTimeout => []
  | .holdoverTimeout => []
  | .admitRefill => []
  | .admitWindowOpen => []
  | .safeLineDemand => []
  | .leakAudit => []
  | .fabricInitStart => []
  | .fabricInitDiscard => []
  | .fabricInitRebuild => []
  | .fabricInitEnd => []
  | .sleepTimer => []
  | .moduleSleepLatchCheck => []
  | .moduleSleepPowerOff => []
  | .bridgeLookup => []
  | .retainPassStart => []
  | .isoLinkSilent => []
  | .isoOrphanTimeout => []
  | .tenancyTableSave => []
  | .faultReactionStart => []
  | .faultLogMirror => []
  | .barrierLinkReturn => []
  | .gptpSyncTransmit _ => []

/-- Every operand lies below its bound. -/
def Instr.wellFormed (i : Instr) : Bool := i.fields.all fun p => decide (p.1 < p.2)

end Sys2Proof
end

