-- ==== Sys2Proof/Safety.lean ====
section
/-! DEFINITION. What counts as a safe step, and the conditions on state and operands under which the spec lets a command
have its own effect, in the terms the statements use. -/
namespace Sys2Proof.Machine
open Sys2Proof

/-- A step that neither faults nor refuses: the command ran. -/
def Runs (o : Out) : Prop := ∃ t, o = .next t

/-- The memory of a state is in its canonical form. -/
def State.memOk (s : State) : Prop := Memory.wf s.mem = true

/-! ### The Keore engine -/

/-- Task `k` is in charge and stands at instruction `i`, and its budget allows `cost` engine cycles (15 R376, R377). -/
def State.kRuns (s : State) (k : Nat) (i : Instr) (cost : Nat) : Bool :=
  s.kReady == some k && s.kFetch k == some i && decide ((s.ktask k).used + cost ≤ s.kBudget k)

/-- The record of task `k` with `cost` cycles charged. -/
def State.kPaid (s : State) (k cost : Nat) : KTask := { s.ktask k with used := (s.ktask k).used + cost }

/-- The machine with `cost` cycles charged to task `k`. -/
def State.kCharge (s : State) (k cost : Nat) : State := s.setKtask k (s.kPaid k cost)

/-- A register instruction done: task `k` holds what `f` makes of its record and stands at the next word, and the engine picks
the task that runs. Nothing else changes. -/
def State.kAfter (s : State) (k cost : Nat) (f : KTask → KTask) : State :=
  (s.setKtask k { f (s.kPaid k cost) with pc := (s.ktask k).pc + 1 }).kPick

/-- The same after a jump to word `pc`. -/
def State.kJumped (s : State) (k cost pc : Nat) (f : KTask → KTask) : State :=
  (s.setKtask k { f (s.kPaid k cost) with pc := pc }).kPick

/-- The model's draw counter advanced, as a step that may need a free value leaves it (log 12). -/
def State.drawn (s : State) : State := { s with clk := { s.clk with free := s.clk.free + 1 } }

/-- The offset in instance SRAM that BASE plus `off` names for task `k` (15 R388). -/
def State.kAt (s : State) (k base off : Nat) : Nat := kAddr s.keo.run (s.ktask k) base off

/-- An access of `n` bytes aligned to `align` at that place raises no trap (15 R394). -/
def State.kClear (s : State) (k base off n align : Nat) : Bool := s.kTrap base (s.kAt k base off) n align == none

/-- The bit that a bit instruction of task `k` reads. -/
def State.kSees (s : State) (k base byte i : Nat) : Bool := bit (byteAt (s.iread (s.kAt k base byte) 1) 0) i

/-- The low bit of Wn of task `k`. -/
def State.kFlag (s : State) (k n : Nat) : Bool := ((s.ktask k).reg n).toNat % 2 == 1

/-- After a store the task goes on with the next word, its record as the store left it. -/
def State.kDone (s : State) (k : Nat) (f : KTask → KTask := id) : State := s.kNext k (f (s.ktask k))

/-! ### Commands -/

/-- The die of a unit takes a command (09 R237; 20 R505, R511, R512): 1 and 2 the P-dies, 3 the I-die, 4 the M-die in the model's order. -/
def State.reaches (s : State) (die : Nat) : Bool := !s.linkDown die && !s.dieGone die && look (fun _ => 0) s.fb.bad die == 0

/-- The bytes a descriptor names, and the machine after their one read (04 R91, R94 step 5): reachable under the ring's tag, 1 to
0x0020_0000 of them, without an uncorrectable error. -/
def State.descIn (s : State) (h : Hdr) (addr len : Nat) : Option (List Byte × State) :=
  if len = 0 ∨ 0x00200000 < len ∨ s.spanOK halyardIni h.ring 0 addr len = false then none
  else match s.load addr len with
    | (some bs, s1) => some (bs, s1)
    | (none, _) => none

/-- The sender owns channel `ch` and carries its epoch, and the channel's P-die can be written (04 R96, R106). -/
def State.asksChan (s : State) (h : Hdr) (ch : Nat) : Bool :=
  decide (ch < 40) && s.owner 3 ch == h.ring && h.epoch == s.chEpoch ch && s.reaches (1 + chDie ch)

/-- A command of order `rank` for channel `ch` is applied in this fabric cycle (01 R18): it takes the cycle, no protective condition is met in
it (09 R217), and the channel's state and the life-cycle state refuse nothing (08 R189; 03 R73). -/
def State.takes (s : State) (ch rank act : Nat) : Bool :=
  let c := s.chan (s.lead ch)
  s.chTurn (s.lead ch) rank && (s.firstTrip ch).isNone && !c.inHold && (c.st != .latched || act == 0) && (s.sys.lcCur != 5 || act == 0)

/-- A write of LCH[ch].CMD that reaches its channel as a command (08 R209): a running initiator that presents `tag`, which owns the channel, with
the channel's epoch and no reserved bit, and a P-die that takes it. -/
def State.writesCmd (s : State) (ini tag ch epoch reserved : Nat) : Bool :=
  decide (ch < 40) && s.live && s.presents ini tag && s.reaches (1 + chDie ch) && s.owner 3 ch == tag && epoch == s.chEpoch ch && reserved == 0

/-- The channel with this fabric cycle taken by a command (01 R18). -/
def State.taken (s : State) (ch : Nat) : State := s.modCh ch fun c => { c with cmdAt := some s.cyc }

/-- When a command of the CHAN group has its own effect (05 R119; 08 R185, R189, R198, R199, R207, R209; 09 R224). `r` is the record a
descriptor brought and `s` the machine that has read it. A channel command has it where the command takes this fabric cycle (01 R18) and no
protective condition is met in it (09 R217). -/
def readyChan (r : List Byte) : Instr → State → Bool
  | .chanSet h ch act duty deadline, s =>
    s.live && s.asksChan h ch && decide (act ≤ 2) && (act != 2 || decide (duty ≤ 1023)) && decide (deadline ≤ 10000000) &&
      s.takes ch 4 act
  | .chanConfig h _ len ch, s =>
    s.mpUp && s.asksChan h ch && len == 64 && !chanRecordReserved r && !chanRecordRange ch r && !chanRecordMix ch r &&
      (!prioOf r || decide (h.ring ≤ 1)) && ((s.chan (s.lead ch)).st == .off || !chanOffOnly r (s.chan (s.lead ch)).cfg)
  | .chanClear h ch, s =>
    s.mpUp && s.asksChan h ch && ((s.members ch).all fun k => s.cool k) && !(s.chan (s.lead ch)).inHold
  | .chanBond h count members epochs, s =>
    let l := members.take count
    let a := l.foldl Nat.min (l.headD 0)
    s.mpUp && (l.all fun m => decide (m < 40) && s.owner 3 m == h.ring && (s.chan m).st == .off && !s.bonded m) &&
      h.epoch == (s.bunt a).epoch && (s.badMember l epochs).isNone && (count == 2 || count == 4) && bondSet l && s.reaches (1 + chDie a)
  | .chanUnbond h ch, s => s.mpUp && s.asksChan h ch && s.bonded ch && (s.chan (s.lead ch)).st == .off
  | .chanCapture h out outLen ch kind count, s =>
    s.mpUp && s.asksChan h ch && decide (kind ≤ 1) && (if kind = 0 then decide (1 ≤ count ∧ count ≤ 4096) else decide (16 ≤ count ∧ count ≤ 2048)) &&
      s.outOK h.ring out outLen (16 + 4 * count) && (s.chan ch).cap.isNone
  | .captureTrigger ch, s =>
    decide (ch < 40) && (match (s.chan ch).cap with
      | some k => !k.started && k.trig.isSome
      | none => false)
  | .directCmdOff ini tag ch epoch reserved, s => s.writesCmd ini tag ch epoch reserved && s.takes ch 3 0
  | .directCmdOn ini tag ch epoch reserved, s => s.writesCmd ini tag ch epoch reserved && s.takes ch 3 1
  | .directCmdPwm ini tag ch epoch reserved _, s => s.writesCmd ini tag ch epoch reserved && s.takes ch 3 2
  | _, _ => false

/-- When a command or event of the admission controller has its own effect (05 R126; 07 R162 to R178). -/
def readyAdmit : Instr → State → Bool
  | .admitRequest h typ budget amount duration deadline, s =>
    let t := s.evaluate budget
    s.live && h.epoch == 0 && decide (budget ≤ 4) && decide (1 ≤ typ ∧ typ ≤ 8) && decide (1 ≤ duration) && decide (deadline ≤ 10000000) &&
      t.admFree.isSome &&
      t.neverReason { typ := typ, bud := budget, amount := amount, charge := if budget < 4 then divR (amount * duration) 1000 else 0,
                      dur := duration, endCyc := 1, tag := h.ring, origin := 0, client := .req h } == 0
  | .admitRelease h grant, s =>
    s.live && h.epoch == 0 && grant != 0xFFFF && (match s.handleIdx grant with
      | some i => (s.admEnt i).st == 2 && (s.admEnt i).tag == h.ring && !(s.admEnt i).prio
      | none => false)
  | .admitBudget h budget limit charge reserve, s =>
    s.mpUp && h.epoch == 0 && h.ring == 0 && decide (budget ≤ 4) &&
      (if budget = 4 then decide (100 ≤ limit ∧ limit ≤ 30000) && charge == 0 && reserve == 0
       else decide (1000 ≤ limit ∧ limit ≤ 400000 ∧ 1000 ≤ charge ∧ charge ≤ 2000000 ∧ reserve ≤ limit))
  | .admitWindow h enable frame phase length _, s =>
    s.mpUp && h.epoch == 0 && h.ring == 0 &&
      (enable == 0 || enable == 1 && decide (1000 ≤ frame ∧ frame ≤ 1000000 ∧ 100 ≤ length ∧ phase + length ≤ frame))
  | .admitRefill, s => s.live && decide (s.adm.refillAt + usCyc 10 ≤ s.cyc)
  | .admitGrantEnd i, s =>
    if i < 256 then (s.admEnt i).st == 2 && (s.admEnt i).endCyc != 0 && decide ((s.admEnt i).endCyc ≤ s.cyc)
    else match s.adm.outside[i - 256]? with
      | some p => decide (p.endCyc ≤ s.cyc)
      | none => false
  | .admitWindowOpen, s => s.live && s.winOpen
  | .admitDeadline i, s => decide (i < 256) && (s.admEnt i).st == 1 && (s.admEnt i).trig.isNone && decide ((s.admEnt i).deadCyc ≤ s.cyc)
  | _, _ => false

/-- A junction reading of channel `ch` that no other row of this fabric cycle replaces (log 40). -/
def State.tells (s : State) (ch : Nat) (tj : Int) : Bool := (s.setChan ch { s.chan ch with tj := tj }).tjNow ch == tj

/-- When an event of a load channel, a supply group or a P-die has its own effect (08 R190 to R207; 09 R214 to R239). -/
def readyChanEvent : Instr → State → Bool
  | .turnOnEnd ch, s =>
    decide (ch < 40) && (s.chan (s.lead ch)).st == .turnOn && (chClass (s.lead ch) == 0 || decide ((s.chan (s.lead ch)).bwinEnd ≤ s.cyc))
  | .turnOffEnd ch, s => decide (ch < 40) && (s.chan (s.lead ch)).st == .turnOff
  | .slewDeadline ch, s =>
    decide (ch < 40) && chClass ch == 0 && (s.chan ch).turningOn && (s.chan ch).out && decide ((s.chan ch).t0 + msCyc 10 + 200 ≤ s.cyc) &&
      !(s.grp (chGroup ch)).uv
  | .pwmPeriodStart ch, s =>
    let m := s.lead ch
    decide (ch < 40) && (s.chan m).runsPwm && !(s.grp (chGroup m)).uv && (periodIndex (s.chan m).cfg (s.chan m).grid (s.chNow m)).1 != (s.chan m).per
  | .pwmOffEdge ch, s =>
    let c := s.chan (s.lead ch)
    decide (ch < 40) && c.runsPwm && c.out && decide (c.perAt + c.perOn ≤ s.cyc)
  | .currentLimiting ch _ _, _ => decide (ch < 40)
  | .protectOc ch, s =>
    decide (ch < 40) && (s.chan ch).steady && (s.chan ch).limit && decide (tlimCyc ch ≤ (s.chan ch).limCyc + (s.cyc - (s.chan ch).limAt)) &&
      !(s.grp (chGroup ch)).uv
  | .protectSc ch, s =>
    decide (ch < 40) && (s.chan ch).steady && (s.chan ch).scOn && decide (usCyc 20 ≤ (s.chan ch).scCyc + (s.cyc - (s.chan ch).scAt)) &&
      !(s.grp (chGroup ch)).uv
  | .protectOt ch tj, s => decide (ch < 40) && s.tells ch tj && decide (175 ≤ tj) && (s.chan ch).driven && !(s.grp (chGroup ch)).uv
  | .protectDt ch tj, s =>
    decide (ch < 40) && s.tells ch tj && decide (60 ≤ tj - (s.pdie (chDie ch)).tref) && (s.chan ch).driven && !(s.grp (chGroup ch)).uv
  | .retryRestart ch, s =>
    let m := s.lead ch
    decide (ch < 40) && (s.chan m).st == .retryWait && decide ((s.chan m).shutCyc + trstCyc (s.chan m).shutC ≤ s.cyc) &&
      ((s.members m).all fun k => s.cool k) && (s.chan m).act != .off && !(s.grp (chGroup m)).uv
  | .retryCounterReset ch, s =>
    let m := s.lead ch
    decide (ch < 40) && ((s.chan m).st == .on || (s.chan m).st == .pwm) && !((s.members m).any fun k => (s.chan k).limit) &&
      decide ((s.chan m).onCyc + msCyc 1000 ≤ s.cyc)
  | .currentSample ch _ _ _ _, s => decide (ch < 40) && decide ((s.chan ch).smpNext ≤ s.chNow ch)
  | .openLoadOn ch, s =>
    let c := s.chan (s.lead ch)
    decide (ch < 40) && c.olRuns && ranFor (if c.olOn then c.olHigh else c.olLow) (msCyc 50) s.cyc
  | .offStateTest ch _ _, s =>
    let c := s.chan ch
    decide (ch < 40) && c.st == .off && decide (c.offAt + msCyc 10 ≤ s.cyc) && (!bit (le c.cfg 30 2) 14 || decide (c.testAt + msCyc 10 ≤ s.cyc))
  | .buntingImbalance n, s =>
    let p := s.bunt (s.lead n)
    decide (n < 40) && s.bonded (s.lead n) && (if p.imbal then p.imbRun == 2 && decide (p.imbAt + msCyc 100 ≤ s.cyc) else p.imbRun == 1 && decide (p.imbAt + msCyc 10 ≤ s.cyc))
  | .groupUndervoltage g mv, s => decide (g < 4) && !(s.grp g).uv && ranFor ((s.grp g).read (mv / 2) s.cyc s.sys.variant).uvLow (usCyc 20) s.cyc
  | .groupUvRecover g mv, s => decide (g < 4) && (s.grp g).uv && ranFor ((s.grp g).read (mv / 2) s.cyc s.sys.variant).uvHigh (msCyc 1) s.cyc
  | .groupOvervoltage g mv, s =>
    let x := (s.grp g).read (mv / 2) s.cyc s.sys.variant
    decide (g < 4) && (if x.ov then ranFor x.ovLow (msCyc 1) s.cyc else ranFor x.ovHigh (usCyc 100) s.cyc)
  | .reversePolarity g _, _ => decide (g < 4)
  | .dieTempHigh d temp, _ => decide (d < 2) && decide (150 ≤ temp)
  | .dieTempNormal d temp, _ => decide (d < 2) && decide (temp < 150)
  | .cDieAbsent d, s =>
    let x := if d = 2 then s.iso.die else s.pdie d
    decide (d ≤ 2) && x.seen && !x.absent && (decide (s.sys.boot < 2) || decide (x.lastKa + usCyc 200 ≤ s.cyc))
  | .cDiePresent d, s =>
    let x := if d = 2 then s.iso.die else s.pdie d
    decide (d ≤ 2) && x.absent && decide (2 ≤ s.sys.boot) && decide (x.absentAt < x.lastKa)
  | .orphanHoldEnd ch, s => decide (ch < 40) && (s.chan (s.lead ch)).st == .orphanHold && decide ((s.chan (s.lead ch)).orphanEnd ≤ s.cyc)
  | _, _ => false

/-- The sender owns scheduler entry `n` and carries its epoch (04 R96, R106). -/
def State.asksEntry (s : State) (h : Hdr) (n : Nat) : Bool := decide (n < 1024) && s.owner 9 n == h.ring && h.epoch == (s.sent n).epoch

/-- When a command or event of device time and the scheduler has its own effect (05 R125; 06 R138 to R158). -/
def readyTime : Instr → State → Bool
  | .syncReception second port _, s =>
    s.live && s.gptpOn && bit (le s.clk.gptp 20 3) port &&
      (if second then s.domain2On && !s.clk.gm2 && s.clk.slavePort2 == port else s.clk.slavePort == port)
  | .syncTimeout, s => (s.clk.disc == .acquiring || s.clk.disc == .locked) && decide (s.clk.lastSyncCyc + 3 * s.syncCyc ≤ s.cyc)
  | .holdoverTimeout, s => s.clk.disc == .holdover && decide (s.clk.holdCyc + msCyc (le s.clk.gptp 18 2 * 1000) ≤ s.cyc)
  | .bestMasterClockDecision second _ _ _, s => s.live && s.gptpOn && (!second || s.domain2On)
  | .gptpSyncTransmit second, s =>
    s.live && (if second then s.domain2On && s.clk.gm2 else s.clk.disc == .gm) && (match look? s.clk.syncAt (b2n second) with
      | some t => decide (t + s.syncCyc ≤ s.cyc)
      | none => true)
  | .dtLoRead _, s => s.live
  | .schedTime h op _, s =>
    s.mpUp && h.epoch == 0 && h.ring == 0 && decide (op ≤ 1) && (s.clk.disc == .free || s.clk.disc == .gm)
  | .schedWrite h entry rcd, s =>
    s.mpUp && s.asksEntry h entry && byteAt rcd 3 == 0 && decide (byteAt rcd 2 < 32) && !schedRange rcd && !schedMix rcd &&
      !s.schedTarget rcd h.ring && (s.sent entry).st != 2
  | .schedClear h entry, s => s.mpUp && s.asksEntry h entry && (s.sent entry).st != 2
  | .schedArm h entry trigger, s =>
    s.live && s.asksEntry h entry && (byteAt (s.sent entry).rcd 0 == 0 || Machine.signed 32 trigger == Machine.signed 64 trigger) &&
      (s.sent entry).st != 0 && (s.sent entry).st != 2
  | .schedDisarm h entry, s => s.live && s.asksEntry h entry && (s.sent entry).st == 2
  | .schedDispatch n, s => decide (n < 1024) && s.live && s.firstDue n && (s.sch.dispAt != some s.cyc || decide (s.sch.dispN < 4))
  | _, _ => false

/-- The sender owns isolated channel `n`, and the I-die can be written (05 R127). -/
def State.asksIso (s : State) (h : Hdr) (n : Nat) : Bool := h.epoch == 0 && decide (n < 16) && s.owner 13 n == h.ring && s.reaches 3

/-- When a command or event of the inputs and of the isolated channels has its own effect (05 R127; 17 R420 to R445). -/
def readyInput : Instr → State → Bool
  | .inputSw h input wet deb flags maxact chatter window, s =>
    s.mpUp && h.epoch == 0 && decide (input < 48 ∧ h.ring ≤ 1 ∧ wet < 16 ∧ wet % 8 ≤ 5 ∧ flags < 4 ∧ deb ≤ 65 ∧ maxact ≤ 86400000 ∧ chatter ≠ 1) &&
      (if chatter = 0 then window == 0 else decide (10 ≤ window ∧ window ≤ 60000))
  | .inputStuckDetect n, s =>
    let x := s.sw n
    decide (n < 48) && s.live && x.maxAct != 0 && x.value && !x.stuck && decide (x.actAt + msCyc x.maxAct ≤ s.cyc)
  | .chatterWindowEnd n, s =>
    decide (n < 48) && s.live && (s.sw n).conf && (s.sw n).win != 0 && decide ((s.sw n).winAt + msCyc (s.sw n).win ≤ s.cyc)
  | .inputClear h input what, s =>
    let x := s.sw input
    s.mpUp && h.epoch == 0 && decide (input < 48 ∧ h.ring ≤ 1 ∧ what < 4) && !(bit what 0 && x.stuck && x.value) &&
      !(bit what 1 && x.chatF && (match x.lastWin with
        | none => true
        | some k => decide (x.chat < k)))
  | .inputAn h an conv deb, s => s.mpUp && h.epoch == 0 && decide (an < 24 ∧ h.ring ≤ 1 ∧ conv ≤ 1 ∧ deb ≤ 65) && !s.shutGate (0x60 + conv)
  | .adcConversion c an code, s =>
    decide (c < 2 ∧ an < 24 ∧ code < 4096) && s.live && !s.cut (0x60 + c) && (s.conv c).conf && s.scanNext c == some an &&
      decide ((s.conv c).scanAt ≤ s.cyc ∧ (s.conv c).free ≤ s.cyc)
  | .inputPc h pc mode deb zpre _, s => s.mpUp && h.epoch == 0 && decide (pc < 4 ∧ h.ring ≤ 1 ∧ mode ≤ 2 ∧ deb ≤ 65 ∧ zpre ≤ 1)
  | .pcEdge k a b, s =>
    let x := s.pc k
    decide (k < 4) && s.live && x.conf && x.a.isSome && x.b.isSome && !(x.a == some a && x.b == some b) &&
      (x.a == some a || decide (x.aAt + debCyc 9 x.deb ≤ s.cyc)) && (x.b == some b || decide (x.bAt + debCyc 9 x.deb ≤ s.cyc))
  | .pcZEdge k, s => decide (k < 4) && s.live && (s.pc k).conf && (s.pc k).z == some false && decide ((s.pc k).zAt + debCyc 9 (s.pc k).deb ≤ s.cyc)
  | .inputLevelAccept kind i level, s =>
    let p := s.pc (i / 3)
    if kind = 0 then
      let x := s.sw i
      decide (i < 48) && s.live && x.conf && x.filt != some level && runDone 41 x.deb x.filtAt s.cyc
    else if kind = 1 then
      decide (i < 12) && s.live && p.conf &&
        (if i % 3 = 0 then p.a.isNone && runDone 9 p.deb p.aAt s.cyc
         else if i % 3 = 1 then p.b.isNone && runDone 9 p.deb p.bAt s.cyc
         else p.z.isNone && runDone 9 p.deb p.zAt s.cyc || p.z == some true && !level && decide (p.zAt + debCyc 9 p.deb ≤ s.cyc))
    else
      let x := s.isoCh i
      kind == 2 && decide (i < 16) && x.mode != 3 && x.filt != some level && runDone 41 x.deb x.filtAt s.cyc
  | .inputUnset kind i, s =>
    kind == 0 && decide (i < 48) && s.live && (s.sw i).conf && decide ((s.sw i).filtAt + unsetCyc (s.sw i).deb < s.cyc) ||
      kind == 2 && decide (i < 16) && (s.isoCh i).mode != 3 && decide ((s.isoCh i).filtAt + unsetCyc (s.isoCh i).deb < s.cyc)
  | .isoCfg h ch mode deb, s => s.mpUp && s.asksIso h ch && decide (mode ≤ 2 ∧ deb ≤ 65) && !s.isoOn ch
  | .isoSet h ch value, s =>
    s.mpUp && s.asksIso h ch && decide (value ≤ 1) && (s.isoCh ch).mode == 2 && !(s.isoCh ch).mism && (value == 0 || s.iso.vfok && !s.flt.safe) &&
      !(s.iso.wr.any fun x => x.ch == ch) && !s.pending.any (s.isoRival ch true)
  | .isoClear h ch, s =>
    s.mpUp && s.asksIso h ch && (!(s.isoCh ch).mism || ((s.isoCh ch).readBack != 1 && !((s.isoCh ch).cause == 4 && (s.isoCh ch).hot)))
  | .isoBlankingEnd ch, s => decide (ch < 16) && (match (s.isoCh ch).blank with
      | some t => decide (t ≤ s.cyc)
      | none => false)
  | .isoMismatchDetect ch, s =>
    let x := s.isoCh ch
    decide (ch < 16) && x.mode == 2 && s.iso.vfok && !x.mism && x.blank == none && x.filt == some (!x.cmd) &&
      decide (Nat.max x.filtAt x.blankAt + Nat.max (debCyc 41 x.deb) (usCyc 100) < s.cyc)
  | .isoOverload ch _, s => decide (ch < 16) && s.isoOn ch && !(s.isoCh ch).mism
  | .vfieldOk mv, s => s.sys.pwr == .valid && ranFor (s.iso.read mv s.cyc).okRun (msCyc 10) s.cyc && !s.iso.vfok
  | .vfieldLoss mv, s => s.sys.pwr == .valid && ranFor (s.iso.read mv s.cyc).lowRun (usCyc 100) s.cyc && s.iso.vfok
  | .isoLinkSilent, s => s.iso.linkok
  | .barrierLinkReturn, s => s.sys.pwr == .valid
  | .isoOrphanTimeout, s => decide (s.iso.die.absentAt + msCyc 100 ≤ s.cyc)
  | _, _ => false

/-- When a CAN command or an event of a CAN controller has its own effect (05 R121; 12 R300 to R317). -/
def readyCan (r : List Byte) : Instr → State → Bool
  | .canCtrl h _ len ctrl, s =>
    s.mpUp && h.epoch == 0 && decide (ctrl < 12 ∧ h.ring ≤ 1) && len == 64 && decide (byteAt r 1 < 64) && allZero (r.drop 20) && !ctlRange r &&
      !ctlMix ctrl r && !s.shutGate (ctlGate ctrl) && (s.ctl ctrl).mode == 0
  | .canMode h ctrl mode, s =>
    s.mpUp && h.epoch == 0 && decide (ctrl < 12 ∧ h.ring ≤ 1 ∧ mode ≤ 3) && !s.shutGate (ctlGate ctrl) && (!s.canHeld ctrl || mode == 2) &&
      (mode == 0 || byteAt (s.ctl ctrl).rcd 0 == 1)
  | .canBusIntegration c, s =>
    decide (c < 12) && (s.ctl c).integ && (decide (8 ≤ c) || decide ((s.seg c).xst < 2) || (s.ctl c).mode == 0)
  | .canModeFrameEnd c, s => decide (c < 12) && (s.ctl c).want.isSome && (s.ctl c).mode == 1 && (s.ctl c).tx.isNone
  | .canBusoffRecoveryStart c, s =>
    let x := s.ctl c
    decide (c < 12) && x.mode == 1 && x.err == 2 && le x.rcd 18 2 != 0 && decide (x.boffAt + msCyc (le x.rcd 18 2) ≤ s.cyc)
  | .canBusoffRecoveryEnd c, s => decide (c < 12) && (s.ctl c).mode == 1 && (s.ctl c).err == 2 && (s.ctl c).recov
  | .canObj h obj fmt enable id ctrl, s =>
    let tx := decide (2048 ≤ obj)
    s.mpUp && decide (obj ≤ 2559 ∧ ctrl ≤ 19) && s.objOwner obj == h.ring && h.epoch == (s.cobj obj).epoch && !(decide (ctrl < 12 ∧ fmt < 2) && badCanId id) &&
      !s.objMix fmt enable id ctrl && !s.shutGate (ctlGate ctrl) &&
      !((s.objsOf ctrl tx).any fun (p : Nat × CObj) => p.1 != obj && p.2.id == id) &&
      !(tx && decide (ctrl < 12) && (s.ctl ctrl).tm && (s.ctl ctrl).tmId == id) && !(tx && s.pennantId ctrl id)
  | .canTx h obj false _ _ data, s =>
    s.mpUp && decide (2048 ≤ obj ∧ obj ≤ 2559) && s.objOwner obj == h.ring && h.epoch == (s.cobj obj).epoch && decide (data.length ≤ 48) &&
      (firstBad (s.txChecks obj data)).isNone
  | .canTx h obj true _ _ _, s =>
    s.mpUp && decide (2048 ≤ obj ∧ obj ≤ 2559) && s.objOwner obj == h.ring && h.epoch == (s.cobj obj).epoch && (firstBad (s.txChecks obj r)).isNone
  | .canAuth h ctrl op id locket maclen, s =>
    s.mpUp && h.epoch == 0 && decide (ctrl < 12 ∧ locket < 128 ∧ h.ring ≤ 1 ∧ op ≤ 1) && !badCanId id &&
      (op == 1 || s.owner 10 locket == h.ring && decide (4 ≤ maclen ∧ maclen ≤ 16) && s.ktype locket == 2 && byteAt (s.slot0 locket) 1 % 4 == 3 &&
        ((s.protOf ctrl id).isSome || decide (s.can.prot.length < 256)))
  | .canTmaster h ctrl enable entry id, s =>
    s.mpUp && h.epoch == 0 && decide (ctrl < 12 ∧ entry < 1024 ∧ h.ring ≤ 1 ∧ enable ≤ 1) && s.owner 9 entry == h.ring && !badCanId id &&
      !s.shutGate (ctlGate ctrl) &&
      (enable == 0 || (s.sent entry).st != 0 && (s.sent entry).action == 6 && (s.sent entry).target == ctrl &&
        !((s.objsOf ctrl true).any fun (p : Nat × CObj) => p.2.id == id))
  | .canRefmsgTimeout c, s => decide (c < 12) && !(s.ctl c).refBeg && (match (s.ctl c).refQ with
      | some t => decide (t + msCyc 10 ≤ s.cyc)
      | none => false)
  | .freshnessSave n, s => s.mpUp && (match s.can.prot[n]? with
      | some p => p.due && (p.granted || !p.asked)
      | none => false)
  | _, _ => false

/-- When an event on a CAN bus has its own effect (12 R303 to R314). -/
def readyCanBus : Instr → State → Bool
  | .canFrameReceive c frame _, s => decide (c < 12) && !s.selWake c && s.live && s.onBus c && validFrame frame
  | .canReceiveError c kind _, s => decide (c < 12) && !s.selWake c && s.live && s.onBus c && decide (1 ≤ kind ∧ kind ≤ 5) && (s.ctl c).tx.isNone
  | .canTxStart c, s =>
    let x := s.ctl c
    decide (c < 12) && s.live && !s.cut (ctlGate c) && x.mode == 1 && x.err != 2 && !x.integ && x.want.isNone && x.tx.isNone &&
      (decide (8 ≤ c) || (s.seg c).xst == 0)
  | .canTxDone c _, s => decide (c < 12) && (s.ctl c).tx.isSome
  | .canTxError c kind _, s => decide (c < 12 ∧ kind ≤ 5) && (s.ctl c).tx.isSome
  | .d2dError link, s => s.live && (decide (link < 8) || decide (12 ≤ link ∧ link < 20))
  | _, _ => false

/-- When a LIN command or event has its own effect (05 R121; 12 R321 to R325; 14 R360). -/
def readyLin (r : List Byte) : Instr → State → Bool
  | .canLin h _ _ lin, s =>
    s.mpUp && h.epoch == 0 && decide (lin < 8) && s.owner 6 lin == h.ring && decide (16 ≤ r.length) && r.length == linLength r && !linReserved r &&
      !linRange r && !linMix r && !s.shutGate (0x30 + lin) && !(s.lin lin).run
  | .canLinrun h lin table mode, s =>
    s.mpUp && h.epoch == 0 && decide (lin < 8) && s.owner 6 lin == h.ring && (table == 0xFF || decide (table < linTables (s.lin lin).rcd)) &&
      decide (mode ≤ 1) && !s.shutGate (0x30 + lin)
  | .linSlotStart l _, s =>
    let x := s.lin l
    decide (l < 8) && s.live && x.run && !s.cut (0x30 + l) && decide (x.nextAt ≤ s.now) && x.wait.isNone && (s.seg (8 + l)).xst == 0 && x.atSlot.run
  | .linResponseRx l data code _, s => decide (l < 8) && (match (s.lin l).wait with
      | some k => decide (code ≠ 0) || data.length == linLen (s.lin l).rcd k
      | none => false)
  | .linNoResponse l, s => decide (l < 8) && (match (s.lin l).wait with
      | some k => decide (linMax10 (linLen (s.lin l).rcd k) * 1000000000 ≤ (s.now - (s.lin l).start) * le (s.lin l).rcd 2 2 * 10)
      | none => false)
  | .bridgeLinAgeExpiry l fid, s => decide (l < 8) && (match look? (s.lin l).buf fid with
      | some c => s.aged c
      | none => false)
  | _, _ => false

/-- Admission can take a request of a firmware operation of `amount` on budget 4 (07 R168, R169). -/
def State.hasLeave (s : State) (amount : Nat) : Bool := s.admFree.isSome && decide (amount ≤ (s.budget 4).limit)

/-- When a command or event of sleep and wake has its own effect (05 R122; 13 R330 to R344). -/
def readyWake (r : List Byte) : Instr → State → Bool
  | .wakeSource h _ len, s =>
    s.mpUp && h.epoch == 0 && decide (h.ring ≤ 1) && len == 720 && !wakeReserved r && !wakeRange r && !wakeMix r &&
      !((List.range 22).any fun g => (s.seg g).pst != 0) && !s.wakeHeld r && !s.wakeRate r && s.reaches 0
  | .wakeInh h mask level, s => s.mpUp && h.epoch == 0 && h.ring == 0 && decide (mask ≤ 15 ∧ level ≤ 15) && s.reaches 0
  | .wakeXcvr h sg st, s =>
    s.mpUp && h.epoch == 0 && decide (sg < 22 ∧ h.ring ≤ 1 ∧ st ≤ 3) && !(st == 1 && decide (8 ≤ sg ∧ sg < 16)) &&
      ((s.seg sg).pst == 0 || st == 0) && s.reaches 0
  | .segmentSleepEntry sg, s => decide (sg < 22) && (s.seg sg).xst == 2 && (match (s.seg sg).sleepAt with
      | some t => decide (t ≤ s.cyc)
      | none => false)
  | .wakeIndicate h mask _ attempts, s =>
    let l := maskList 22 mask
    let up := fun g => s.asleep g || (if g < 8 then (s.ctl g).mode == 1 else if g < 16 then true else (s.port (segPort g)).lst == .up)
    s.mpUp && h.epoch == 0 && decide (h.ring ≤ 1 ∧ mask < 2 ^ 22 ∧ 1 ≤ attempts ∧ attempts ≤ 15) &&
      (l.all fun g => s.pennant g && (s.seg g).pst == 0 && up g) && s.reaches 0
  | .pennantReadyRx sg seq node _, s =>
    let x := s.seg sg
    decide (sg < 22) && s.live && x.pst == 1 && seq == x.seq && bit (le (s.segRec sg) 6 2) node && decide (x.xst < 2) && (match x.winAt with
      | some t => decide (s.cyc < t)
      | none => false)
  | .pennantReadyTimeout sg, s => decide (sg < 22) && (s.seg sg).pst == 1 && (match (s.seg sg).winAt with
      | some t => decide (t ≤ s.cyc)
      | none => decide (sg < 8) && (s.ctl sg).mode != 1)
  | .pennantCommitPoint sg, s => decide (sg < 22) && (s.seg sg).pst == 2 && (decide (8 ≤ sg ∧ sg < 16) || (match (s.seg sg).commitAt with
      | some t => decide (t ≤ s.cyc)
      | none => false))
  | .pennantRetry sg, s => decide (sg < 22) && (s.seg sg).pst == 3 && s.wake.ind.any (fun (i : Ind) => !i.past && i.segs.contains sg) &&
      (match (s.seg sg).retryAt with
      | some t => decide (t ≤ s.cyc)
      | none => false)
  | .wakeIndicateDeadline ring ctag, s =>
    match s.wake.ind.find? fun (i : Ind) => i.h.ring == ring && i.h.ctag == ctag && !i.past with
    | some i => decide (i.dead ≤ s.cyc)
    | none => false
  | _, _ => false

/-- When a BRIDGE command or event of the frame bridge has its own effect (05 R123; 14 R351 to R363). -/
def readyBridge : Instr → State → Bool
  | .bridgeRoute h entry rcd, s =>
    s.mpUp && decide (entry < 4096) && s.owner 8 entry == h.ring && s.endsOwned h.ring rcd && h.epoch == (s.route entry).epoch &&
      !routeReserved rcd && !routeRange rcd && !s.routeMix rcd &&
      !(s.brg.route.any fun (p : Nat × Route) => p.1 != entry && p.2.written && keysMeet p.2.rcd rcd)
  | .bridgeClear h entry, s => s.mpUp && decide (entry < 4096) && s.owner 8 entry == h.ring && h.epoch == (s.route entry).epoch
  | .bridgeWakelist h sg op entry, s =>
    let l := look (fun _ => []) s.brg.wake sg
    s.mpUp && h.epoch == 0 && decide (sg ≤ 15 ∧ entry < 4096 ∧ h.ring ≤ 1 ∧ op ≤ 1) && (op == 1 || decide (l.length < 16) || l.contains entry)
  | .bridgeLookup, s => s.lookupDue && (match s.nextQueue with
    | none => false
    | some q => !(look (fun _ => []) s.brg.inq q).isEmpty)
  | .sp19AvtpduReceive vid _ _ _, s => s.live && bit (look (fun _ => ({} : Vlan)) s.net.vlan vid).member 19
  | _, _ => false

/-- A Locket the sender owns, or any for tag 0 (05 R131). -/
def State.asksSlot (s : State) (h : Hdr) (slot : Nat) : Bool := h.epoch == 0 && decide (slot < 128) && s.owner 10 slot == h.ring

/-- When a KEY or ATTEST command has its own effect, the Locket's code and the ciphers apart (05 R131; 19 R476 to R496). -/
def readyKey (r : List Byte) : Instr → State → Bool
  | .keyWrite h _ len slot, s =>
    let k := byteAt r 0
    let u := byteAt r 1
    s.mpUp && h.epoch == 0 && decide (slot < 128) && (h.ring == 0 || (s.owner 10 slot == h.ring && look (fun _ => false) s.key.permit slot)) &&
      len == 64 && decide (1 ≤ k ∧ k ≤ 4 ∧ u ≠ 0) && (u &&& usageOf k) == u && allZero (slice r 2 14) && allZero (slice r 60 4) &&
      (k == 3 || allZero (slice r 48 12)) && s.sys.lcCur != 0 && s.hasLeave 300
  | .keyDerive h slot ktype label, s =>
    s.mpUp && h.epoch == 0 && decide (slot < 128 ∧ 1 ≤ ktype ∧ ktype ≤ 4 ∧ label.length ≤ 48) && (h.ring == 0 || s.owner 10 slot == h.ring) &&
      s.sys.lcCur != 0 && s.hasLeave 300
  | .keyErase h slot, s =>
    s.mpUp && h.epoch == 0 && decide (slot < 128) && (h.ring == 0 || s.owner 10 slot == h.ring) && s.sys.lcCur != 0 && s.hasLeave 300
  | .keyPermit h slot allow, s => s.mpUp && h.epoch == 0 && decide (slot < 128 ∧ allow ≤ 1) && h.ring == 0 && s.sys.lcCur != 0
  | .keyAead h _ _ slot op _ out outLen, s =>
    let al := le r 0 2
    let n := (r.drop (4 + al)).length
    s.mpUp && s.asksSlot h slot && le r 2 2 == 0 && decide (op ≤ 1) && decide (4 + al ≤ r.length) && (op == 0 || decide (16 ≤ n)) &&
      s.outOK h.ring out outLen (if op = 0 then n + 16 else n - 16) && s.sys.lcCur != 0 && !s.shutGate 2 &&
      s.ktype slot == 1 && (byteAt (s.slot0 slot) 1 &&& (if op = 0 then 1 else 2)) == (if op = 0 then 1 else 2)
  | .keyCmac h _ _ slot out outLen, s =>
    s.mpUp && s.asksSlot h slot && s.outOK h.ring out outLen 16 && s.sys.lcCur != 0 && !s.shutGate 2 && s.ktype slot == 2 &&
      (byteAt (s.slot0 slot) 1 &&& 1) == 1
  | .keySign h _ _ slot out outLen, s => s.mpUp && s.asksSlot h slot && s.outOK h.ring out outLen 3309 && s.sys.lcCur != 0 && s.hasLeave 900
  | .keyVerify h _ len, s => s.mpUp && h.epoch == 0 && decide (5261 ≤ len) && s.sys.lcCur != 0 && !s.shutGate 1
  | .keyPubkey h out outLen slot, s =>
    s.mpUp && s.asksSlot h slot && s.outOK h.ring out outLen 1952 && s.sys.lcCur != 0 && !s.shutGate 1 && s.ktype slot == 4 &&
      (byteAt (s.slot0 slot) 1 &&& 4) == 4
  | .attestReport h out outLen _, s => s.mpUp && h.epoch == 0 && s.outOK h.ring out outLen 4016 && s.sys.lcCur != 0 && s.sys.lcCur != 5 && s.hasLeave 900
  | .attestExtend h len data, s => s.mpUp && h.epoch == 0 && decide (1 ≤ len ∧ len ≤ 48) && allZero (data.drop len) && s.sys.lcCur != 0
  | .attestIdentity h out outLen, s => s.mpUp && h.epoch == 0 && s.outOK h.ring out outLen 1952 && s.sys.lcCur != 0 && s.sys.lcCur != 5 && !s.shutGate 1
  | _, _ => false

/-- When a FAULT command, or an event of the fault collector, of the event router or of the watchdog, has its own effect (05 R118, R132; 21
R518 to R541; 04 R103). -/
def readyFault : Instr → State → Bool
  | .faultCfg h src sev event line, s =>
    s.mpUp && h.epoch == 0 && h.ring == 0 && decide (sev ≤ 3 ∧ event ≤ 1 ∧ line ≤ 511) && (match srcRow src with
      | some r => decide (r.2.1 ≤ sev)
      | none => false)
  | .faultInject h src, s => s.mpUp && h.epoch == 0 && h.ring == 0 && (srcRow src).isSome && s.sys.lcCur != 3
  | .faultLogclr h _, s => s.mpUp && h.epoch == 0 && h.ring == 0 && s.hasLeave 300
  | .faultLogMirror, s => s.live && s.flt.dirty
  | .faultReactionStart, s => s.live && !s.flt.waiting.isEmpty
  | .faultRelease h src, s =>
    let mine := fun (p : Nat × Nat) => p.1 == src
    s.mpUp && h.epoch == 0 && h.ring == 0 && (srcRow src).isSome && !s.condActive src &&
      (s.flt.holds.any mine || (srcClass src == .ch || srcClass src == .can) && s.flt.waiting.any mine)
  | .safeLineDemand, s => s.flt.safeReq
  | .faultRecover h, s => s.mpUp && h.epoch == 0 && h.ring == 0 && !s.s3Active && s.flt.safe
  | .safeNChange _, s => s.live
  | .sysWdi h enable tmax tmin, s =>
    s.mpUp && h.epoch == 0 && h.ring == 0 && enable == 1 && decide (100 ≤ tmax ∧ tmax ≤ 1000000 ∧ 2 * tmin ≤ tmax) && !s.flt.wdi
  | .wdiToggle, s => s.flt.wdi
  | .wdiTimeout, s => s.flt.wdi && decide (s.flt.wdiAt + usCyc s.flt.wdiMax ≤ s.cyc)
  | .clkLoss, s => s.sys.clkSrc != .unset
  | .cdieOvertemp temp, s => s.live && (decide (160 ≤ temp) || decide (temp < 150))
  | .rtPairFault k kind, s => decide (k < 3) && s.live && !(kind == 1 && s.dogPaused (0x10 + k))
  | .mpFault kind, s => s.live && !(kind == 1 && s.dogPaused 0x20)
  | .eventCfgWrite ini tag n value, s => decide (n < 512) && s.live && s.presents ini tag && (tag == 0 || s.owner 11 n == tag) && s.evCfgOk (s.owner 11 n) value
  | .eventPendClear ini tag n value, s => decide (n < 512) && s.live && s.presents ini tag && (tag == 0 || s.owner 11 n == tag) && bit value 0
  | .eventSwtrig ini tag n value, s => decide (n < 512) && s.live && s.presents ini tag && (tag == 0 || s.owner 11 n == tag) && bit value 0
  | .eventPulse n, s => decide (n < 512) && s.flt.pulses.contains n
  | .stateRead h out outLen obj index count, s => s.mpUp && h.epoch == 0 && count != 0 && (match readObj obj with
      | some (n, _, _) => decide (index < s.objLast obj n) &&
          s.outOK h.ring out outLen (s.readRecs h.ring obj index count (s.objLast obj n)).flatten.length
      | none => false)
  | _, _ => false

/-- Bytes of one burst of capture `k` (20 R507; 08 R207): up to the next 64-byte boundary of the far address, of what has been recorded and not
yet read. -/
def State.burstLen (s : State) (ch : Nat) (smp : List (Int × Int)) (far : Nat) (k : Capture) : Nat :=
  let a := if k.done = 0 then far / 4 * 4 else k.far
  let n := Nat.min (Nat.min (s.recorded ch k) (4 * k.count - k.done)) (64 - a % 64)
  if k.kind = 0 then n else Nat.min n (4 * smp.length)

/-- When a ring event, a tenancy command or an event of the frame bus has its own effect (04 R82 to R88; 05 R118, R128 to R130; 18 R452 to
R465; 20 R507 to R512). -/
def readyTenancy : Instr → State → Bool
  | .completionPublish n, s =>
    decide (n < 16) && s.live && (s.ring n).st != 0 && decide (idx (s.ring n).cplTail (s.ring n).cplHead < (s.ring n).entries) &&
      (match s.hal.due.find? fun (c : Cpl) => c.ring == n with
      | some c => s.spanOK halyardIni n 1 ((s.ring n).base + 64 * (s.ring n).entries + 16 * ((s.ring n).cplTail % (s.ring n).entries)) c.bytes.length
      | none => false)
  | .cmdDb ini tag n value, s =>
    let r := s.ring n
    decide (n < 16) && s.live && s.presents ini tag && tag == n && r.st == 1 && decide (idx value r.cmdHead ≤ r.entries ∧ idx value r.cmdTail ≤ r.entries)
  | .cplDb ini tag n value, s =>
    let r := s.ring n
    decide (n < 16) && s.live && s.presents ini tag && tag == n && r.st == 1 && decide (idx value r.cplHead ≤ idx r.cplTail r.cplHead)
  | .ringAttach ini tag n size hi, s =>
    let r := s.ring n
    decide (n < 16) && s.live && s.presents ini tag && tag == n && r.enabled && r.st == 0 && decide (4 ≤ size ∧ size ≤ 10) &&
      s.areaOK n (hi % 256 * 2 ^ 32 + r.baseLo / 4096 * 4096) (areaLen (2 ^ size))
  | .ringDetach ini tag n, s => decide (n < 16) && s.live && s.presents ini tag && tag == n && (s.ring n).st == 1
  | .tenancyTableSave, s => s.mpUp && s.ten.dirty && (s.saveGranted || (s.ten.saveH == noHandle && decide (s.ten.saveAt ≤ s.cyc)))
  | .tenAssign h kind tag index count, s =>
    let units := (List.range (if epochKind kind then 1 else count)).map (index + ·)
    s.mpUp && h.ring == 0 && decide (1 ≤ kind ∧ kind ≤ 13 ∧ tag ≤ 15 ∧ 1 ≤ count) && units.all (unitExists kind) &&
      (if epochKind kind then count == 1 && h.epoch == s.unitEpoch kind index else h.epoch == 0) &&
      (units.filter fun i => s.owner kind i != tag).all (s.unitFree kind)
  | .sysPincfg h pin func pull, s =>
    let f := fun p => (look (fun _ => ({} : Pin)) s.sys.pins p).func
    s.mpUp && h.epoch == 0 && decide (pin < 32 ∧ func ≤ 3 ∧ pull ≤ 2) && s.owner 2 pin == h.ring &&
      (func == 0 || !(List.range 32).any fun p => p != pin && f p == func && pinInst p func == pinInst pin func && s.owner 2 p != h.ring)
  | .tenBezel h range tag enable perms base size, s =>
    s.mpUp && h.epoch == 0 && h.ring == 0 && decide (range < 32 ∧ perms < 8 ∧ tag < 16) &&
      (enable == 1 && size != 0 && s.bezInside base size || enable == 0 && decide (tag = 0 ∧ perms = 0 ∧ base = 0 ∧ size = 0))
  | .bezelFillDone, s => s.mpUp && s.ten.fill.isSome
  | .tenRingcfg h ring enable quota fwquota event, s =>
    s.mpUp && h.epoch == 0 && h.ring == 0 && decide (ring < 16 ∧ 1 ≤ quota ∧ quota ≤ 768 ∧ fwquota ≤ 128) &&
      (enable == 1 || enable == 0 && decide (2 ≤ ring)) && (event == 0xFFFF || decide (event < 512) && s.owner 11 event == ring) &&
      decide (s.quotaSum (·.quota) ring quota ≤ 768 ∧ s.quotaSum (·.fwQuota) ring fwquota ≤ 128)
  | .tenClasp h clasp op tagA tagB evA evB, s =>
    s.mpUp && h.ring == 0 && decide (clasp < 32 ∧ tagA < 16 ∧ tagB < 16) && h.epoch == (s.clasp clasp).epoch &&
      (op == 0 && s.lineOf evA tagA && s.lineOf evB tagB && tagA != tagB && !(s.clasp clasp).ex || op == 1 && (s.clasp clasp).ex)
  | .tenPost h clasp _, s =>
    let x := s.clasp clasp
    s.mpUp && decide (clasp < 32) && x.ex && (x.tagA == h.ring || x.tagB == h.ring) && h.epoch == x.epoch &&
      decide ((if x.tagA == h.ring then x.ab else x.ba).length < 64)
  | .tenTake h out outLen clasp, s =>
    let x := s.clasp clasp
    s.mpUp && decide (clasp < 32) && x.ex && (x.tagA == h.ring || x.tagB == h.ring) && h.epoch == x.epoch && s.outOK h.ring out outLen 48 &&
      !(if x.tagA == h.ring then x.ba else x.ab).isEmpty
  | .tenGate h gate op, s =>
    let x := s.gate gate
    let own := s.owner 12 gate == h.ring
    s.mpUp && h.epoch == 0 && gateExists gate &&
      (op == 0 && !x.cut && (x.pend.isEmpty || own) && decide (s.useCount gate h.ring < 15) || op == 1 && decide (1 ≤ s.heldCount gate h.ring) ||
       (op == 2 || op == 3) && own)
  | .gateCutApply gate, s => gateExists gate && s.live && !(s.gate gate).pend.isEmpty && !s.usedByOther gate && s.gateIdle gate
  | .sysFbpoll h poll, s => s.mpUp && h.epoch == 0 && h.ring == 0 && decide (poll ≤ 16)
  | .fbPoll die _ _, s =>
    decide (die < 4) && s.live && !s.linkDown die && (match look? s.fb.pollAt die with
      | none => true
      | some t => decide (t + s.fb.poll * 200 ≤ s.cyc))
  | .fbPostedWrite ini tag ch word _ _, s =>
    decide (ch < 40) && s.live && s.presents ini tag && s.directSent tag ch (bits word 31 16) (bits word 15 14) (bits word 13 10)
  | .fbDataBurst ch smp far _ _, s => decide (ch < 40) && s.live && (match (s.chan ch).cap with
      | some k => k.started && s.burstLen ch smp far k != 0
      | none => false)
  | _, _ => false

/-- When a NET command or an event of a switch port has its own effect (05 R120; 11 R270 to R293). `r` is the record a descriptor brought. -/
def readyNet (r : List Byte) : Instr → State → Bool
  | .linkTrainingDone p, s =>
    let l := (s.port p).lst
    decide (p < 20) && (isT1 p && l == .training || isT1s p && (s.seg (p + 6)).xst != 1 && l == .down && !s.asleep (p + 6) || decide (p ≤ 1))
  | .linkTrainingTimeout p, s => decide (p < 20) && (s.port p).lst == .training && decide ((s.port p).trainAt + msCyc 500 ≤ s.cyc)
  | .linkRetryTimer p, s => decide (p < 20) && (match (if isT1s p then (s.seg (p + 6)).retryLink else (s.port p).retryAt) with
      | some t => decide (t ≤ s.cyc)
      | none => false)
  | .linkLoss p, s => decide (p < 16) && (decide (p ≤ 1) || (s.port p).lst == .up || (s.port p).lst == .sleepReq)
  | .mdioPoll p _, s => decide (p < 2) && s.live
  | .usxgmiiInbandWord p w, s => decide (p < 2) && s.live && bit w 0
  | .tc10SleepRequestRx p, s => decide (p < 20) && isT1 p && (s.port p).lst == .up
  | .tc10SleepAckRx p, s => decide (p < 20) && isT1 p && (s.port p).lst == .sleepReq && decide (s.cyc ≤ (s.port p).sleepAt + msCyc 16)
  | .tc10SleepAbort p, s => decide (p < 20) && isT1 p && (s.port p).lst == .sleepReq
  | .tc10WakeupRx p, _ => decide (p < 20)
  | .netSleep h port, s => s.mpUp && h.epoch == 0 && decide (h.ring ≤ 1) && isT1 port && (s.port port).lst == .up
  | .netWake h port _, s => s.mpUp && h.epoch == 0 && decide (h.ring ≤ 1 ∧ 2 ≤ port ∧ port ≤ 15)
  | .netWakeDeadline p, _ => decide (p < 20)
  | .netPortcfg h _ len port, s =>
    s.mpUp && h.epoch == 0 && decide (port < 20 ∧ h.ring ≤ 1) && len == 64 && !portReserved r && !portRange port r && !s.portMix port r &&
      !(bit (byteAt r 1) 0 && linkFields (s.portRec port) r && (s.port port).lst != .disabled && (s.port port).lst != .down)
  | .netVlan h vid member untag, s =>
    s.mpUp && h.epoch == 0 && decide (1 ≤ vid ∧ vid ≤ 4094 ∧ member < 2 ^ 20 ∧ untag < 2 ^ 20) && s.owner 7 vid == h.ring
  | .netFdb h op _ vid mask, s =>
    s.mpUp && h.epoch == 0 && decide (h.ring ≤ 1) && (op == 2 || decide (1 ≤ vid ∧ vid ≤ 4094) && (op == 1 || op == 0 && decide (mask < 2 ^ 20)))
  | .netTsn h _ len table port _, s =>
    let n := (tsnShape table).1
    let count := le r 2 2
    let l := tsnEnts r n
    s.mpUp && h.epoch == 0 && decide (h.ring ≤ 1 ∧ table ≤ 3) && (if table ≤ 1 then decide (port < 20) else port == 0) && decide (16 ≤ len) &&
      len == 16 + count * n && allZero (slice r 8 8) && !l.any (tsnReserved table) && (table != 0 || le r 0 2 == 0) &&
      (if table = 0 then count == 0 || decide (10000 ≤ le r 4 4 ∧ le r 4 4 ≤ 1000000000) else le r 4 4 == 0) && !l.any (tsnRange table) &&
      decide (le r 0 2 + count ≤ (tsnShape table).2) && !s.tsnMix table port r
  | .netMacsec h port op an dir locket _ ssci pn, s =>
    s.mpUp && h.epoch == 0 && h.ring == 0 && decide (port ≤ 5 ∧ op ≤ 3 ∧ an ≤ 3 ∧ dir ≤ 1) &&
      (op != 0 || decide (locket < 128) && s.owner 10 locket == 0 && (ssci != 0 || decide (pn < 2 ^ 32)) && s.ktype locket == 3 &&
        bit (byteAt (s.slot0 locket) 1) dir)
  | .netGptp h _ len, s =>
    s.mpUp && h.epoch == 0 && decide (h.ring ≤ 1) && len == 32 && decide (byteAt r 1 < 8 ∧ byteAt r 21 < 4) && byteAt r 22 == 0 && allZero (slice r 24 8) &&
      !gptpRange r
  | _, _ => false

/-- When an event of a port's traffic or of the switch fabric has its own effect (10 R241 to R264; 11 R276 to R288). -/
def readyFabric : Instr → State → Bool
  | .transmitStart p, s => decide (p < 20) && s.live && s.canSend p
  | .transmitEnd p dma _, s => decide (p < 20 ∧ dma < 64) && (match (s.port p).tx with
      | some t => (s.cutDue p t).isNone && decide ((t.bytes.length - t.sent + 8) * 16000 ≤ (s.cyc - t.at_) * 5 * s.rate p)
      | none => false)
  | .gateEntryChange p, s => decide (p < 20) && s.live
  | .gateListSwitch p, s => decide (p < 20) && (match (s.port p).gclNew with
      | some g => decide (g.start ≤ s.now)
      | none => false)
  | .preemptionVerification p _, s => decide (p ≤ 5) && (s.port p).lst == .up
  | .cellWrite i _, s =>
    decide (i < 20) && s.live && decide (s.fab.init < 2) && look (fun _ => 0) s.fab.wSlot i != s.fab.slot + 1 && !(look (fun _ => []) s.fab.inq i).isEmpty
  | .cellRead k _, s => decide (k < 20) && s.live && decide (s.fab.init < 2) && look (fun _ => 0) s.fab.rSlot k != s.fab.slot + 1
  | .rsqGap o i c, s =>
    decide (o < 20 ∧ i < 20 ∧ c < 8) && !(s.lane (laneIdx o i c)).held.isEmpty &&
      decide (usCyc (recRsqto (s.portRec o)) ≤ (s.lane (laneIdx o i c)).timer) && !s.cellComing (laneIdx o i c)
  | .leakAudit, s => s.live && s.fab.init == 0 && s.fab.auditK == 0 && decide (s.fab.auditCyc + msCyc 10 ≤ s.cyc)
  | .fabricInitStart, s => s.live && s.flt.initReq && s.fab.init == 0
  | .fabricInitDiscard, s => s.fab.init == 1 && decide (s.fab.initAt + usCyc 2 ≤ s.cyc)
  | .fabricInitRebuild, s => s.fab.init == 2
  | .fabricInitEnd, s => s.fab.init == 3 && decide (1 ≤ s.fab.slot)
  | .cbRecoveryReset i, s =>
    decide (i < 256) && (s.cb i).recov && (s.cb i).rcv.isSome && decide ((s.cb i).since + msCyc (le (s.cb i).rcd 8 4) ≤ s.cyc)
  | .fdbAgeout i, s => decide (i < 8192) && (s.fdb i).valid && !(s.fdb i).static && decide ((s.fdb i).since + msCyc 300000 ≤ s.cyc)
  | .frameIngress p data _ _ dma _, s =>
    decide (p < 20 ∧ dma < 64) && s.live && ((s.port p).lst == .up || (s.port p).lst == .sleepReq) &&
      (if p = 19 then !s.brg.eth.isEmpty else !data.isEmpty) && decide (s.fifoUsed p + recMax (s.portRec p) ≤ 16384)
  | _, _ => false

/-- The sender may command the Keore engine (05 R124): tag 0, or the tag of the running image. -/
def State.asksKeore (s : State) (h : Hdr) : Bool := h.epoch == 0 && (h.ring == 0 || s.imgTag == h.ring)

/-- When a KEORE command or an event of the engine has its own effect (05 R124; 15 R367 to R375; 16 R402 to R416). -/
def readyKeore (r : List Byte) : Instr → State → Bool
  | .keoreLoad h _ _, s =>
    s.mpUp && h.epoch == 0 && (h.ring == 0 || (s.keo.run == [] || s.imgTag == h.ring) && !(decide (hdrLen + 6 < r.length) && byteAt r (hdrLen + 6) != h.ring)) &&
      s.keo.x.st == 0 && !s.shutGate 1
  | .keoreStart h mode, s =>
    s.mpUp && s.asksKeore h && decide (mode ≤ 1) && (s.keo.st == 0 || s.keo.st == 3) && (mode == 1 || (s.warmCopy ((s.bankImg s.keo.bank).getD [])).isSome)
  | .keoreStop h, s => s.mpUp && s.asksKeore h && (s.keo.st == 1 || s.keo.st == 2)
  | .keoreStartComplete, s => s.live && s.keo.st == 1 && s.keo.startH.isSome
  | .keoreTaskRelease k, s =>
    decide (k < 8) && s.live && s.keo.st == 2 && (s.ktask k).per != 0 && decide ((s.ktask k).relNext ≤ s.now) &&
      !s.earlierRelease k (s.ktask k).relNext
  | .retainPassStart, s => s.live && s.keo.handed && s.keo.pass.isNone
  | .retainPassEnd _, s => s.live && s.keo.pass.isSome
  | .keoreForce h vartag typ _, s =>
    s.mpUp && s.asksKeore h && (s.keo.x.st == 3 || (match imgVar s.keo.run vartag with
      | some v => byteAt v 4 == typ && ((s.forceSlot vartag).isSome || s.freeForce.isSome)
      | none => false))
  | .keoreUnforce h vartag, s => s.mpUp && s.asksKeore h && (s.keo.x.st == 3 || vartag == 0xFFFFFFFF || (s.forceSlot vartag).isSome)
  | .keoreExchange h out outLen deadline, s =>
    s.mpUp && s.asksKeore h && s.outOK h.ring out outLen 4096 && decide (1 ≤ deadline ∧ deadline ≤ 60000) && s.keo.st == 2 &&
      (s.bankImg (1 - s.keo.bank)).isSome && s.keo.x.st == 0
  | .exchangePrepared, s => s.live && s.keo.x.st == 1
  | .exchangeTimeout, s => s.live && (s.keo.x.st == 1 || s.keo.x.st == 2) && decide (s.keo.x.since + s.keo.x.dead ≤ s.cyc)
  | .exchangeCommit, s =>
    s.live && s.keo.st == 2 && s.keo.x.st == 2 && s.kBest == none &&
      !s.keo.task.any fun (e : Nat × KTask) => e.2.per != 0 && decide (e.2.relNext ≤ s.now)
  | .exchangeSwapEnd, s => s.live && s.keo.x.st == 3
  | _, _ => false

/-- When a SYS or DEBUG command, or an event of supply, reset, boot, sleep or the command transport, has its own effect (01 R27 to R31; 03 R57
to R79; 04 R94, R98, R102; 06 R150; 13 R337, R346; 17 R430; 18 R450 to R471; 21 R525). -/
def readySystem (r : List Byte) : Instr → State → Bool
  | .sysReset h scope, s => s.mpUp && h.epoch == 0 && h.ring == 0 && decide (scope ≤ 4)
  | .sysProfile h profile, s =>
    s.mpUp && h.epoch == 0 && decide (h.ring ≤ 1 ∧ profile ≤ 1) && (profile == s.sys.prof || !s.sys.profBusy && (profile == 1 || s.hasLeave 3600))
  | .profileTransitionEnd, s => s.live && s.sys.profBusy && (match s.sys.profCmd with
      | some h => if s.sys.profTarget = 1 then !s.expressBusy else (match s.opOf h with
        | some o => o.running
        | none => false)
      | none => false)
  | .sysLifecycle h _ _ target, s => s.mpUp && h.epoch == 0 && h.ring == 0 && (lcTokens s.sys.lcCur target).isSome && s.hasLeave 400 && !s.shutGate 1
  | .sysFuse h op key svn hash, s =>
    let counter := look (fun _ => 0) s.sys.svn key
    s.mpUp && h.epoch == 0 && h.ring == 0 && decide (1 ≤ key ∧ svn ≤ 31) && s.hasLeave 400 &&
      (op == 1 && svn == 0 && decide (key ≤ 4) && s.sys.lcCur == 1 && look (fun _ => []) s.sys.keyHash key == [] ||
       op == 2 && svn == 0 && decide (key ≤ 4) && allZero hash &&
         !(s.keyStands key && (([1, 2, 3, 4] : List Nat).filter s.keyStands).length == 1) ||
       op == 3 && decide (key ≤ 6) && allZero hash && (decide (svn ≤ counter) || decide (svn ≤ s.topSvn key)))
  | .sysUpdate h _ _ prefer, s => s.mpUp && h.epoch == 0 && h.ring == 0 && decide (prefer ≤ 1) && s.hasLeave 300 && !s.shutGate 1
  | .wakeModule h, s => s.mpUp && h.epoch == 0 && h.ring == 0 && !s.anyLatch && s.anyArmed && !s.anyOn && s.reaches 0
  | .moduleSleepLatchCheck, s => s.live && s.wake.phase == 1
  | .moduleSleepPowerOff, s => s.live && s.wake.phase == 2
  | .wakeDetect src t n, s =>
    decide (src < 34) && s.sys.pwr != .off && s.isWake src t n != some false &&
      (if src < 22 then s.asleep src
       else if src < 26 then true
       else s.wake.phase != 3 || bit (byteAt s.wake.rcd 4) (src - 26))
  | .sleepTimer, s => s.wake.phase == 3 && le s.wake.rcd 8 4 != 0 && decide (s.wake.at_ + msCyc (950 * le s.wake.rcd 8 4) ≤ s.cyc)
  | .sleepWettingPulse _, s => s.wake.phase == 3 && decide (s.wake.pulseAt ≤ s.cyc)
  | .powerOnReset, _ => true
  | .vbatRise, s => s.sys.pwr == .off
  | .railsValid _, s => s.sys.pwr == .starting
  | .porstNAssert, s => s.sys.pwr != .off
  | .resetNExternal, s => s.live
  | .faultResetDemand, s => s.live && !s.flt.dirty && (match s.flt.rst with
      | some t => decide (t ≤ s.cyc)
      | none => false)
  | .bootStart, s => s.sys.pwr == .valid && s.sys.boot == 1
  | .bootFusesRead, s => s.sys.boot == 2
  | .bootPatchApply, s => s.sys.boot == 3 && s.sys.lcCur != 5
  | .bootBcrApply _ _, s => s.sys.boot == 4
  | .bootKeorePrepare, s => s.sys.boot == 5
  | .bootFirstRelease, s => s.sys.boot == 6
  | .bootLateStages _ _, s => s.sys.boot == 7 && (match s.handleIdx s.sys.ddrH with
      | some i => (s.admEnt i).st == 2
      | none => false)
  | .commandFetch n, s => decide (n < 16) && s.live && s.nextTurn n
  | .mpCommandStart, s => s.live && s.mpUp && (match s.mpNext with
      | some n => s.hal.mpq.any fun (q : Nat × Nat) => q.1 == n
      | none => false)
  | .longRunningOperationEnd ring ctag _, s => s.live && (match s.opOf { ring := ring, ctag := ctag } with
      | some o => o.running && (!cmdSigns o.cmd || (s.hal.ops.find? Op.signing).map (·.h) == some o.h)
      | none => false)
  | .schedActionApply n _, s => decide (n < 1024) && s.live && (match s.sch.disp.find? fun d => d.ent == n && d.due s.now with
      | some d => d.ok != 0 || !decide (1 ≤ (s.sent n).action ∧ (s.sent n).action ≤ 3) || s.actionTurn (s.lead (s.sent n).target) d
      | none => false)
  | .memoryAccess ini _ _ n _ _, s => (s.iniTag ini).isSome && s.unitRuns ini && n != 0
  | .registerWriteOther ini tag _ _, s => s.live && s.presents ini tag
  | .mtagWrite core _, s => decide (core < 6) && s.unitRuns core && !s.ten.low.contains core
  | .machineModeEntry core, s => decide (core < 6) && s.unitRuns core
  | .machineModeReturn core, s => decide (core < 6) && s.unitRuns core && !s.ten.low.contains core
  | .debugEnable h tag en, s =>
    s.mpUp && h.epoch == 0 && h.ring == 0 && decide (en ≤ 3 ∧ tag ≤ 15) && (en == 0 || (dbgAllowed s.sys.lcCur tag).1) && (!bit en 1 || (dbgAllowed s.sys.lcCur tag).2)
  | .debugTrace h src enable, s =>
    s.mpUp && h.epoch == 0 && h.ring == 0 && (traceIndex src).isSome && decide (enable ≤ 1) && bit s.dbg.ni (s.traceTag src)
  | .traceSyncPacket i, s => decide (i < 11) && s.live && bit s.dbg.trace i && bit s.dbg.ni (s.traceTag (traceCode i))
  | .debugPortAccess tag op unit _ n _ _, s =>
    s.live && (op == 6 || op == 5 && s.sys.lcCur != 3 || op == 0 && bit s.dbg.ni tag && n != 0 || op == 1 && bit s.dbg.inv tag && n != 0 ||
      decide (2 ≤ op ∧ op ≤ 4) && bit s.dbg.inv tag && s.dbgUnitTag unit == some tag)
  | _, _ => r.isEmpty && false

/-! ### Machine -/

/-- What every step keeps: the memory list stands in its one canonical form. -/
def State.sound (s : State) : Bool := Memory.wf s.mem

/-- An instruction of the Keore engine, as a code word spells one (15 R390, R391). -/
def isKeore (i : Instr) : Bool := i.wellFormed && kLegal i

/-- The register words that take a write (01 R19; 04 R107, R108; 08 R209; 21 R540): the Halyard doorbells, the direct channel command
registers and the event router registers. -/
def writable (a : Nat) : Bool :=
  ((List.range 16).any fun n => a == 0x4C000000 + 256 * n || a == 0x4C000004 + 256 * n || a == 0x4C000008 + 256 * n || a == 0x4C00000C + 256 * n) ||
  ((List.range 40).any fun ch => a == 0x41000000 + 256 * ch) ||
  ((List.range 512).any fun n => a == 0x49008000 + 16 * n || a == 0x49008004 + 16 * n || a == 0x49008008 + 16 * n)

/-- A raise has its place in the log: the collector takes it (21 R519, R564), SOURCE and INFO make the entry's key (21 R531). -/
def State.logs (s : State) (src : Nat) : Bool := (srcRow src).isSome && decide (3 ≤ s.sys.boot)

/-- The key of a log entry. -/
def LogEnt.key (e : LogEnt) : Nat × Nat := (e.src, e.info)

end Sys2Proof.Machine
end

