-- ==== Sys2Proof/Certificates/Slice0/Obligations.lean ====
section
/-! DEFINITION. The statements for the provers. -/
open Sys2Proof Sys2Proof.Machine

/-- 15 R391: each bit instruction runs when the task in charge stands at it, its budget allows the cycle and the byte traps no
access. LDB, ANDB, ORB, XORB and ANDNB write Wd alone; STB, SETB and RSTB write one bit of instance SRAM alone. -/
def Obligations.KeoreBitInstructionsComplete : Prop :=
  ∀ (s : State) (k d base byte i : Nat), s.kClear k base byte 1 1 = true →
    (s.kRuns k (.kLdb d base byte i) 1 = true → exec (.kLdb d base byte i) s =
      .next (s.kAfter k 1 fun t => t.setReg d (BitVec.ofNat 64 (b2n (s.kSees k base byte i))))) ∧
    (s.kRuns k (.kAndb d base byte i) 1 = true → exec (.kAndb d base byte i) s =
      .next (s.kAfter k 1 fun t => t.setReg d (BitVec.ofNat 64 (b2n (s.kFlag k d && s.kSees k base byte i))))) ∧
    (s.kRuns k (.kOrb d base byte i) 1 = true → exec (.kOrb d base byte i) s =
      .next (s.kAfter k 1 fun t => t.setReg d (BitVec.ofNat 64 (b2n (s.kFlag k d || s.kSees k base byte i))))) ∧
    (s.kRuns k (.kXorb d base byte i) 1 = true → exec (.kXorb d base byte i) s =
      .next (s.kAfter k 1 fun t => t.setReg d (BitVec.ofNat 64 (b2n (s.kFlag k d != s.kSees k base byte i))))) ∧
    (s.kRuns k (.kAndnb d base byte i) 1 = true → exec (.kAndnb d base byte i) s =
      .next (s.kAfter k 1 fun t => t.setReg d (BitVec.ofNat 64 (b2n (s.kFlag k d && !s.kSees k base byte i))))) ∧
    (s.kRuns k (.kStb d base byte i) 1 = true → exec (.kStb d base byte i) s =
      .next (((s.kCharge k 1).kStoreBit k (s.kAt k base byte) i (s.kFlag k d)).kDone k)) ∧
    (s.kRuns k (.kSetb d base byte i) 1 = true → exec (.kSetb d base byte i) s =
      .next (if s.kFlag k d then ((s.kCharge k 1).kStoreBit k (s.kAt k base byte) i true).kDone k else s.kAfter k 1 id)) ∧
    (s.kRuns k (.kRstb d base byte i) 1 = true → exec (.kRstb d base byte i) s =
      .next (if s.kFlag k d then ((s.kCharge k 1).kStoreBit k (s.kAt k base byte) i false).kDone k else s.kAfter k 1 id))

/-- 15 R389, R391: LD, LDX, ST, STX and LEA. A load brings the value of type `t` into Wd, extended as 15 R389 says; a store writes the
low bytes of Wd at the address formed, and nothing else; LEA gives the offset itself. -/
def Obligations.KeoreLoadsAndStoresComplete : Prop :=
  ∀ (s : State) (k d base x off t : Nat),
    (s.kRuns k (.kLd d base off t) 1 = true → s.kClear k base off (tySize t) (tySize t) = true → exec (.kLd d base off t) s =
      .next (s.kAfter k 1 fun w => w.setReg d (heldAs t (BitVec.ofNat 64 (le (s.iread (s.kAt k base off) (tySize t)) 0 (tySize t)))))) ∧
    (s.kRuns k (.kLdx d base x off t) 1 = true → s.kClear k base (xOff x off (s.ktask k)) (tySize t) (tySize t) = true →
      exec (.kLdx d base x off t) s =
      .next (s.kAfter k 1 fun w => w.setReg d
        (heldAs t (BitVec.ofNat 64 (le (s.iread (s.kAt k base (xOff x off (s.ktask k))) (tySize t)) 0 (tySize t)))))) ∧
    (s.kRuns k (.kSt d base off t) 1 = true → s.kClear k base off (tySize t) (tySize t) = true → exec (.kSt d base off t) s =
      .next (((s.kCharge k 1).kStore k (s.kAt k base off) (toLE (tySize t) ((s.ktask k).reg d).toNat)).kDone k)) ∧
    (s.kRuns k (.kStx d base x off t) 1 = true → s.kClear k base (xOff x off (s.ktask k)) (tySize t) (tySize t) = true →
      exec (.kStx d base x off t) s =
      .next (((s.kCharge k 1).kStore k (s.kAt k base (xOff x off (s.ktask k))) (toLE (tySize t) ((s.ktask k).reg d).toNat)).kDone k)) ∧
    (s.kRuns k (.kLea d base off) 1 = true → exec (.kLea d base off) s =
      .next (s.kAfter k 1 fun w => w.setReg d (BitVec.ofNat 64 (s.kAt k base off))))

/-- 15 R391, R392: the register instructions of two operands. Each writes Wd and the sticky flags its result sets, and nothing else;
DIV and MOD take 8 cycles, the others 1. A comparison leaves 1 or 0 in Wd, its operands read as type `t`; with a REAL32 NaN only CNE gives
1, and no sticky flag changes. -/
def Obligations.KeoreBinaryInstructionsComplete : Prop :=
  ∀ (s : State) (k d a b t : Nat),
    (s.kRuns k (.kAdd d a b t) 1 = true → exec (.kAdd d a b t) s = .next (s.kAfter k 1 fun w => w.setVal d (addOf t (w.reg a) (w.reg b)))) ∧
    (s.kRuns k (.kSub d a b t) 1 = true → exec (.kSub d a b t) s = .next (s.kAfter k 1 fun w => w.setVal d (subOf t (w.reg a) (w.reg b)))) ∧
    (s.kRuns k (.kMul d a b t) 1 = true → exec (.kMul d a b t) s = .next (s.kAfter k 1 fun w => w.setVal d (mulOf t (w.reg a) (w.reg b)))) ∧
    (s.kRuns k (.kDiv d a b t) 8 = true → exec (.kDiv d a b t) s = .next (s.kAfter k 8 fun w => w.setVal d (divOf t (w.reg a) (w.reg b)))) ∧
    (s.kRuns k (.kMod d a b t) 8 = true → exec (.kMod d a b t) s = .next (s.kAfter k 8 fun w => w.setVal d (modOf t (w.reg a) (w.reg b)))) ∧
    (s.kRuns k (.kMin d a b t) 1 = true → exec (.kMin d a b t) s =
      .next (s.drawn.kAfter k 1 fun w => w.setVal d (pickOf false t (Config.freeValue s.clk.free) (w.reg a) (w.reg b)))) ∧
    (s.kRuns k (.kMax d a b t) 1 = true → exec (.kMax d a b t) s =
      .next (s.drawn.kAfter k 1 fun w => w.setVal d (pickOf true t (Config.freeValue s.clk.free) (w.reg a) (w.reg b)))) ∧
    (s.kRuns k (.kAnd d a b t) 1 = true → exec (.kAnd d a b t) s = .next (s.kAfter k 1 fun w => w.setVal d (bitsOf Nat.land t (w.reg a) (w.reg b)))) ∧
    (s.kRuns k (.kOr d a b t) 1 = true → exec (.kOr d a b t) s = .next (s.kAfter k 1 fun w => w.setVal d (bitsOf Nat.lor t (w.reg a) (w.reg b)))) ∧
    (s.kRuns k (.kXor d a b t) 1 = true → exec (.kXor d a b t) s = .next (s.kAfter k 1 fun w => w.setVal d (bitsOf Nat.xor t (w.reg a) (w.reg b)))) ∧
    (s.kRuns k (.kShl d a b t) 1 = true → exec (.kShl d a b t) s = .next (s.kAfter k 1 fun w => w.setVal d (shlOf t (w.reg a) (w.reg b)))) ∧
    (s.kRuns k (.kShr d a b t) 1 = true → exec (.kShr d a b t) s = .next (s.kAfter k 1 fun w => w.setVal d (shrOf t (w.reg a) (w.reg b)))) ∧
    (s.kRuns k (.kRol d a b t) 1 = true → exec (.kRol d a b t) s = .next (s.kAfter k 1 fun w => w.setVal d (rolOf t (w.reg a) (w.reg b)))) ∧
    (s.kRuns k (.kRor d a b t) 1 = true → exec (.kRor d a b t) s = .next (s.kAfter k 1 fun w => w.setVal d (rorOf t (w.reg a) (w.reg b)))) ∧
    (s.kRuns k (.kSel d a b t) 1 = true → exec (.kSel d a b t) s = .next (s.kAfter k 1 fun w => w.setVal d (selOf t (w.reg d) (w.reg a) (w.reg b)))) ∧
    (s.kRuns k (.kLimit d a b t) 1 = true → exec (.kLimit d a b t) s =
      .next (s.drawn.kAfter k 1 fun w => w.setVal d (limitOf t (Config.freeValue s.clk.free) (w.reg d) (w.reg a) (w.reg b)))) ∧
    (∀ i, s.kRuns k i 1 = true →
      let o := cmpOf t ((s.ktask k).reg a) ((s.ktask k).reg b)
      let gives := fun (c : Bool) => exec i s = .next (s.kAfter k 1 fun w => w.setReg d (BitVec.ofNat 64 (b2n c)))
      (i = .kCeq d a b t → gives (decide (o = some .eq))) ∧ (i = .kCne d a b t → gives (decide (o ≠ some .eq))) ∧
      (i = .kClt d a b t → gives (decide (o = some .lt))) ∧ (i = .kCle d a b t → gives (decide (o = some .lt ∨ o = some .eq))) ∧
      (i = .kCgt d a b t → gives (decide (o = some .gt))) ∧ (i = .kCge d a b t → gives (decide (o = some .gt ∨ o = some .eq))))

/-- 15 R389, R391, R392: the register instructions of one operand and of an immediate, the bit fields, and the two that read time. -/
def Obligations.KeoreUnaryInstructionsComplete : Prop :=
  ∀ (s : State) (k d a f t imm pos len : Nat),
    (s.kRuns k .kNop 1 = true → exec .kNop s = .next (s.kAfter k 1 id)) ∧
    (s.kRuns k (.kNeg d a t) 1 = true → exec (.kNeg d a t) s = .next (s.kAfter k 1 fun w => w.setVal d (negOf t (w.reg a)))) ∧
    (s.kRuns k (.kAbs d a t) 1 = true → exec (.kAbs d a t) s = .next (s.kAfter k 1 fun w => w.setVal d (absOf t (w.reg a)))) ∧
    (s.kRuns k (.kNot d a t) 1 = true → exec (.kNot d a t) s = .next (s.kAfter k 1 fun w => w.setVal d (notOf t (w.reg a)))) ∧
    (s.kRuns k (.kCvt d a f t) 1 = true → exec (.kCvt d a f t) s =
      .next (s.drawn.kAfter k 1 fun w => w.setVal d (cvtOf f t (Config.freeValue s.clk.free) (w.reg a)))) ∧
    (s.kRuns k (.kSqrt d a t) 12 = true → exec (.kSqrt d a t) s = .next (s.kAfter k 12 fun w => w.setVal d (realVal (sqrtF (realOf (w.reg a)))))) ∧
    (s.kRuns k (.kTrunc d a t) 1 = true → exec (.kTrunc d a t) s = .next (s.kAfter k 1 fun w => w.setVal d (truncOf t (w.reg a)))) ∧
    (s.kRuns k (.kMov d a t) 1 = true → exec (.kMov d a t) s = .next (s.kAfter k 1 fun w => w.setReg d (w.reg a))) ∧
    (s.kRuns k (.kLdi d imm) 1 = true → exec (.kLdi d imm) s =
      .next (s.kAfter k 1 fun w => w.setReg d ((BitVec.ofNat 20 imm).signExtend 64))) ∧
    (s.kRuns k (.kLui d imm) 1 = true → exec (.kLui d imm) s =
      .next (s.kAfter k 1 fun w => w.setReg d ((BitVec.ofNat 20 imm ++ (w.reg d).extractLsb' 0 12).signExtend 64))) ∧
    (s.kRuns k (.kAddi d imm) 1 = true → exec (.kAddi d imm) s =
      .next (s.kAfter k 1 fun w => w.setVal d (wrapTy 4 ((w.reg d).toInt + (BitVec.ofNat 20 imm).toInt)))) ∧
    (s.kRuns k (.kBfx d a pos len) 1 = true → exec (.kBfx d a pos len) s =
      .next (s.kAfter k 1 fun w => w.setReg d (((w.reg a).extractLsb' pos (len + 1)).setWidth 64))) ∧
    (s.kRuns k (.kBfi d a pos len) 1 = true →
      ∃ v : W64, exec (.kBfi d a pos len) s = .next (s.kAfter k 1 fun w => w.setReg d v) ∧ ∀ j, j < 64 →
        v.getLsbD j = if pos ≤ j ∧ j ≤ pos + len then ((s.ktask k).reg a).getLsbD (j - pos) else ((s.ktask k).reg d).getLsbD j) ∧
    (s.kRuns k (.kNow d) 1 = true → exec (.kNow d) s = .next (s.kAfter k 1 fun w => w.setReg d (BitVec.ofNat 64 w.relT))) ∧
    (s.kRuns k (.kNowr d) 1 = true → exec (.kNowr d) s = .next (s.kAfter k 1 fun w => w.setReg d (BitVec.ofNat 64 s.now)))

/-- 15 R390, R391: the jumps, CALL and RET. A taken jump costs 2 cycles, one not taken 1; a jump target before word 0 is a word
outside the code (log 28). CALL pushes the next word and IB, RET takes them back. -/
def Obligations.KeoreControlInstructionsComplete : Prop :=
  ∀ (s : State) (k c disp : Nat),
    let t := s.ktask k
    let dest := jumpTo t.pc disp s.keo.run
    (s.kRuns k (.kJmp disp) 2 = true → exec (.kJmp disp) s = .next (s.kJumped k 2 dest id)) ∧
    (s.kRuns k (.kJt c disp) 2 = true → s.kFlag k c = true → exec (.kJt c disp) s = .next (s.kJumped k 2 dest id)) ∧
    (s.kRuns k (.kJt c disp) 1 = true → s.kFlag k c = false → exec (.kJt c disp) s = .next (s.kAfter k 1 id)) ∧
    (s.kRuns k (.kJf c disp) 2 = true → s.kFlag k c = false → exec (.kJf c disp) s = .next (s.kJumped k 2 dest id)) ∧
    (s.kRuns k (.kJf c disp) 1 = true → s.kFlag k c = true → exec (.kJf c disp) s = .next (s.kAfter k 1 id)) ∧
    (s.kRuns k (.kCall c disp) 2 = true → t.stack.length < 16 → areaBase s.keo.run 3 ≤ (t.reg c).toNat →
      (t.reg c).toNat < areaBase s.keo.run 3 + imgIa s.keo.run → exec (.kCall c disp) s =
      .next (s.kJumped k 2 dest fun w => { w with stack := (t.pc + 1, t.ib) :: t.stack, ib := (t.reg c).toNat })) ∧
    (∀ pc ib r, s.kRuns k .kRet 2 = true → t.stack = (pc, ib) :: r → exec .kRet s =
      .next (s.kJumped k 2 pc fun w => { w with stack := r, ib := ib }))

/-- 15 R376, R377; 16 R402: END runs the output phase, entry by entry, then the retained handover; the task is then idle with its cycles
recorded, and the highest-priority task that waits takes the engine, two cycles charged to it. An END that the budget does not cover is
no overrun (log 29). -/
def Obligations.KeoreEndCompletes : Prop :=
  ∀ (s s1 : State) (k : Nat), s.kReady = some k → s.kFetch k = some .kEnd →
    let budget := if s.kBudget k < (s.ktask k).used + 1 then (s.ktask k).used + 2 ^ 32 else s.kBudget k
    let s0 := s.kCharge k 1
    let s0 := { s0 with keo := { s0.keo with sig := [] } }
    let n := (s1.handOver k).1
    let u := (s1.ktask k).used + 2 + n
    s0.outLoop k budget (s0.taskOuts k) = (true, s1) → u ≤ budget →
    let last := Nat.min u (2 ^ 32 - 1)
    let s2 := s1.setHand (s1.handOver k).2
    let s2 := s2.setKtask k { s2.ktask k with st := 0, used := u, dirty := [], lastCyc := last, maxCyc := Nat.max (s2.ktask k).maxCyc last }
    let s2 := ({ s2 with keo := { s2.keo with cur := none } } : State).keoTrace 1 k
    exec .kEnd s = .next (match s2.kBest with
      | none => s2
      | some b => s2.kSwitch b 2)

/-- 15 R393: TON, TOF and TP. A timer block reads its 16 bytes of instance data, writes START and its three bits back, and leaves Q and
ET in its registers; the difference of its times is taken at the release instant of the task. -/
def Obligations.KeoreTimersComplete : Prop :=
  ∀ (s : State) (k g base off : Nat), s.kClear k base off 16 8 = true →
    let a := s.kAt k base off
    let t := s.ktask k
    let inp := s.kFlag k g
    let prev := s.ibit (a + 8) 0
    let run := s.ibit (a + 8) 1
    let q := s.ibit (a + 8) 2
    let start := le (s.iread a 8) 0 8
    let pt := rdTy 4 (t.reg (g + 1))
    let leaves := fun (i : Instr) (r : TimerRes) => s.kRuns k i 2 = true → exec i s =
      .next ((((((s.kCharge k 2).drawn.kStore k a (toLE 8 r.start)).kStoreBit k (a + 8) 0 inp).kStoreBit k (a + 8) 1 r.run).kStoreBit k (a + 8) 2 r.q).kDone k
        fun w => (w.setVal g (boolVal r.q)).setVal (g + 1) r.et)
    leaves (.kTon g base off) (tonStep inp prev run start t.relT pt) ∧
    leaves (.kTof g base off) (tofStep inp prev run q start t.relT pt (Config.freeValue s.clk.free)) ∧
    leaves (.kTp g base off) (tpStep inp prev run q start t.relT pt)

/-- 15 R393: the edge detectors, the bistables and the counters. -/
def Obligations.KeoreSmallBlocksComplete : Prop :=
  ∀ (s : State) (k g base off : Nat),
    let a := s.kAt k base off
    let in0 := s.kFlag k g
    let in1 := s.kFlag k (g + 1)
    let bit0 := s.ibit a 0
    let writes := fun (i : Instr) (keep out : Bool) => s.kRuns k i 1 = true → s.kClear k base off 4 8 = true → exec i s =
      .next (((s.kCharge k 1).kStoreBit k a 0 keep).kDone k fun w => w.setReg g (BitVec.ofNat 64 (b2n out)))
    let cv := Machine.signed 32 (le (s.iread a 4) 0 4)
    let pv := rdTy 2 ((s.ktask k).reg (g + 2))
    let edge := in0 && !s.ibit (a + 4) 0
    let counts := fun (i : Instr) (v : Int) (q : Int → Bool) => s.kRuns k i 1 = true → s.kClear k base off 8 8 = true → exec i s =
      .next ((((s.kCharge k 1).kStore k a (toLE 4 (satTy 2 v).v.toNat)).kStoreBit k (a + 4) 0 in0).kDone k
        fun w => (w.setVal g (boolVal (q (rdTy 2 (satTy 2 v).v)))).setVal (g + 1) (satTy 2 v))
    writes (.kRtrig g base off) in0 (in0 && !bit0) ∧ writes (.kFtrig g base off) in0 (!in0 && bit0) ∧
    writes (.kSr g base off) (in0 || (bit0 && !in1)) (in0 || (bit0 && !in1)) ∧
    writes (.kRs g base off) (!in1 && (in0 || bit0)) (!in1 && (in0 || bit0)) ∧
    counts (.kCtu g base off) (if in1 then 0 else if edge then cv + 1 else cv) (fun v => decide (pv ≤ v)) ∧
    counts (.kCtd g base off) (if in1 then pv else if edge then cv - 1 else cv) (fun v => decide (v ≤ 0))

/-- 15 R393: RAMP and PID, each step a REAL32 operation rounded once (log 30). A first call takes the target, or has no time behind it. -/
def Obligations.KeoreRampAndPidComplete : Prop :=
  ∀ (s : State) (k g base off : Nat),
    let a := s.kAt k base off
    let t := s.ktask k
    let r := fun (n : Nat) => ((realOf (t.reg (g + n)), false) : FV)
    let m := fun (o : Nat) => ((le (s.iread (a + o) 4) 0 4, false) : FV)
    let free := Config.freeValue s.clk.free
    (s.kRuns k (.kRamp g base off) 6 = true → s.kClear k base off 16 8 = true →
      let first := s.ibit (a + 4) 0
      let dt := if first then secondsF t.relT (le (s.iread (a + 8) 8) 0 8) else (0, false)
      let out := rampOut (r 0) (r 1) (r 2) (m 0) dt (s.kFlag k (g + 3) || !first) free
      exec (.kRamp g base off) s =
        .next (((((s.kCharge k 6).drawn.kStore k a (toLE 4 out.1)).kStoreBit k (a + 4) 0 true).kStore k (a + 8) (toLE 8 t.relT)).kDone k
          fun w => (w.setVal g (realVal out)).setVal (g + 3) (boolVal (cmpF out.1 (r 0).1 != some .eq)))) ∧
    (s.kRuns k (.kPid g base off) 16 = true → s.kClear k base off 40 8 = true →
      let first := s.ibit (a + 36) 0
      let dt := if first then secondsF t.relT (le (s.iread (a + 28) 8) 0 8) else (0, false)
      let p := pidStep (r 0) (r 1) (r 3) (m 0) (m 4) (m 8) (m 12) (m 16) (m 20) (m 24) dt (s.kFlag k (g + 2)) free
      exec (.kPid g base off) s =
        .next ((((((s.kCharge k 16).drawn.kStore k (a + 20) (toLE 4 p.i.1)).kStore k (a + 24) (toLE 4 p.e.1)).kStore k (a + 28) (toLE 8 t.relT)).kStoreBit k (a + 36) 0 true).kDone k
          fun w => w.setVal g { v := BitVec.ofNat 64 p.y.1, inv := p.y.2 || p.i.2 || p.e.2 }))

/-- 01 R18; 05 R119; 08 R185, R189, R198, R199, R207, R209; 09 R224: the CHAN commands, the direct commands and the events of a capture. Under the
conditions that `readyChan` gathers each has the effect its chapter gives it: CHAN.SET and a direct command the transition of the state table of
08 R189 in their fabric cycle, CHAN.CONFIG the record of the channel alone, CHAN.CLEAR the counter and the cause, CHAN.BOND and CHAN.UNBOND the
members and their epochs, CHAN.CAPTURE the pending capture. A CHAN.SET that does not take its cycle waits for one. -/
def Obligations.ChannelCommandsComplete : Prop :=
  ∀ (s : State) (h : Hdr) (ch : Nat),
    (∀ act duty deadline, readyChan [] (.chanSet h ch act duty deadline) s = true → exec (.chanSet h ch act duty deadline) s =
      .next (((s.taken ch).chCommand ch (actOf act) duty (.halyard h) deadline ((s.taken ch).chNow ch)).settle)) ∧
    (∀ act duty deadline, s.live = true → s.asksChan h ch = true → act ≤ 2 → (act = 2 → duty ≤ 1023) → deadline ≤ 10000000 →
      s.chTurn (s.lead ch) 4 = false → exec (.chanSet h ch act duty deadline) s =
      let w : ChWait := { rank := 4, ch := ch, act := actOf act, duty := duty, o := .halyard h, dl := deadline }
      .next (({ s with lch := { s.lch with wait := waitIns w s.lch.wait } } : State).settle)) ∧
    (∀ addr len r s1, s.descIn h addr len = some (r, s1) → s.mpUp = true → s.asksChan h ch = true →
      readyChan r (.chanConfig h addr len ch) s1 = true → exec (.chanConfig h addr len ch) s =
      .next (((s1.modCh ch fun c => { c with cfg := r }).syncCh ch).ok h)) ∧
    (readyChan [] (.chanClear h ch) s = true → (s.chan (s.lead ch)).st ≠ .latched → exec (.chanClear h ch) s =
      .next (((s.modCh (s.lead ch) fun x => { x with retry := 0, cause := 0, trip := if x.st = .retryWait then x.trip else false }).syncCh
        (s.lead ch)).ok h)) ∧
    (readyChan [] (.chanClear h ch) s = true → (s.chan (s.lead ch)).st = .latched →
      let m := s.lead ch
      let s1 := s.modCh m fun x => { x with retry := 0, cause := 0, trip := if x.st = .retryWait then x.trip else false }
      let s2 := s1.goCh m .off fun x => { x.output false with act := .off, gridOk := false, offAt := s1.cyc }
      exec (.chanClear h ch) s = .next (((((s2.standing m).foldl (fun s b => s.holdCh m b) s2).uvMove m).syncCh m).ok h)) ∧
    (∀ count members epochs, readyChan [] (.chanBond h count members epochs) s = true →
      ∃ t, exec (.chanBond h count members epochs) s = .next t ∧
        let l := members.take count
        let a := l.foldl Nat.min (l.headD 0)
        (t.bunt a).epoch = ((s.bunt a).epoch + 1) % 65536 ∧ (t.bunt a).count = count ∧ (t.bunt a).imbal = false ∧
        (∀ m, m ∈ l → (t.chan m).bunt = a ∧ (t.chan m).epoch = ((s.chan m).epoch + 1) % 65536 ∧
          (t.chan m).cfg = (t.chan a).cfg ∧ fineOf (t.chan m).cfg = false ∧ (t.chan m).st = .off) ∧
        (∀ m, m ∉ l → t.chan m = s.chan m) ∧ (∀ n, n ≠ a → t.bunt n = s.bunt n) ∧ t.mem = s.mem ∧ t.adm = s.adm ∧ t.lch.grp = s.lch.grp) ∧
    (readyChan [] (.chanUnbond h ch) s = true → exec (.chanUnbond h ch) s =
      let t := (s.condition 0x39 (s.lead ch) false).unbond (s.lead ch)
      .next (t.ok h (t.bunt (s.lead ch)).epoch)) ∧
    (∀ out outLen kind count, readyChan [] (.chanCapture h out outLen ch kind count) s = true →
      exec (.chanCapture h out outLen ch kind count) s =
      .next ((s.setChan ch { s.chan ch with cap := some { tag := h.ring, ctag := h.ctag, irq := h.irq, addr := out, kind := kind, count := count } }).accepted h 0x01)) ∧
    (∀ k t shut, readyChan [] (.captureTrigger ch) s = true → (s.chan ch).cap = some k → k.trig = some (t, shut) → exec (.captureTrigger ch) s =
      .next (s.setChan ch { s.chan ch with cap := some { k with started := true, shut := shut, start := t - 63000 } })) ∧
    (∀ ini tag epoch reserved, readyChan [] (.directCmdOff ini tag ch epoch reserved) s = true →
      exec (.directCmdOff ini tag ch epoch reserved) s =
        .next (((s.taken ch).chCommand ch .off 0 (.direct ch) 0 ((s.taken ch).chNow ch)).settle)) ∧
    (∀ ini tag epoch reserved, readyChan [] (.directCmdOn ini tag ch epoch reserved) s = true →
      exec (.directCmdOn ini tag ch epoch reserved) s =
        .next (((s.taken ch).chCommand ch .on 0 (.direct ch) 0 ((s.taken ch).chNow ch)).settle)) ∧
    (∀ ini tag epoch reserved duty, readyChan [] (.directCmdPwm ini tag ch epoch reserved duty) s = true →
      exec (.directCmdPwm ini tag ch epoch reserved duty) s =
        .next (((s.taken ch).chCommand ch .pwm (duty % 1024) (.direct ch) 0 ((s.taken ch).chNow ch)).settle))

/-- 05 R126; 07 R162 to R178: the ADMIT commands and the events of the admission controller. An arriving request makes its budget evaluate the
queue before it takes its place there and again with it (07 R173). -/
def Obligations.AdmissionCommandsComplete : Prop :=
  ∀ (s : State) (h : Hdr),
    (∀ typ budget amount duration deadline, readyAdmit (.admitRequest h typ budget amount duration deadline) s = true →
      let e : AdmEnt := { typ := typ, bud := budget, amount := amount, charge := if budget < 4 then divR (amount * duration) 1000 else 0,
                          dur := duration, endCyc := 1, tag := h.ring, origin := 0, client := .req h }
      let s0 := s.evaluate budget
      ∀ i, s0.admFree = some i →
      let s1 := s0.enqueue i e deadline
      let s2 := s1.evaluate budget
      exec (.admitRequest h typ budget amount duration deadline) s =
        .next (if s2.handleIdx (s1.handleOf i) = some i ∧ (s2.admEnt i).st = 1 then (s2.accepted h 0x02).inflightState h 5 else s2)) ∧
    (∀ grant i, readyAdmit (.admitRelease h grant) s = true → s.handleIdx grant = some i → exec (.admitRelease h grant) s =
      .next (((match (s.admEnt i).client with
        | .chan n => s.endGrant n
        | _ => s.freeEntry i).ok h).settle)) ∧
    (∀ budget limit charge reserve, readyAdmit (.admitBudget h budget limit charge reserve) s = true →
      let b := s.budget budget
      let level := if (charge : Int) * 10000 < b.level then (charge : Int) * 10000 else b.level
      exec (.admitBudget h budget limit charge reserve) s =
        .next (((s.setBudget budget { b with limit := limit, cap := charge, reserve := reserve, level := level }).purge budget).ok h)) ∧
    (∀ enable frame phase length start, readyAdmit (.admitWindow h enable frame phase length start) s = true →
      let s1 : State := { s with adm := if enable = 1 then { s.adm with winEn := true, frame := frame, phase := phase, length := length, start := start }
                                        else { s.adm with winEn := false } }
      exec (.admitWindow h enable frame phase length start) s = .next (((((s1.purge 0).purge 1).purge 2).purge 3).ok h)) ∧
    (readyAdmit .admitRefill s = true →
      ∃ s1 : State, exec .admitRefill s = .next (((((s1.evaluate 0).evaluate 1).evaluate 2).evaluate 3).evaluate 4) ∧
        (∀ k, k < 4 → s1.budget k = { s.budget k with level :=
          if ((s.budget k).cap : Int) * 10000 < (s.budget k).level + (s.budget k).cap then ((s.budget k).cap : Int) * 10000
          else (s.budget k).level + (s.budget k).cap }) ∧
        (∀ k, 4 ≤ k → s1.budget k = s.budget k) ∧ s1.adm.tab = s.adm.tab ∧ s1.mem = s.mem ∧ s1.lch = s.lch) ∧
    (∀ i, i < 256 → readyAdmit (.admitGrantEnd i) s = true → exec (.admitGrantEnd i) s =
      .next ((match (s.admEnt i).client with
        | .chan n => s.endGrant n
        | _ => s.freeEntry i).settle)) ∧
    (∀ i p, readyAdmit (.admitGrantEnd (256 + i)) s = true → s.adm.outside[i]? = some p → exec (.admitGrantEnd (256 + i)) s =
      .next ((s.endGrant p.ch).settle)) ∧
    (readyAdmit .admitWindowOpen s = true → exec .admitWindowOpen s =
      .next ((((s.evaluate 0).evaluate 1).evaluate 2).evaluate 3)) ∧
    (∀ i, readyAdmit (.admitDeadline i) s = true → exec (.admitDeadline i) s =
      .next ((s.freeEntry i).denied (s.admEnt i).client .deferred (s.admEnt i).reason)) ∧
    (∀ k i, k ≤ 4 → (i, s.admEnt i) ∈ s.adm.tab → (s.admEnt i).st = 1 → (s.admEnt i).bud = k → i < 256 → (s.admEnt i).count < 256 →
      (s.adm.tab.map (·.1)).Nodup → (∀ p, p ∈ s.adm.tab → p.2.st = 1 → p.2.bud = k → p.1 ≠ i → (s.admEnt i).seq < p.2.seq) →
      (s.admEnt i).arrCyc + msCyc 2 ≤ s.cyc → (s.budget k).hold = noHandle → exec (.admitHold k) s =
      .next ((s.setBudget k { s.budget k with hold := s.handleOf i }).reasons k))

/-- 08 R190, R193 to R197; 09 R214 to R223, R238: the events of a channel's state. Where the condition of its rule stands, TURN_ON_END leads to
PWM or ON, TURN_OFF_END to OFF or to a thermal shutdown that waited for the clamp, the protections to a protective shutdown for the first
condition met, RETRY_RESTART to a new turn-on, and the retry counter clears; a PWM period and its off edge drive the output. -/
def Obligations.ChannelStateEventsComplete : Prop :=
  ∀ (s : State) (ch : Nat),
    let m := s.lead ch
    let c := s.chan m
    let trips := fun (s : State) => Host.Outcome.next ((match s.firstTrip ch with
      | some (_, k, cause) => s.shutdown k cause
      | none => s).settle)
    (readyChanEvent (.turnOnEnd ch) s = true → c.act = .pwm → exec (.turnOnEnd ch) s = .next ((s.startPwm m (s.chNow m) false).relimitAll m)) ∧
    (readyChanEvent (.turnOnEnd ch) s = true → c.act ≠ .pwm → exec (.turnOnEnd ch) s =
      .next ((s.goCh m .on fun x => { x with
        out := true, onCyc := s.cyc, limCyc := 0, scCyc := 0, limAt := s.cyc, scAt := s.cyc, limPer := x.limit }).relimitAll m)) ∧
    (readyChanEvent (.turnOffEnd ch) s = true → c.clampShut = 0 → exec (.turnOffEnd ch) s =
      .next (s.goCh m .off fun x => { x.output false with offAt := s.cyc, offRead := 0 })) ∧
    (readyChanEvent (.turnOffEnd ch) s = true → c.clampShut ≠ 0 → exec (.turnOffEnd ch) s =
      .next (((s.shutdown m c.clampShut).settle).releaseOrphan m)) ∧
    (readyChanEvent (.slewDeadline ch) s = true → exec (.slewDeadline ch) s = trips s) ∧
    (readyChanEvent (.protectOc ch) s = true → exec (.protectOc ch) s = trips s) ∧
    (readyChanEvent (.protectSc ch) s = true → exec (.protectSc ch) s = trips s) ∧
    (∀ tj, readyChanEvent (.protectOt ch tj) s = true → c.falling = false → exec (.protectOt ch tj) s =
      trips (s.setChan ch { s.chan ch with tj := tj })) ∧
    (∀ tj, readyChanEvent (.protectDt ch tj) s = true → c.falling = false → exec (.protectDt ch tj) s =
      trips (s.setChan ch { s.chan ch with tj := tj })) ∧
    (readyChanEvent (.pwmPeriodStart ch) s = true → exec (.pwmPeriodStart ch) s =
      let on := onCycles m (s.grp (chGroup m)).mv2 c.duty c.cfg
      let mean := fun (x : Chan) => if x.synced && x.onN != 0 then x.filter (divRI x.onSum x.onN) else x
      .next (s.modCh m fun x => { mean x with
        out := decide (on ≠ 0), perAt := s.cyc, perOn := on, per := (periodIndex c.cfg c.grid (s.chNow m)).1, gridOk := true, onSum := 0, onN := 0,
        limCyc := if (mean x).limPer then (mean x).limCyc else 0, scCyc := if (mean x).limPer then (mean x).scCyc else 0,
        limPer := (mean x).limit })) ∧
    (readyChanEvent (.pwmOffEdge ch) s = true → exec (.pwmOffEdge ch) s = .next ((s.modCh m fun x => { x with out := false }).relimitAll m)) ∧
    (readyChanEvent (.retryRestart ch) s = true → exec (.retryRestart ch) s = .next ((s.requestTurnOn m .self 0).settle)) ∧
    (readyChanEvent (.retryCounterReset ch) s = true → exec (.retryCounterReset ch) s = .next (s.modCh m fun x => { x with retry := 0 })) ∧
    (readyChanEvent (.orphanHoldEnd ch) s = true → exec (.orphanHoldEnd ch) s =
      let uv := (s.grp (chGroup m)).uv
      let held := if c.holdShut then .off else if c.orphanSt = .safeHold then c.held else heldAt (safevalOf c.cfg) c.orphanSt
      let on := decide (held ≠ .off)
      let s0 := if on then s else (s.endGrant m).imbalEnd m
      let s1 := s0.goCh m .safeHold fun x => { (if on && !uv then x else x.output false) with
        held := held, holds := HoldBy.orphan :: (if s0.flt.safe then [HoldBy.safe] else []), orphaned := true,
        held0 := if held = c.held then x.held0 else decide (held = .on ∧ c.held = .pwm), fromOff := decide (c.orphanSt = .off) }
      .next ((if held ≠ .on ∨ uv then s1
        else if c.held = .pwm then s1.modCh m fun x => { x with out := true, gridOk := false, limCyc := 0, scCyc := 0, limPer := false }
        else if c.held = .off then s1.holdTurnOn m else s1).releaseOrphan m))

/-- 08 R203 to R206; 09 R215, R228 to R239: the measurements of a channel, the limit in force, the open-load and off-state tests, the balance of
a Bunting, the supply groups, the P-dies, and the presence of the C-die. -/
def Obligations.ChannelMeasurementEventsComplete : Prop :=
  ∀ (s : State) (ch g d mv : Nat),
    (∀ ma v, readyChanEvent (.currentLimiting ch ma v) s = true → ∃ t : State, exec (.currentLimiting ch ma v) s = .next t ∧
      let c := s.chan ch
      let on := c.driven && c.out && decide (c.limitNow ch s.cyc < ma)
      (t.chan ch).limit = on ∧ (t.chan ch).load = ma ∧ (t.chan ch).limAt = (if c.limit then c.limAt else s.cyc) ∧
        (t.chan ch).scOn = (on && decide (100 * v < 40 * ((s.grp (chGroup ch)).mv2 * 2))) ∧ (t.chan ch).st = c.st ∧ (t.chan ch).out = c.out ∧
        (∀ n, n ∉ s.members ch → n ≠ ch → t.chan n = s.chan n) ∧ t.mem = s.mem ∧ t.adm = s.adm ∧ t.hal = s.hal) ∧
    (∀ cur vout tj vb, readyChanEvent (.currentSample ch cur vout tj vb) s = true →
      ∃ t : State, exec (.currentSample ch cur vout tj vb) s = .next ((t.olRun ch).imbRun ch) ∧
        let x := currentSample ch (s.chan ch).cfg cur
        (t.chan ch).smp = x.1 ∧ (t.chan ch).fine = x.2.1 ∧ (t.chan ch).sat = (x.2.2 || (voltSample vout).2) ∧ (t.chan ch).vout = (voltSample vout).1 ∧
        (t.chan ch).tj = tj ∧ (t.chan ch).smpT = s.chNow ch / 20000 * 20000 ∧ (t.chan ch).smpNext = s.chNow ch / 20000 * 20000 + 20000 ∧
        (t.chan ch).curPk = Nat.max (s.chan ch).curPk x.1.natAbs ∧ (t.chan ch).st = (s.chan ch).st ∧ (t.grp (chGroup ch)).mv2 = vb ∧
        (∀ n, n ≠ ch → t.chan n = s.chan n) ∧ t.mem = s.mem ∧ t.hal = s.hal) ∧
    (readyChanEvent (.openLoadOn ch) s = true → exec (.openLoadOn ch) s =
      let m := s.lead ch
      .next (if (s.chan m).olOn then s.modCh m fun x => { x with olOn := false }
             else (s.modCh m fun x => { x with olOn := true }).raise 0x32 m)) ∧
    (∀ v1 v2, readyChanEvent (.offStateTest ch v1 v2) s = true → bit (le (s.chan ch).cfg 30 2) 14 = true →
      ∃ t : State, exec (.offStateTest ch v1 v2) s = .next t ∧
        (v1 < 2000 → v2 < 2000 → (s.chan ch).offRead = 1 → (t.chan ch).stb = false ∧ (t.chan ch).olOff = false) ∧
        (2000 ≤ v1 → v2 < 2000 → (s.chan ch).offRead = 2 → (t.chan ch).olOff = true ∧ (t.chan ch).stb = (s.chan ch).stb) ∧
        (2000 ≤ v1 → 2000 ≤ v2 → (s.chan ch).offRead = 3 → (t.chan ch).stb = true ∧ (t.chan ch).olOff = (s.chan ch).olOff) ∧
        (t.chan ch).testAt = s.cyc ∧ (t.chan ch).st = .off ∧ (∀ n, n ≠ ch → t.chan n = s.chan n) ∧ t.mem = s.mem) ∧
    (∀ v1 v2, readyChanEvent (.offStateTest ch v1 v2) s = true → bit (le (s.chan ch).cfg 30 2) 14 = false →
      ((s.grp (chGroup ch)).mv2 : Int) * 2 ≤ 2 * v2 → ranFor (s.chan ch).stbAt (msCyc 10) s.cyc = true →
      ∃ t : State, exec (.offStateTest ch v1 v2) s = .next t ∧ (t.chan ch).stb = true ∧ (t.chan ch).olOff = (s.chan ch).olOff ∧
        (∀ n, n ≠ ch → t.chan n = s.chan n) ∧ t.mem = s.mem) ∧
    (readyChanEvent (.buntingImbalance ch) s = true → exec (.buntingImbalance ch) s =
      let m := s.lead ch
      .next ((s.setBunt m { s.bunt m with imbal := !(s.bunt m).imbal }).condition 0x39 m (!(s.bunt m).imbal))) ∧
    (readyChanEvent (.groupUndervoltage g mv) s = true → exec (.groupUndervoltage g mv) s =
      let x := (s.grp g).read (mv / 2) s.cyc s.sys.variant
      let s1 := (s.setGrp g x).setGrp g { x with uv := true }
      .next ((((s1.leadsOf fun n => chGroup n == g).foldl (fun s n => s.undervolt n) s1).condition 0x34 g true).settle)) ∧
    (readyChanEvent (.groupUvRecover g mv) s = true → exec (.groupUvRecover g mv) s =
      let x := (s.grp g).read (mv / 2) s.cyc s.sys.variant
      let s1 := ((s.setGrp g x).setGrp g { x with uv := false }).condition 0x34 g false
      let first := fun (n : Nat) => (s1.chan n).inHold || prioOf (s1.chan n).cfg
      .next ((((s1.leadsOf fun n => chGroup n == g && first n) ++ s1.leadsOf fun n => chGroup n == g && !first n).foldl
        (fun s n => s.uvRecover n) s1).settle)) ∧
    (readyChanEvent (.groupOvervoltage g mv) s = true → exec (.groupOvervoltage g mv) s =
      let x := (s.grp g).read (mv / 2) s.cyc s.sys.variant
      .next (((s.setGrp g x).setGrp g { x with ov := !x.ov }).condition 0x35 g (!x.ov))) ∧
    (∀ on, readyChanEvent (.reversePolarity g on) s = true → exec (.reversePolarity g on) s = .next (s.setGrp g { s.grp g with rev := on })) ∧
    (∀ temp, readyChanEvent (.dieTempHigh d temp) s = true → exec (.dieTempHigh d temp) s =
      .next ((s.setPdie d { s.pdie d with tref := temp, hot := true }).condition 0x37 d true)) ∧
    (∀ temp, readyChanEvent (.dieTempNormal d temp) s = true → exec (.dieTempNormal d temp) s =
      .next ((s.setPdie d { s.pdie d with tref := temp, hot := false }).condition 0x37 d false)) ∧
    (readyChanEvent (.cDieAbsent d) s = true → d < 2 → exec (.cDieAbsent d) s =
      let s1 := s.setPdie d { s.pdie d with absent := true, absentAt := s.cyc, orphan := true }
      .next ((s1.leadsOf fun n => chDie n == d).foldl (fun s n => s.orphanCh n) s1)) ∧
    (readyChanEvent (.cDieAbsent 2) s = true → exec (.cDieAbsent 2) s =
      .next { s with iso := { s.iso with
        die := { s.iso.die with absent := true, absentAt := s.cyc, orphan := true },
        ch := s.iso.ch.map fun (p : Nat × IsoCh) => if p.2.mode = 2 then (p.1, { p.2 with hold := true }) else p } }) ∧
    (readyChanEvent (.cDiePresent d) s = true → d < 2 → exec (.cDiePresent d) s =
      let s1 := ((s.setPdie d { s.pdie d with absent := false }).realign d).orphanReport d
      .next ((s1.leadsOf fun n => chDie n == d).foldl (fun s n =>
        if (s.chan n).st = .safeHold then
          (s.modCh n fun x => { x with orphaned := true, holds := HoldBy.orphan :: (if s.flt.safe || s.flt.latch then [HoldBy.safe] else []) }).releaseOrphan n
        else s) s1)) ∧
    (readyChanEvent (.cDiePresent 2) s = true → exec (.cDiePresent 2) s =
      .next { s with iso := { s.iso with die := { s.iso.die with absent := false } } })

/-- 05 R125; 06 R138 to R143: the discipline of device time, the reads of it, SCHED.TIME and the sync messages of the two domains. A sync in
LOCKED acts on the servo alone, eight good ones in ACQUIRING lock, HOLDOVER returns to ACQUIRING; each timeout leads to the state its rule names;
DOMAIN2 leaves device time alone. -/
def Obligations.DeviceTimeCommandsComplete : Prop :=
  ∀ (s : State) (h : Hdr),
    (∀ port offset, readyTime (.syncReception false port offset) s = true →
      let big : Int := 2147483647
      let s1 : State := { s with clk := { s.clk with offset := clampI (-big) big offset, lastSync := s.now } }
      let n := if -(le s.clk.gptp 12 4 : Int) < offset ∧ offset < (le s.clk.gptp 12 4 : Int) then s.clk.goodSyncs + 1 else 0
      let s2 : State := { s1 with clk := { s1.clk with goodSyncs := n, lastSyncCyc := s.cyc } }
      exec (.syncReception false port offset) s = .next (match s.clk.disc with
        | .gm => s1
        | .free => s1.goDisc .acquiring
        | .holdover => (s1.goDisc .acquiring).servo offset
        | .acquiring => (if 8 ≤ n then s2.goDisc .locked else s2).servo offset
        | .locked => ({ s1 with clk := { s1.clk with lastSyncCyc := s.cyc } } : State).servo offset)) ∧
    (∀ port offset, readyTime (.syncReception true port offset) s = true → exec (.syncReception true port offset) s =
      .next { s with clk := { s.clk with offset2 := offset, lastSync2 := s.now } }) ∧
    (readyTime .syncTimeout s = true → exec .syncTimeout s = .next (s.goDisc .holdover)) ∧
    (readyTime .holdoverTimeout s = true → exec .holdoverTimeout s = .next ((s.goDisc .free).condition 0x25 s.domain true)) ∧
    (∀ self port id, readyTime (.bestMasterClockDecision false self port id) s = true →
      let ext := bit (byteAt s.clk.gptp 1) 1
      let port' := if ext then byteAt s.clk.gptp 23 else port
      let self' := decide (byteAt s.clk.gptp 4 = 1) || (if ext then decide (port' = 0xFF) else self)
      let same := s.clk.gmIdentity = id ∧ s.clk.slavePort = port'
      let t : State := { s with clk := { s.clk with gmIdentity := id, slavePort := if self' then 0xFF else port' } }
      exec (.bestMasterClockDecision false self port id) s = .next
        (if self' then (if s.clk.disc = .gm then t else t.goDisc .gm)
         else if same ∧ (s.clk.disc = .acquiring ∨ s.clk.disc = .locked ∨ s.clk.disc = .holdover) then s else t.goDisc .acquiring)) ∧
    (∀ self port id, readyTime (.bestMasterClockDecision true self port id) s = true →
      let ext := bit (byteAt s.clk.gptp 1) 1
      let port' := if ext then byteAt s.clk.gptp 23 else port
      let self' := if ext then decide (port' = 0xFF) else self
      exec (.bestMasterClockDecision true self port id) s =
        .next { s with clk := { s.clk with gm2 := self', gmIdentity2 := id, slavePort2 := if self' then 0xFF else port' } }) ∧
    (readyTime (.gptpSyncTransmit false) s = true → exec (.gptpSyncTransmit false) s = .next { s with clk := { s.clk with
      syncTx := s.clk.syncTx + 1, syncAt := put s.clk.syncAt 0 s.cyc,
      syncMsg := put s.clk.syncMsg 0 { domain := s.domain, time := s.now, phaseCnt := s.clk.phaseCnt, phaseStep := s.clk.phaseStep } } }) ∧
    (readyTime (.gptpSyncTransmit true) s = true → exec (.gptpSyncTransmit true) s = .next { s with clk := { s.clk with
      syncTx := s.clk.syncTx + 1, syncAt := put s.clk.syncAt 1 s.cyc,
      syncMsg := put s.clk.syncMsg 1 { domain := byteAt s.clk.gptp 3, time := unsigned 64 ((s.now : Int) + s.clk.offset2) } } }) ∧
    (∀ ini, readyTime (.dtLoRead ini) s = true → exec (.dtLoRead ini) s = .next { s with
        clk := { s.clk with latch := put s.clk.latch ini (s.now / 2 ^ 32, (s.clk.dt / 2 ^ 16) % 2 ^ 16) },
        bus := { err := false, data := toLE 4 s.now } }) ∧
    (∀ op value, readyTime (.schedTime h op value) s = true → exec (.schedTime h op value) s =
      let d := if op = 0 then (value : Int) - s.now else Machine.signed 64 value
      let s1 : State := if s.clk.disc = .gm then { s with clk := { s.clk with phaseCnt := (s.clk.phaseCnt + 1) % 65536, phaseStep := d } } else s
      .next ((s1.timeStep d).ok h))

/-- 05 R125; 06 R146 to R158: the SCHED commands and the dispatch of an armed entry, which comes first among those due. -/
def Obligations.SchedulerCommandsComplete : Prop :=
  ∀ (s : State) (h : Hdr) (n : Nat),
    let e := s.sent n
    let k := (e.epoch + 1) % 65536
    (∀ rcd, readyTime (.schedWrite h n rcd) s = true → exec (.schedWrite h n rcd) s =
      .next ((s.setSent n { rcd := rcd, st := 1, epoch := k }).ok h k)) ∧
    (readyTime (.schedClear h n) s = true → exec (.schedClear h n) s = .next ((s.setSent n { epoch := k }).ok h k)) ∧
    (∀ trigger, readyTime (.schedArm h n trigger) s = true → exec (.schedArm h n trigger) s =
      let x := if trigger = 0 then e else { e with rcd := setBytes e.rcd 8 (toLE 8 trigger) }
      let s1 := s.setSent n { x with st := 2, fired := 0, last := 0, next := x.trigger, owed := none }
      .next ((if byteAt x.rcd 0 = 0 then s1.forward n else s1).ok h)) ∧
    (readyTime (.schedDisarm h n) s = true → exec (.schedDisarm h n) s =
      let s1 := s.withdrawEnt n
      .next (((s1.setSent n { s1.sent n with st := 1, next := 0, late := false, owed := none }).ok h (Nat.min e.fired (2 ^ 32 - 1))).settle)) ∧
    (readyTime (.schedDispatch n) s = true → exec (.schedDispatch n) s =
      let done := if s.sch.dispAt = some s.cyc then s.sch.dispN else 0
      let s1 : State := { s with sch := { s.sch with dispAt := some s.cyc, dispN := done + 1 } }
      .next (match e.owed with
        | some t => (s1.setSent n { e with owed := none }).dispatch n t true false
        | none => (s1.moveTo n (if e.repeats then e.next + e.period else e.next)).dispatch n e.next.toNat
            (e.late || decide (e.next + 3 ≤ (s1.now : Int))) false))

/-- 05 R127; 17 R420 to R435: the INPUT commands and the events of switch inputs, of the converters and of the position counters. A level is
accepted only after a whole run of its debounce time (17 R422). -/
def Obligations.InputCommandsComplete : Prop :=
  ∀ (s : State) (h : Hdr),
    (∀ input wet deb flags maxact chatter window, readyInput (.inputSw h input wet deb flags maxact chatter window) s = true →
      exec (.inputSw h input wet deb flags maxact chatter window) s =
      .next ((s.setSw input { s.sw input with
        conf := true, wet := wet, deb := deb, wake := bit flags 0, low := bit flags 1, maxAct := maxact, chat := chatter, win := window,
        filt := none, unset := true, stuck := false, chatF := false, edges := 0, winCnt := 0, lastWin := none, winAt := s.cyc, actAt := s.cyc,
        filtAt := s.cyc }).ok h)) ∧
    (∀ n, readyInput (.inputStuckDetect n) s = true → exec (.inputStuckDetect n) s = .next ((s.setSw n { s.sw n with stuck := true }).raise 0x70 n)) ∧
    (∀ n, readyInput (.chatterWindowEnd n) s = true → exec (.chatterWindowEnd n) s =
      .next (s.setSw n { s.sw n with lastWin := some (s.sw n).winCnt, winCnt := 0, winAt := (s.sw n).winAt + msCyc (s.sw n).win })) ∧
    (∀ input what, readyInput (.inputClear h input what) s = true → ∃ t : State, exec (.inputClear h input what) s = .next (t.ok h) ∧
      (bit what 0 = true → (t.sw input).stuck = false) ∧ (bit what 1 = true → (t.sw input).chatF = false) ∧
      (bit what 0 = false → (t.sw input).stuck = (s.sw input).stuck) ∧ (bit what 1 = false → (t.sw input).chatF = (s.sw input).chatF) ∧
      (∀ n, n ≠ input → t.sw n = s.sw n) ∧ t.mem = s.mem ∧ t.hal = s.hal ∧ t.lch = s.lch) ∧
    (∀ an conv deb, readyInput (.inputAn h an conv deb) s = true → exec (.inputAn h an conv deb) s =
      .next (((s.setAn an { s.an an with conv := some conv, deb := deb, valid := false, hist := [] }).setConv conv { s.conv conv with conf := true }).ok h)) ∧
    (∀ c an code, readyInput (.adcConversion c an code) s = true → exec (.adcConversion c an code) s =
      let w := ceilDiv (debNs 1 (s.an an).deb * 2) 5
      let hist := ((s.an an).hist ++ [(s.cyc, code)]).filter fun p => decide (s.cyc < p.1 + w)
      let sum := (hist.map (·.2)).sum
      .next ((s.setAn an { s.an an with
        hist := hist, value := (2 * sum + hist.length) / (2 * hist.length), valid := true, sat := decide (code = 4095) }).setConv c
          { s.conv c with last := some an, scanAt := s.cyc + 100 })) ∧
    (∀ pc mode deb zpre preset, readyInput (.inputPc h pc mode deb zpre preset) s = true → ∃ t : State,
      exec (.inputPc h pc mode deb zpre preset) s = .next (t.ok h) ∧
      let x := t.pc pc
      x.conf = true ∧ x.mode = mode ∧ x.deb = deb ∧ x.zpre = decide (zpre = 1) ∧ x.preset = Machine.signed 32 preset ∧
        x.count = Machine.signed 32 preset ∧ x.a = (s.pc pc).a ∧ x.b = (s.pc pc).b ∧ x.z = (s.pc pc).z ∧
        (∀ k, k ≠ pc → t.pc k = s.pc k) ∧ t.mem = s.mem ∧ t.sch = s.sch ∧ t.hal = s.hal) ∧
    (∀ k a b a0 b0, readyInput (.pcEdge k a b) s = true → (s.pc k).a = some a0 → (s.pc k).b = some b0 → exec (.pcEdge k a b) s =
      let x := s.pc k
      let y := { x with a := some a, b := some b, aAt := if a != a0 then s.cyc else x.aAt, bAt := if b != b0 then s.cyc else x.bAt }
      let d := pcStep x.mode (a != a0) a b
      let n := Machine.signed 32 (unsigned 32 (x.count + d))
      .next (if a ≠ a0 ∧ b ≠ b0 then (s.setPc k { y with errCnt := satAdd 16 x.errCnt 1 }).raise 0x72 k
             else if d = 0 then s.setPc k { y with count := n }
             else ((s.setPc k { y with count := n }).posDue (k + 1) n (decide (0 < d))).settle)) ∧
    (∀ k, readyInput (.pcZEdge k) s = true → s.edgeNow k = none → exec (.pcZEdge k) s =
      let x := s.pc k
      .next (s.setPc k { x with z := some true, zAt := s.cyc, zcnt := satAdd 16 x.zcnt 1, count := if x.zpre then x.preset else x.count })) ∧
    (∀ i level, readyInput (.inputLevelAccept 0 i level) s = true → (s.sw i).win = 0 → (s.sw i).chatF = false →
      exec (.inputLevelAccept 0 i level) s =
      let x := s.sw i
      let y := { x with filt := some level, raw := level, unset := false, filtAt := s.cyc }
      let v := level != x.low
      .next (s.setSw i (if x.filt = none ∧ v = x.value then y
        else { y with value := v, tedge := s.now - (debSamples 41 x.deb - 1) * 250, edges := (x.edges + 1) % 2 ^ 32,
                      actAt := if v then s.cyc else x.actAt }))) ∧
    (∀ i level, readyInput (.inputLevelAccept 0 i level) s = true → (s.sw i).win ≠ 0 → (s.sw i).chatF = false → (s.sw i).filt ≠ none →
      (s.sw i).chat ≤ (s.sw i).winCnt → exec (.inputLevelAccept 0 i level) s =
      let x := s.sw i
      .next ((s.setSw i { x with
        filt := some level, raw := level, unset := false, filtAt := s.cyc, winCnt := x.winCnt + 1, chatF := true, lastWin := none }).raise 0x71 i)) ∧
    (∀ i level, readyInput (.inputLevelAccept 1 i level) s = true → exec (.inputLevelAccept 1 i level) s =
      let x := s.pc (i / 3)
      .next (s.setPc (i / 3) (if i % 3 = 0 then { x with a := some level, aAt := s.cyc }
        else if i % 3 = 1 then { x with b := some level, bAt := s.cyc } else { x with z := some level, zAt := s.cyc }))) ∧
    (∀ i level, readyInput (.inputLevelAccept 2 i level) s = true → exec (.inputLevelAccept 2 i level) s =
      let x := s.isoCh i
      .next (s.setIsoCh i { x with
        filt := some level, unset := false, filtAt := s.cyc,
        tedge := if x.filt = none then x.tedge else s.isoNow - (debSamples 41 x.deb - 1) * 250 })) ∧
    (∀ i, readyInput (.inputUnset 0 i) s = true → exec (.inputUnset 0 i) s = .next (s.setSw i { s.sw i with unset := true })) ∧
    (∀ i, readyInput (.inputUnset 2 i) s = true → exec (.inputUnset 2 i) s = .next (s.setIsoCh i { s.isoCh i with unset := true }))

/-- 05 R127; 17 R437 to R445: the ISO commands and the events of the isolated channels. A changed value completes when its blanking ends,
with TIME at its application and the read-back. -/
def Obligations.IsolatedChannelCommandsComplete : Prop :=
  ∀ (s : State) (h : Hdr) (ch : Nat),
    let x := s.isoCh ch
    (∀ mode deb, readyInput (.isoCfg h ch mode deb) s = true → exec (.isoCfg h ch mode deb) s =
      .next (((s.setIsoCh ch { x with mode := mode, deb := deb, cmd := false, filt := none, unset := true, filtAt := s.cyc }).syncIso).ok h)) ∧
    (∀ value, readyInput (.isoSet h ch value) s = true → x.cmd = decide (value = 1) → exec (.isoSet h ch value) s =
      .next (((s.setIsoCh ch { x with hold := false }).syncIso).ok h x.readBack)) ∧
    (∀ value, readyInput (.isoSet h ch value) s = true → x.cmd ≠ decide (value = 1) → ∃ t : State, exec (.isoSet h ch value) s = .next t.syncIso ∧
      t.isoCh ch = { x with
        hold := false, cmd := decide (value = 1), blank := some (s.cyc + usCyc 500), wait := x.wait ++ [(h.ring, h.ctag, h.irq, s.now)] } ∧
      (∀ n, n ≠ ch → t.isoCh n = s.isoCh n) ∧ t.mem = s.mem ∧ t.hal = s.hal ∧ t.iso.vfok = s.iso.vfok ∧ t.lch = s.lch) ∧
    (readyInput (.isoClear h ch) s = true → exec (.isoClear h ch) s =
      .next (if x.mism then ((s.setIsoCh ch { x with mism := false, cause := 0 }).syncIso).ok h else s.ok h)) ∧
    (∀ t, readyInput (.isoBlankingEnd ch) s = true → x.blank = some t → exec (.isoBlankingEnd ch) s =
      let s1 := s.setIsoCh ch { x with blank := none, blankAt := t, wait := [] }
      .next (x.wait.foldl (fun s w => s.replyAt { ring := w.1, ctag := w.2.1, irq := w.2.2.1 } .ok 0 x.readBack w.2.2.2 true)
        (if x.wait.isEmpty then s1 else s1.syncIso))) ∧
    (readyInput (.isoMismatchDetect ch) s = true → exec (.isoMismatchDetect ch) s = .next (s.isoLatch ch (if x.cmd then 1 else 2))) ∧
    (∀ hot, readyInput (.isoOverload ch hot) s = true → exec (.isoOverload ch hot) s =
      .next ((s.setIsoCh ch { x with hot := hot }).isoLatch ch (if hot then 4 else 3))) ∧
    (∀ mv, readyInput (.vfieldOk mv) s = true → ∃ t : State, exec (.vfieldOk mv) s = .next (t.condition 0x74 0 false) ∧
      t.iso.vfok = true ∧ t.iso.vfield = mv / 10 ∧
      (∀ n, n < 16 → t.isoCh n = if (s.isoCh n).mode = 2 ∧ (s.isoCh n).cmd = true
        then { s.isoCh n with blank := some (s.cyc + usCyc 500) } else s.isoCh n) ∧ t.mem = s.mem ∧ t.lch = s.lch ∧ t.hal = s.hal) ∧
    (∀ mv, readyInput (.vfieldLoss mv) s = true → exec (.vfieldLoss mv) s =
      .next (({ s with iso := { s.iso.read mv s.cyc with vfok := false } } : State).condition 0x74 0 true)) ∧
    (readyInput .isoLinkSilent s = true → exec .isoLinkSilent s =
      .next ((({ s with iso := { s.iso with linkok := false } } : State).isoOff fun _ => true).condition 0x75 0 true)) ∧
    (readyInput .barrierLinkReturn s = true → exec .barrierLinkReturn s =
      .next (({ s with iso := { s.iso with linkok := true } } : State).condition 0x75 0 false)) ∧
    (readyInput .isoOrphanTimeout s = true → ∃ t : State, exec .isoOrphanTimeout s = .next t ∧
      (∀ n, n < 16 → (s.isoCh n).hold = true → (t.isoCh n).hold = false ∧ (t.isoCh n).cmd = false) ∧
      (∀ n, (s.isoCh n).hold = false → t.isoCh n = s.isoCh n) ∧ t.mem = s.mem ∧ t.lch = s.lch ∧ t.hal = s.hal)

/-- 05 R121; 12 R300 to R317: the CAN commands and the events of a controller's mode, of bus-off and of the reference message. -/
def Obligations.CanCommandsComplete : Prop :=
  ∀ (s : State) (h : Hdr) (c : Nat),
    let x := s.ctl c
    (∀ addr len r s1, s.descIn h addr len = some (r, s1) → s.mpUp = true → readyCan r (.canCtrl h addr len c) s1 = true →
      exec (.canCtrl h addr len c) s = .next ((s1.setCtl c { s1.ctl c with rcd := r }).ok h)) ∧
    (∀ mode, readyCan [] (.canMode h c mode) s = true → exec (.canMode h c mode) s = .next
      (if x.mode = mode ∧ x.want = none then (if mode = 1 ∧ x.err = 2 then (s.setCtl c { x with recov := true }).ok h else s.ok h)
       else if x.mode = mode then x.wantH.foldl (fun s g => s.ok g) ((s.setCtl c { x with want := none, wantH := [], integ := false }).ok h)
       else if x.mode = 0 then (s.setCtl c { x with want := some mode, wantH := x.wantH ++ [h], integ := true }).waits h
       else if x.mode = 1 ∧ x.err ≠ 2 then (s.setCtl c { x with want := some mode, wantH := x.wantH ++ [h] }).waits h
       else (s.enterMode c mode).ok h)) ∧
    (readyCan [] (.canBusIntegration c) s = true → exec (.canBusIntegration c) s = .next
      (match x.want with
        | some m => if x.mode = 1 then s.setCtl c { x with integ := false } else s.enterMode c m
        | none => s.setCtl c { x with integ := false })) ∧
    (∀ m, readyCan [] (.canModeFrameEnd c) s = true → x.want = some m → exec (.canModeFrameEnd c) s = .next (s.enterMode c m)) ∧
    (readyCan [] (.canBusoffRecoveryStart c) s = true → exec (.canBusoffRecoveryStart c) s = .next (s.setCtl c { x with recov := true })) ∧
    (readyCan [] (.canBusoffRecoveryEnd c) s = true → exec (.canBusoffRecoveryEnd c) s = .next (s.endBusOff c)) ∧
    (∀ obj fmt enable id, readyCan [] (.canObj h obj fmt enable id c) s = true → exec (.canObj h obj fmt enable id c) s =
      let o := s.cobj obj
      let t := s.newRole obj true (enable == 1) fmt id c
      .next (if o.conf && o.fmt == fmt && o.id == id && o.ctrl == c then (s.setCobj obj { o with en := enable == 1 }).ok h o.epoch
             else if o.st = 2 then (s.setCobj obj { o with role := o.role ++ [{ h := h, fmt := fmt, id := id, ctrl := c, en := enable == 1 }] }).waits h
             else t.ok h (t.cobj obj).epoch)) ∧
    (∀ obj addr len data, readyCan [] (.canTx h obj false addr len data) s = true → exec (.canTx h obj false addr len data) s =
      .next (s.canTx h obj data)) ∧
    (∀ obj addr len data r s1, s.descIn h addr len = some (r, s1) → readyCan r (.canTx h obj true addr len data) s = true →
      readyCan r (.canTx h obj true addr len data) s1 = true →
      exec (.canTx h obj true addr len data) s = .next (s1.canTx h obj r)) ∧
    (∀ id locket maclen, readyCan [] (.canAuth h c 1 id locket maclen) s = true → exec (.canAuth h c 1 id locket maclen) s =
      let rest := s.can.prot.filter fun p => !(p.ctrl == c && p.id == id)
      .next (((({ s with can := { s.can with prot := rest } } : State).freeHandle (((s.protOf c id).map fun (p : Prot) => p.handle).getD noHandle)).settle).ok h)) ∧
    (∀ id locket maclen, readyCan [] (.canAuth h c 0 id locket maclen) s = true → exec (.canAuth h c 0 id locket maclen) s =
      let s1 := s.checkSlot locket
      let (t, q) := s.savedFresh c id
      let old := (s.protOf c id).getD { txc := t, rxc := q, savedT := t - 256, savedR := q }
      let p : Prot := { old with ctrl := c, id := id, locket := locket, key := slice (s.slot0 locket) 16 32, maclen := maclen }
      let rest := s.can.prot.filter fun q => !(q.ctrl == c && q.id == id)
      .next (if s.codeOk locket then ({ s1 with can := { s1.can with prot := rest ++ [p] } } : State).ok h else s1.fail h .badState 0x14)) ∧
    (∀ enable entry id, readyCan [] (.canTmaster h c enable entry id) s = true → exec (.canTmaster h c enable entry id) s =
      .next ((s.setCtl c (if enable = 1 then { x with tm := true, tmEnt := entry, tmId := id } else { x with tm := false, refQ := none })).ok h)) ∧
    (readyCan [] (.canRefmsgTimeout c) s = true → exec (.canRefmsgTimeout c) s =
      .next (s.setCtl c { x with refQ := none, refMiss := satAdd 16 x.refMiss 1 })) ∧
    (∀ n p, readyCan [] (.freshnessSave n) s = true → s.can.prot[n]? = some p → p.granted = true → exec (.freshnessSave n) s =
      let q := { p with due := false, asked := false, granted := false, handle := noHandle, savedT := p.txc, savedR := p.rxc }
      .next ((({ s with can := { s.can with
        prot := s.can.prot.set n q, saved := put s.can.saved (p.ctrl * 2 ^ 32 + p.id) (p.txc, p.rxc) } } : State).freeHandle p.handle).settle)) ∧
    (∀ n p, readyCan [] (.freshnessSave n) s = true → s.can.prot[n]? = some p → p.granted = false → exec (.freshnessSave n) s =
      let s1 : State := { s with can := { s.can with prot := s.can.prot.set n { p with asked := true } } }
      .next (s1.requestInternal 3 300 0 (.fresh (p.ctrl * 2 ^ 32 + p.id)) fun s hd =>
        { s with can := { s.can with prot := s.can.prot.modify n fun q => { q with handle := hd } } }))

/-- 12 R303 to R314; 13 R337, R344; 14 R355: the events on a CAN bus: a frame received or sent, the errors of either, the start of a frame, and
an error of the die-to-die link, which the controller takes as a bit error. On a segment that sleeps with wake on a wake-up frame, that frame or
the 32nd error wakes it. -/
def Obligations.CanBusEventsComplete : Prop :=
  ∀ (s : State) (c : Nat),
    let x := s.ctl c
    (∀ frame ago, readyCanBus (.canFrameReceive c frame ago) s = true → exec (.canFrameReceive c frame ago) s =
      let fresh := Config.freeValue s.clk.free
      let t := s.now - ago * 5 / 2
      let recv := if !s.drawn.counts c then x.recv else if 127 < x.recv then 119 + fresh % 9 else x.recv - 1
      let s1 := (s.drawn.setCtl c { x with rxfrm := (x.rxfrm + 1) % 2 ^ 32, recv := recv }).updErr c
      let s2 := if c < 8 ∧ !s1.isPennant c frame then s1.segEvent c else s1
      .next (match (if frame.rtr then none else s2.protOf c frame.id) with
        | none => s2.matchFrame c frame none t
        | some p => match p.verify frame with
          | none => (s2.setCtl c { s2.ctl c with authFail := satAdd 16 (s2.ctl c).authFail 1 }).raise 0x52 c
          | some (n, len) =>
            let q := { p with rxc := n, due := p.due || n / 256 != p.rxc / 256 }
            let l := s2.can.prot.map fun r => if r.ctrl == c && r.id == frame.id then q else r
            ({ s2 with can := { s2.can with prot := l } } : State).matchFrame c frame (some len) t)) ∧
    (∀ frame ago, c < 8 → s.selWake c = true → validFrame frame = true → s.wakeUpFrame c frame = true →
      exec (.canFrameReceive c frame ago) s = .next (s.wokenSeg c)) ∧
    (∀ kind dominant, c < 8 → s.selWake c = true → exec (.canReceiveError c kind dominant) s =
      let g := s.seg c
      .next (if 31 ≤ g.wufErr then (s.setSeg c { g with wufErr := 0 }).wokenSeg c else s.setSeg c { g with wufErr := g.wufErr + 1 })) ∧
    (∀ kind dominant, readyCanBus (.canReceiveError c kind dominant) s = true → exec (.canReceiveError c kind dominant) s =
      .next ((s.setCtl c { x with
        recv := if s.counts c then Nat.min 255 (x.recv + if dominant then 8 else 1) else x.recv, errs := bump 16 x.errs kind, last := kind }).updErr c)) ∧
    (readyCanBus (.canTxStart c) s = true → exec (.canTxStart c) s = .next (s.startFrame c 65)) ∧
    (∀ tdc t, readyCanBus (.canTxDone c tdc) s = true → x.tx = some t → exec (.canTxDone c tdc) s =
      let s1 := (s.setCtl c { x with tx := none, txfrm := (x.txfrm + 1) % 2 ^ 32, tec := x.tec - 1, tdc := if t.frame.fmt = 0 then x.tdc else tdc }).updErr c
      let p := s1.setCtl c { s1.ctl c with pen := (s1.ctl c).pen.drop 1 }
      let s2 := if c < 8 then s1.segEvent c else s1
      let y := s2.ctl c
      let o := s2.cobj t.obj
      let s3 := s2.setCobj t.obj { o with st := 0, h := none, built := none, sdata := o.data, sxl := o.xl, cnt := (o.cnt + 1) % 65536, time := t.sof }
      .next (if t.kind = 1 then (if byteAt t.frame.data 0 % 16 = 4 then (p.penAbortEnd c).roundChecked c else p)
             else if t.kind = 0 then s2.setCtl c { y with refCyc := (y.refCyc + 1) % 64, refBeg := false }
             else if t.kind = 2 then (s3.txEnds o.h 1 o.retr t.sof).objFree t.obj
             else (s2.unroute c t.rtd).delivered t.rtd.entry)) ∧
    (∀ kind exc t, readyCanBus (.canTxError c kind exc) s = true → x.tx = some t → exec (.canTxError c kind exc) s =
      let up := if kind = 0 ∨ (exc = true ∧ (kind = 2 ∨ (kind = 4 ∧ x.err = 1))) then 0 else 8
      let s1 := (s.setCtl c { x with
        tx := none, tec := x.tec + up, errs := if kind = 0 then x.errs else bump 16 x.errs kind, last := if kind = 0 then x.last else kind }).updErr c
      let o := s1.cobj t.obj
      .next (if oneShot x.rcd = true ∧ t.kind = 2 ∧ o.later = none then
               ((s1.setCobj t.obj { o with st := 0, h := none, built := none }).txFails o.h .badState 0x17 0).roleDue t.obj
             else if oneShot x.rcd = true ∧ t.kind = 3 then (s1.unroute c t.rtd).dropCopy t.rtd.entry 9
             else s1.txBack c t)) ∧
    (readyCanBus (.d2dError c) s = true → c < 8 → exec (.d2dError c) s =
      let s1 := (s.setCtl c { x with d2d := satAdd 32 x.d2d 1 }).raise 0x53 c
      .next (if x.tx.isSome then s1.txError c 1 false else if s1.onBus c then s1.rxError c 1 false else s1)) ∧
    (readyCanBus (.d2dError c) s = true → 8 ≤ c → exec (.d2dError c) s =
      let s1 := s.raise 0x53 c
      let l := s1.lin (c - 12)
      .next (if l.wait.isSome then (s1.setLin (c - 12) { l with bitErr := satAdd 16 l.bitErr 1 }).raise 0x54 c else s1))

/-- 05 R121; 12 R321 to R325; 14 R360: the LIN commands and events. -/
def Obligations.LinCommandsComplete : Prop :=
  ∀ (s : State) (h : Hdr) (l : Nat),
    let x := s.lin l
    (∀ addr len r s1, s.descIn h addr len = some (r, s1) → s.mpUp = true → s.owner 6 l = h.ring → readyLin r (.canLin h addr len l) s1 = true →
      exec (.canLin h addr len l) s = .next ((s1.setLin l { s1.lin l with rcd := r }).ok h)) ∧
    (∀ table mode, readyLin [] (.canLinrun h l table mode) s = true → exec (.canLinrun h l table mode) s =
      .next ((if mode = 0 ∨ x.run = false then s.linStart l table else s.setLin l { x with chg := some table }).ok h)) ∧
    (∀ err, readyLin [] (.linSlotStart l err) s = true → exec (.linSlotStart l err) s =
      let y := x.atSlot
      let s1 := s.setLin l y
      let (k, d) := linSlot y.rcd (y.coll.getD y.tab) y.next
      let t := if y.fresh then s.now else y.nextAt
      let s2 := s1.setLin l { y with slot := y.next, next := y.next + 1, start := t, nextAt := t + d * 1000000, fresh := false }
      let ty := linType y.rcd k
      .next (if (s.seg (8 + l)).pst = 1 ∧ !y.hold then
               (if err then (s1.setLin l { y with bitErr := satAdd 16 y.bitErr 1, hdr := (y.hdr + 1) % 2 ^ 32 }).linErr l else s1.linCommit l)
             else if (ty = 0 ∨ ty = 2) ∧ linPublish y.rcd k then s2.linPublishSlot l k (decide (ty = 2)) err
             else if ty = 2 ∧ y.sent3c = false then s2 else s2.linHeaderSlot l k err)) ∧
    (∀ data code ago k, readyLin [] (.linResponseRx l data code ago) s = true → x.wait = some k →
      exec (.linResponseRx l data code ago) s =
      let ty := linType x.rcd k
      let y := { x with wait := none }
      let s1 := (if ty = 2 then s.setLin l { y with sent3c := false } else s.setLin l y).segEvent (8 + l)
      .next (if code = 0 then s1.linStore l (if ty = 1 then byteAt data 0 % 64 else linFid x.rcd k) data (s1.now - ago * 5 / 2)
             else if ty = 1 then s.setLin l { y with
               colls := satAdd 16 x.colls 1, coll := some (linColl x.rcd k), next := 0, ret := if x.coll.isSome then x.ret else x.next }
             else if code = 1 then (s.setLin l { y with csum := satAdd 16 x.csum 1 }).linErr l
             else (s.setLin l { y with noresp := satAdd 16 x.noresp 1 }).linErr l)) ∧
    (readyLin [] (.linNoResponse l) s = true → exec (.linNoResponse l) s =
      .next ((s.setLin l { x with wait := none, noresp := satAdd 16 x.noresp 1 }).linErr l)) ∧
    (∀ fid c, readyLin [] (.bridgeLinAgeExpiry l fid) s = true → look? x.buf fid = some c → exec (.bridgeLinAgeExpiry l fid) s =
      .next ((s.setLin l { x with buf := del x.buf fid }).dropCopy c.entry 8))

/-- 05 R122; 13 R330 to R344: the WAKE commands, the sleep of a segment, and the Pennant exchange. A round's last READY sends COMMIT; the
commit point takes the segment to Standby, or back to Normal when a wake has come since. CANn_MODE of CAN8 to CAN11 is high in configuration
mode and low in the others, unpowered while the module sleeps; INHn is driven high or released. -/
def Obligations.WakeCommandsComplete : Prop :=
  ∀ (s : State) (h : Hdr) (sg : Nat),
    let x := s.seg sg
    (∀ n, s.live = true → s.sys.pwr = .valid → s.dbg.extest = false → s.contact (.canMode n) = if (s.ctl n).mode = 0 then .high else .low) ∧
    (∀ n, s.sys.pwr = .aoOnly → s.contact (.canMode n) = .unpowered ∧ (s.wake.inhOff = true → s.contact (.inh n) = .highZ)) ∧
    (∀ n, s.sys.pwr ≠ .off → s.contact (.inh n) = .high ∨ s.contact (.inh n) = .highZ) ∧
    (∀ n g, s.sys.pwr ≠ .off → s.wake.inhOff = false → g < 22 → (s.seg g).xst ≤ 2 → byteAt (s.segRec g) 1 = n →
      s.contact (.inh n) = .high) ∧
    (∀ addr len r s1, s.descIn h addr len = some (r, s1) → s.mpUp = true → readyWake r (.wakeSource h addr len) s1 = true →
      exec (.wakeSource h addr len) s = .next ((({ s1 with wake := { s1.wake with rcd := r } } : State).syncWake).ok h)) ∧
    (∀ mask level, readyWake [] (.wakeInh h mask level) s = true → exec (.wakeInh h mask level) s =
      let v := listMask ((List.range 4).filter fun n => if bit mask n then bit level n else bit s.wake.level n)
      .next ((({ s with wake := { s.wake with level := v } } : State).syncWake).ok h)) ∧
    (∀ st, readyWake [] (.wakeXcvr h sg st) s = true → exec (.wakeXcvr h sg st) s = .next
      ((if x.pst ≠ 0 then ((s.segEvent sg).unlisten sg).ok h
        else if st = 0 then (if 2 ≤ x.xst then s.xcvrNormal h sg else (s.unlisten sg).ok h)
        else if st = 1 then (s.listen sg).ok h
        else if st ≤ x.xst then s.ok h
        else if x.xst = 2 then (s.setSeg sg { x with xst := 3, sleepAt := none }).ok h
        else (s.standby sg (st == 3)).ok h).syncWake)) ∧
    (readyWake [] (.segmentSleepEntry sg) s = true → exec (.segmentSleepEntry sg) s = .next (s.setSeg sg { x with xst := 3, sleepAt := none })) ∧
    (∀ mask deadline attempts, readyWake [] (.wakeIndicate h mask deadline attempts) s = true →
      exec (.wakeIndicate h mask deadline attempts) s =
      let l := maskList 22 mask
      let i : Ind := { h := h, mask := mask, dead := s.cyc + msCyc deadline, attempts := attempts }
      let s1 := (s.accepted h 0x01).inflightState h 4
      let s2 : State := { s1 with wake := { s1.wake with ind := s1.wake.ind ++ [i] } }
      .next (if l.all fun g => s.asleep g then s.ok h mask
             else (((l.filter fun g => !s2.asleep g).foldl (fun s g => (s.setSeg g { s.seg g with tries := 0 }).startRound g) s2).syncWake))) ∧
    (∀ seq node, readyWake [] (.pennantReadyRx sg seq node false) s = true → exec (.pennantReadyRx sg seq node false) s =
      .next ((s.sendPen sg 4).roundFailed sg)) ∧
    (∀ seq node, readyWake [] (.pennantReadyRx sg seq node true) s = true → exec (.pennantReadyRx sg seq node true) s =
      let m := if bit x.ready node then x.ready else x.ready + 2 ^ node
      let all := (List.range 16).all fun n => !bit (le (s.segRec sg) 6 2) n || bit m n
      .next (if all then ((s.setSeg sg { x with ready := m, pst := 2, winAt := none, abort := false, woken := false, commitAt := none }).sendPen sg 3).dropSleeping sg
             else s.setSeg sg { x with ready := m })) ∧
    (readyWake [] (.pennantReadyTimeout sg) s = true → exec (.pennantReadyTimeout sg) s = .next ((s.sendPen sg 4).roundFailed sg)) ∧
    (readyWake [] (.pennantCommitPoint sg) s = true → exec (.pennantCommitPoint sg) s =
      let wake := x.woken || x.abort
      let s1 := ((s.setSeg sg { x with pst := 0, commitAt := none, abort := false, woken := false }).standby sg (!wake)).indCheck
      let s2 := s1.setSeg sg { s1.seg sg with latch := true }
      let s3 := if 8 ≤ sg ∧ sg < 16 then s2.setLin (sg - 8) { s2.lin (sg - 8) with pulse := s2.cyc + msCyc 1 } else s2
      .next (if wake then (s3.wakeSeg sg).sendPen sg 5 else s1)) ∧
    (readyWake [] (.pennantRetry sg) s = true → exec (.pennantRetry sg) s = .next (s.startRound sg)) ∧
    (∀ ring ctag i, readyWake [] (.wakeIndicateDeadline ring ctag) s = true →
      s.wake.ind.find? (fun (i : Ind) => i.h.ring == ring && i.h.ctag == ctag && !i.past) = some i →
      exec (.wakeIndicateDeadline ring ctag) s = .next (s.indOver i))

/-- 05 R123; 14 R351 to R363: the BRIDGE commands, the lookup of a queued frame, and the AVTPDUs that leave the switch at SP19. -/
def Obligations.FrameBridgeCommandsComplete : Prop :=
  ∀ (s : State) (h : Hdr) (entry : Nat),
    let k := ((s.route entry).epoch + 1) % 65536
    (∀ rcd, readyBridge (.bridgeRoute h entry rcd) s = true → exec (.bridgeRoute h entry rcd) s = .next ((s.writeRoute entry rcd true).ok h k)) ∧
    (readyBridge (.bridgeClear h entry) s = true → exec (.bridgeClear h entry) s = .next ((s.writeRoute entry (zeros 48) false).ok h k)) ∧
    (∀ sg, readyBridge (.bridgeWakelist h sg 1 entry) s = true → exec (.bridgeWakelist h sg 1 entry) s =
      let l := look (fun _ => []) s.brg.wake sg
      .next (({ s with brg := { s.brg with wake := put s.brg.wake sg (l.filter (· != entry)) } } : State).ok h)) ∧
    (∀ sg, readyBridge (.bridgeWakelist h sg 0 entry) s = true → exec (.bridgeWakelist h sg 0 entry) s =
      let l := look (fun _ => []) s.brg.wake sg
      .next ((if l.contains entry then s else { s with brg := { s.brg with wake := put s.brg.wake sg (l ++ [entry]) } } : State).ok h)) ∧
    (∀ q f rest, s.lookupDue = true → s.nextQueue = some q → look (fun _ => []) s.brg.inq q = f :: rest → exec .bridgeLookup s =
      let s1 : State := { s with brg := { s.brg with inq := put s.brg.inq q rest, rr := q, lookAt := some s.cyc } }
      .next (match s1.brg.route.find? fun (p : Nat × Route) => p.2.written && rtEnable p.2.rcd && keyMatch q f p.2.rcd with
        | none => s1
        | some (e, _) =>
          let r := (s1.route e).refill s1.cyc
          let n := (rtDests r.rcd).length
          let dropAll := fun (k : Nat) => (s1.setRoute e { s1.route e with drop := satAdd 32 (s1.route e).drop n }).brgCnt k
          if !s1.endOwned (s1.owner 8 e) (rtSrc r.rcd) (rtSid r.rcd) (rtVid r.rcd) false then dropAll 4
          else if rtRate r.rcd ≠ 0 ∧ r.tokens < tokenUnit then dropAll 2
          else (rtDests r.rcd).foldl (fun s i => s.copyTo e q f i)
            (s1.setRoute e (if rtRate r.rcd = 0 then r else { r with tokens := r.tokens - tokenUnit })))) ∧
    (∀ vid uid msgs, readyBridge (.sp19AvtpduReceive vid uid false msgs) s = true → exec (.sp19AvtpduReceive vid uid false msgs) s =
      .next (s.brgCnt 12)) ∧
    (∀ vid uid msgs, readyBridge (.sp19AvtpduReceive vid uid true msgs) s = true → exec (.sp19AvtpduReceive vid uid true msgs) s =
      .next ((msgs.drop 8).foldl (fun (s : State) _ => s.brgCnt 13) ((msgs.take 8).foldl (fun (s : State) (m : Acf) =>
        if 2 < m.typ ∨ m.frame.rtr then s.brgCnt 12
        else s.offer 20 { fmt := if m.typ = 2 then 1 else 0, frame := m.frame, bus := m.bus, uid := uid, vid := vid,
                          time := if m.mtv && m.typ != 1 then m.time else s.now }) s)))

/-- 05 R131; 19 R476 to R496: the KEY and ATTEST commands. A command that writes a Locket or signs asks admission first; what a cipher
gives is the standard's (log 5), and a Locket whose code does not match gives BAD_STATE 0x11. -/
def Obligations.KeyCommandsComplete : Prop :=
  ∀ (s : State) (h : Hdr) (slot : Nat),
    let uses := fun (s : State) (t : State) => if s.codeOk slot then t else (s.checkSlot slot).fail h .badState 0x11
    (∀ addr len r s1, s.descIn h addr len = some (r, s1) → readyKey r (.keyWrite h addr len slot) s = true →
      readyKey r (.keyWrite h addr len slot) s1 = true → exec (.keyWrite h addr len slot) s =
      .next (s1.requestOp h 3 300 (.keyWrite h addr len slot) r)) ∧
    (∀ ktype label, readyKey [] (.keyDerive h slot ktype label) s = true → exec (.keyDerive h slot ktype label) s =
      .next (s.requestOp h 3 300 (.keyDerive h slot ktype label) [])) ∧
    (readyKey [] (.keyErase h slot) s = true → exec (.keyErase h slot) s = .next (s.requestOp h 3 300 (.keyErase h slot) [])) ∧
    (∀ allow, readyKey [] (.keyPermit h slot allow) s = true → exec (.keyPermit h slot allow) s =
      let s1 : State := { s with key := { s.key with permit := put s.key.permit slot (allow == 1) }, ten := { s.ten with dirty := true } }
      .next ((if s.ten.saveH = noHandle ∧ s.ten.saveAt ≤ s.cyc then s1.saveRequest else s1).ok h)) ∧
    (∀ addr len iv out outLen r s1, s.descIn h addr len = some (r, s1) → readyKey r (.keyAead h addr len slot 0 iv out outLen) s = true →
      readyKey r (.keyAead h addr len slot 0 iv out outLen) s1 = true → exec (.keyAead h addr len slot 0 iv out outLen) s =
      let d := r.drop (4 + le r 0 2)
      let (c, t) := gcmSeal (s1.keyBytes slot) (fitTo 12 iv) (slice r 4 (le r 0 2)) d
      .next (uses s1 (s1.output h out (fitTo d.length c ++ fitTo 16 t)))) ∧
    (∀ addr len iv out outLen r s1, s.descIn h addr len = some (r, s1) → readyKey r (.keyAead h addr len slot 1 iv out outLen) s = true →
      readyKey r (.keyAead h addr len slot 1 iv out outLen) s1 = true → exec (.keyAead h addr len slot 1 iv out outLen) s =
      let d := r.drop (4 + le r 0 2)
      let n := d.length - 16
      .next (uses s1 (match gcmOpen (s1.keyBytes slot) (fitTo 12 iv) (slice r 4 (le r 0 2)) (d.take n) (d.drop n) with
        | some p => s1.output h out (fitTo n p)
        | none => ({ s1 with key := { s1.key with aeadFail := satAdd 32 s1.key.aeadFail 1 } } : State).fail h .badState 0x13))) ∧
    (∀ addr len out outLen r s1, s.descIn h addr len = some (r, s1) → readyKey r (.keyCmac h addr len slot out outLen) s = true →
      readyKey r (.keyCmac h addr len slot out outLen) s1 = true → exec (.keyCmac h addr len slot out outLen) s =
      .next (uses s1 (s1.output h out (fitTo 16 (aesCmac (s1.keyBytes slot) r))))) ∧
    (∀ addr len out outLen r s1, s.descIn h addr len = some (r, s1) → readyKey r (.keySign h addr len slot out outLen) s = true →
      readyKey r (.keySign h addr len slot out outLen) s1 = true → exec (.keySign h addr len slot out outLen) s =
      .next (s1.requestOp h 5 900 (.keySign h addr len slot out outLen) r)) ∧
    (∀ addr len r s1, s.descIn h addr len = some (r, s1) → s.mpUp = true → readyKey r (.keyVerify h addr len) s1 = true →
      exec (.keyVerify h addr len) s = .next (({ s1 with key := { s1.key with verCnt := satAdd 32 s1.key.verCnt 1 } } : State).ok h
        (b2n (dsaVerify (r.take 1952) (pureMsg [] (r.drop 5261)) (slice r 1952 3309))))) ∧
    (∀ out outLen, readyKey [] (.keyPubkey h out outLen slot) s = true → exec (.keyPubkey h out outLen slot) s =
      .next (uses s (s.output h out (fitTo 1952 (dsaPublic (s.keyBytes slot)))))) ∧
    (∀ out outLen nonce, readyKey [] (.attestReport h out outLen nonce) s = true → exec (.attestReport h out outLen nonce) s =
      .next (s.requestOp h 5 900 (.attestReport h out outLen nonce) [])) ∧
    (∀ len data, readyKey [] (.attestExtend h len data) s = true → exec (.attestExtend h len data) s =
      let head : List Byte := [7, BitVec.ofNat 8 h.ring, BitVec.ofNat 8 len]
      let s1 := s.extend 7 (shake256 (head ++ data.take len) 64)
      .next ((({ s1 with sys := { s1.sys with ext7 := satAdd 16 s1.sys.ext7 1 } } : State).recapture).ok h)) ∧
    (∀ out outLen, readyKey [] (.attestIdentity h out outLen) s = true → exec (.attestIdentity h out outLen) s =
      .next (({ s with key := { s.key with idKey := true } } : State).output h out (fitTo 1952 (dsaPublic s.attestSeed))))

/-- 05 R118, R132; 21 R518 to R541; 04 R103: the FAULT commands, STATE.READ, and the events of the collector, of device safe state, of the
event router, of the watchdog pin and of the clocks and processors. -/
def Obligations.FaultCommandsComplete : Prop :=
  ∀ (s : State) (h : Hdr),
    (∀ src sev event line, readyFault (.faultCfg h src sev event line) s = true → exec (.faultCfg h src sev event line) s =
      .next (({ s with flt := { s.flt with cfg := put s.flt.cfg src { sev := sev, ev := event == 1, line := line } } } : State).ok h)) ∧
    (∀ src, readyFault (.faultInject h src) s = true → src ≠ 0x60 → src ≠ 0x61 → src ≠ 0x75 →
      exec (.faultInject h src) s = .next ((s.raise src 0xFFFFFFFF true).ok h)) ∧
    (readyFault (.faultInject h 0x75) s = true →
      exec (.faultInject h 0x75) s = .next ((((s.raise 0x75 0xFFFFFFFF true).isoOff fun _ => true).syncIso).ok h)) ∧
    (∀ src, readyFault (.faultInject h src) s = true → src = 0x60 ∨ src = 0x61 → s.keo.st = 2 →
      exec (.faultInject h src) s =
      let s1 := s.raise src 0xFFFFFFFF true
      let s2 := s1.draw.2
      let s3 : State := { s2 with keo := { s2.keo with st := 3, hcause := 15, htask := 7, haltPc := s1.draw.1 % 2 ^ 32, haltT := s2.now, cur := none } }
      .next ((((s3.keoTrace 2 7).cancelXchg.holdOutputs).settle).ok h)) ∧
    (∀ count, readyFault (.faultLogclr h count) s = true → exec (.faultLogclr h count) s = .next (s.requestOp h 3 300 (.faultLogclr h count) [])) ∧
    (readyFault .faultLogMirror s = true → exec .faultLogMirror s = .next s.mirrorLog) ∧
    (∀ src info rest, readyFault .faultReactionStart s = true → s.flt.waiting = (src, info) :: rest → exec .faultReactionStart s =
      let s1 := s.reactionDone
      let s2 : State := { s1 with flt := { s1.flt with waiting := rest, cur := some (src, info), curAt := s1.cyc } }
      let s3 := s2.setLog src info fun e => { e with pending := false }
      let c := srcClass src
      let keep := { s3.flt with holds := if s3.flt.holds.contains (src, info) then s3.flt.holds else s3.flt.holds ++ [(src, info)] }
      let s4 : State := if c == .ch || c == .can then { s3 with flt := keep } else s3
      .next (if c == .ch then ((List.range 40).filter fun n => s4.srcCovers src info n).foldl (fun s n => s.holdCh n (.src src)) s4
             else if c == .can then s4.holdCan info
             else if info = 0xFFFFFFFF then s4 else (s4.isoOff fun n => src == 0x74 || info % 16 == n).syncIso)) ∧
    (∀ src, readyFault (.faultRelease h src) s = true → exec (.faultRelease h src) s =
      let mine := fun (p : Nat × Nat) => p.1 == src
      let wait := (srcClass src == .ch || srcClass src == .can) && s.flt.waiting.any mine
      let s1 := (s.flt.waiting.filter mine).foldl (fun s (p : Nat × Nat) => s.setLog p.1 p.2 fun e => { e with pending := false }) s
      let s2 : State := if wait then { s1 with flt := { s1.flt with waiting := s1.flt.waiting.filter fun p => !mine p } } else s
      let s3 : State := { s2 with flt := { s2.flt with holds := s2.flt.holds.filter fun p => !mine p } }
      .next ((s3.releaseHolds (· == .src src)).ok h)) ∧
    (readyFault .safeLineDemand s = true → exec .safeLineDemand s = .next s.driveSafe) ∧
    (readyFault (.faultRecover h) s = true → exec (.faultRecover h) s =
      let gone := s.flt.holds.filter fun p => !s.srcActive p.1
      let left := s.flt.holds.filter fun p => s.srcActive p.1
      let s1 : State := { s with flt := { s.flt with safe := false, safeReq := false, latch := false, holds := left },
                                 fab := { s.fab with initHold := false } }
      .next ((s1.releaseHolds fun b => b == .safe || gone.any fun (p : Nat × Nat) => b == .src p.1).ok h)) ∧
    (∀ low, readyFault (.safeNChange low) s = true → exec (.safeNChange low) s =
      .next (({ s with flt := { s.flt with safeLow := low } } : State).condition 0x03 0 low)) ∧
    (∀ enable tmax tmin, readyFault (.sysWdi h enable tmax tmin) s = true → exec (.sysWdi h enable tmax tmin) s =
      .next (({ s with flt := { s.flt with wdi := true, wdiMax := tmax, wdiMin := tmin, wdiAt := s.cyc, wdiPrev := none } } : State).ok h)) ∧
    (readyFault .wdiToggle s = true → exec .wdiToggle s =
      let early := match s.flt.wdiPrev with
        | some p => decide (s.cyc < p + usCyc s.flt.wdiMin)
        | none => false
      let s1 : State := { s with flt := { s.flt with wdiPrev := some s.cyc, wdiAt := s.cyc } }
      .next (if early then s1.raise 0x04 1 else s1)) ∧
    (readyFault .wdiTimeout s = true → exec .wdiTimeout s =
      .next (({ s with flt := { s.flt with wdiAt := s.flt.wdiAt + usCyc s.flt.wdiMax } } : State).raise 0x04 0)) ∧
    (readyFault .clkLoss s = true → exec .clkLoss s = .next (s.condition 0x02 0 true)) ∧
    (∀ temp, readyFault (.cdieOvertemp temp) s = true → exec (.cdieOvertemp temp) s = .next (s.condition 0x07 0 (decide (160 ≤ temp)))) ∧
    (∀ k kind, readyFault (.rtPairFault k kind) s = true → exec (.rtPairFault k kind) s =
      .next (if k = 0 then s.raise 0x05 kind else s.raise 0x06 k)) ∧
    (∀ kind, readyFault (.mpFault kind) s = true → exec (.mpFault kind) s =
      let l := s.hal.inflight.filter fun (e : InFl) => e.fw && e.st != 7
      let s1 := s.forget (l.map fun e => (e.ring, e.ctag))
      let s2 : State := { s1 with hal := { s1.hal with mpFault := true } }
      .next ((l.foldl (fun s (e : InFl) => s.fail { ring := e.ring, ctag := e.ctag, irq := e.irq } .fault 0x02) s2).raise 0x01 kind)) ∧
    (∀ ini tag n value, readyFault (.eventCfgWrite ini tag n value) s = true → exec (.eventCfgWrite ini tag n value) s =
      .next (s.setEv n { s.evLine n with cfg := value })) ∧
    (∀ ini tag n value, readyFault (.eventPendClear ini tag n value) s = true → exec (.eventPendClear ini tag n value) s =
      .next (s.setEv n { s.evLine n with pend := false })) ∧
    (∀ ini tag n value, readyFault (.eventSwtrig ini tag n value) s = true → exec (.eventSwtrig ini tag n value) s =
      .next { s with flt := { s.flt with pulses := s.flt.pulses ++ [n] } }) ∧
    (∀ n, readyFault (.eventPulse n) s = true → exec (.eventPulse n) s =
      let k := (s.flt.pulses.filter (· == n)).length
      let x := s.evLine n
      let f := { s.flt with pulses := s.flt.pulses.filter (· != n), evMerge := satAdd 32 s.flt.evMerge (k - 1) }
      let y := { x with cnt := (x.cnt + 1) % 2 ^ 32, pend := x.pend || bit x.cfg 16 }
      let s1 := ({ s with flt := f } : State).setEv n y
      .next (if s1.evTargetOk n = false then s1.evReject
             else if x.cfg % 8 = 4 then s1.setEv n { y with drove := s.cyc + 1 } else s1)) ∧
    (∀ out outLen obj index count n w fw, readyFault (.stateRead h out outLen obj index count) s = true → readObj obj = some (n, w, fw) →
      exec (.stateRead h out outLen obj index count) s =
      let recs := s.readRecs h.ring obj index count (s.objLast obj n)
      .next (((s.writeOut out recs.flatten).captured h.ring obj index recs.length).ok h (recs.flatten.length + recs.length * 2 ^ 32)))

/-- 04 R82 to R88, R108: the publication of a completion, the doorbells, attach and detach. A publication writes the entry at slot
CPL_TAIL modulo the size, moves CPL_TAIL in the mirror and in the control block, raises the ring's line when the command asked for it,
and a final one releases the in-flight entry. -/
def Obligations.RingEventsComplete : Prop :=
  ∀ (s : State) (ini tag n : Nat),
    let r := s.ring n
    (∀ c, readyTenancy (.completionPublish n) s = true → (s.hal.due.find? fun (c : Cpl) => c.ring == n) = some c →
      exec (.completionPublish n) s =
      let s1 : State := { s with hal := { s.hal with due := dropFirst (fun (c : Cpl) => c.ring == n) s.hal.due } }
      let s2 := s1.writeOut (r.base + 64 * r.entries + 16 * (r.cplTail % r.entries)) c.bytes
      let s3 := (s2.setRing n { s2.ring n with cplTail := (r.cplTail + 1) % 2 ^ 32 }).writeControl n
      let s4 := if c.irq then s3.pulse r.line else s3
      .next (if c.final then s4.release n c.ctag c.dup else s4)) ∧
    (∀ value, readyTenancy (.cmdDb ini tag n value) s = true → exec (.cmdDb ini tag n value) s = .next (s.setRing n { r with cmdTail := value % 2 ^ 32 })) ∧
    (∀ value, readyTenancy (.cplDb ini tag n value) s = true → exec (.cplDb ini tag n value) s = .next (s.setRing n { r with cplHead := value % 2 ^ 32 })) ∧
    (∀ size hi, readyTenancy (.ringAttach ini tag n size hi) s = true → exec (.ringAttach ini tag n size hi) s =
      let s1 : State := { s with hal := { s.hal with due := s.hal.due.filter fun (c : Cpl) => c.ring != n } }
      .next ((s1.setRing n { r with st := 1, size := size, err := 0, base := hi % 256 * 2 ^ 32 + r.baseLo / 4096 * 4096,
                                    cmdHead := 0, cmdTail := 0, cplHead := 0, cplTail := 0, stopped := false }).writeControl n)) ∧
    (readyTenancy (.ringDetach ini tag n) s = true → exec (.ringDetach ini tag n) s = .next (s.detach n))

/-- 05 R118, R128; 04 R82, R100; 18 R452 to R458: TEN.ASSIGN, SYS.PINCFG, TEN.BEZEL, TEN.RINGCFG, and the events of the tenancy tables. A range
that names memory takes effect once the firmware has filled it with zeros. -/
def Obligations.TenancyTableCommandsComplete : Prop :=
  ∀ (s : State) (h : Hdr),
    (readyTenancy .tenancyTableSave s = true → s.saveGranted = true → exec .tenancyTableSave s =
      let cl := s.ten.clasp.map fun (p : Nat × Clasp) =>
        (p.1, { (({} : Clasp)) with ex := p.2.ex, tagA := p.2.tagA, tagB := p.2.tagB, evA := p.2.evA, evB := p.2.evB })
      let s1 : State := { s with ten := { s.ten with svOwn := s.ten.own, svBez := s.ten.bez, svClasp := cl, svPermit := s.key.permit, dirty := false,
                                                     saveH := noHandle } }
      .next (s1.freeHandle s.ten.saveH).settle) ∧
    (readyTenancy .tenancyTableSave s = true → s.saveGranted = false → exec .tenancyTableSave s = .next s.saveRequest) ∧
    (∀ kind tag index count, readyTenancy (.tenAssign h kind tag index count) s = true → exec (.tenAssign h kind tag index count) s =
      let units := (List.range (if epochKind kind then 1 else count)).map (index + ·)
      let moving := units.filter fun i => s.owner kind i != tag
      .next (if moving.isEmpty then s.ok h (s.assignResult kind index count) else s.assign h kind tag index count moving)) ∧
    (∀ pin func pull, readyTenancy (.sysPincfg h pin func pull) s = true → exec (.sysPincfg h pin func pull) s =
      let was := look (fun _ => ({} : Pin)) s.sys.pins pin
      let now : Pin := { func := func, pull := pull, order := if was.func = func then was.order else s.sys.pinSeq + 1 }
      .next (({ s with sys := { s.sys with pins := put s.sys.pins pin now, pinSeq := s.sys.pinSeq + 1 } } : State).ok h)) ∧
    (∀ range tag enable perms base size, readyTenancy (.tenBezel h range tag enable perms base size) s = true →
      exec (.tenBezel h range tag enable perms base size) s =
      let b : Bezel := if enable = 1 then { tag := tag, en := true, r := bit perms 0, w := bit perms 1, x := bit perms 2, base := base, size := size } else {}
      .next (if s.ten.fill.isSome then (({ s with ten := { s.ten with bezQ := s.ten.bezQ ++ [(h, range, b)] } } : State).inflightState h 3)
             else s.applyBezel h range b)) ∧
    (∀ f, readyTenancy .bezelFillDone s = true → s.ten.fill = some f → exec .bezelFillDone s =
      let s1 := s.zeroFill f.range f.bez
      let s2 : State := { s1 with ten := { s1.ten with fill := none } }
      let s3 := (s2.setBezel f.range f.bez).tenChanged.ok f.h
      .next (s3.bezNext s3.ten.bezQ.length)) ∧
    (∀ ring enable quota fwquota event, readyTenancy (.tenRingcfg h ring enable quota fwquota event) s = true →
      exec (.tenRingcfg h ring enable quota fwquota event) s =
      let s1 := s.setRing ring { s.ring ring with enabled := enable == 1, quota := quota, fwQuota := fwquota, line := event }
      .next ((if enable = 0 ∧ (s.ring ring).st = 1 then s1.detach ring else s1).ok h))

/-- 05 R128, R130; 18 R459 to R465: Clasps, their posts and takes, and the gates. CREATE and DELETE raise the Clasp's epoch, a post goes to the
end of the other side's queue and raises its line, a take removes the oldest; a CUT waits until no other tag holds a use. -/
def Obligations.ClaspAndGateCommandsComplete : Prop :=
  ∀ (s : State) (h : Hdr),
    (∀ c op tagA tagB evA evB, readyTenancy (.tenClasp h c op tagA tagB evA evB) s = true → exec (.tenClasp h c op tagA tagB evA evB) s =
      let e := ((s.clasp c).epoch + 1) % 65536
      let x : Clasp := if op = 0 then { ex := true, tagA := tagA, tagB := tagB, evA := evA, evB := evB, epoch := e }
                       else { tagA := (s.clasp c).tagA, tagB := (s.clasp c).tagB, epoch := e }
      .next ((s.setClasp c x).tenChanged.ok h e)) ∧
    (∀ c msg, readyTenancy (.tenPost h c msg) s = true → (s.clasp c).tagA = h.ring → exec (.tenPost h c msg) s =
      let x := s.clasp c
      let k := (x.postsAB + 1) % 65536
      let m : Msg := { bytes := fitTo 32 msg, t := s.now, sender := h.ring, seq := k }
      .next (((s.setClasp c { x with ab := x.ab ++ [m], postsAB := k }).pulse x.evB).ok h (x.ab.length + 1))) ∧
    (∀ c msg, readyTenancy (.tenPost h c msg) s = true → (s.clasp c).tagA ≠ h.ring → exec (.tenPost h c msg) s =
      let x := s.clasp c
      let k := (x.postsBA + 1) % 65536
      let m : Msg := { bytes := fitTo 32 msg, t := s.now, sender := h.ring, seq := k }
      .next (((s.setClasp c { x with ba := x.ba ++ [m], postsBA := k }).pulse x.evA).ok h (x.ba.length + 1))) ∧
    (∀ out outLen c m q, readyTenancy (.tenTake h out outLen c) s = true → (s.clasp c).tagA = h.ring → (s.clasp c).ba = m :: q →
      exec (.tenTake h out outLen c) s =
      let s1 := (s.writeOut out m.record).setClasp c { s.clasp c with ba := q }
      .next ((if q.length = 63 then s1.pulse (s.clasp c).evB else s1).ok h (48 + 2 ^ 32 * q.length))) ∧
    (∀ out outLen c m q, readyTenancy (.tenTake h out outLen c) s = true → (s.clasp c).tagA ≠ h.ring → (s.clasp c).ab = m :: q →
      exec (.tenTake h out outLen c) s =
      let s1 := (s.writeOut out m.record).setClasp c { s.clasp c with ab := q }
      .next ((if q.length = 63 then s1.pulse (s.clasp c).evA else s1).ok h (48 + 2 ^ 32 * q.length))) ∧
    (∀ g, readyTenancy (.tenGate h g 0) s = true → exec (.tenGate h g 0) s =
      let t := s.setUse g h.ring (s.heldCount g h.ring + 1)
      .next (t.ok h (t.useCount g h.ring))) ∧
    (∀ g, readyTenancy (.tenGate h g 1) s = true → exec (.tenGate h g 1) s =
      let t := s.setUse g h.ring (s.heldCount g h.ring - 1)
      .next (t.ok h (t.useCount g h.ring))) ∧
    (∀ g, readyTenancy (.tenGate h g 2) s = true → exec (.tenGate h g 2) s =
      let s1 := s.setGate g { s.gate g with pend := (s.gate g).pend ++ [h] }
      .next (if (s.gate g).cut then s.ok h (s.useCount g h.ring)
             else if s1.usedByOther g then (s1.accepted h 0x03).inflightState h 6
             else if s1.gateIdle g then s1.cutGate g else s1.waits h)) ∧
    (∀ g, readyTenancy (.tenGate h g 3) s = true → exec (.tenGate h g 3) s =
      .next (((s.gate g).pend.foldl (fun s (w : Hdr) => s.fail w .badState 0x15) (s.setGate g { s.gate g with cut := false, pend := [] })).ok h
        (s.useCount g h.ring))) ∧
    (∀ g, readyTenancy (.gateCutApply g) s = true → exec (.gateCutApply g) s =
      .next ((s.gate g).pend.foldl (fun s (w : Hdr) => s.ok w (s.useCount g w.ring)) (s.setGate g { s.gate g with cut := true, pend := [] })))

/-- 05 R118; 20 R506 to R512: the frame bus. A confirmed poll keeps the link up and starts a waiting period; a posted write acts when it is
confirmed and is logged as source 0x90 when it fails; the last burst of a capture completes the command. -/
def Obligations.FrameBusCommandsComplete : Prop :=
  ∀ (s : State) (h : Hdr) (ch code repeats : Nat),
    let die := 1 + chDie ch
    (∀ poll, readyTenancy (.sysFbpoll h poll) s = true → exec (.sysFbpoll h poll) s =
      .next (({ s with fb := { s.fb with pollNew := s.fb.pollNew ++ [(h, if poll = 0 then 2 else poll)] } } : State).waits h)) ∧
    (∀ d hot, readyTenancy (.fbPoll d 0 hot) s = true → exec (.fbPoll d 0 hot) s =
      .next ((({ s with fb := { s.fb with pollAt := put s.fb.pollAt d s.cyc } } : State).pollGood d hot).pollTaken)) ∧
    (∀ d hot, code ≠ 0 → readyTenancy (.fbPoll d code hot) s = true → exec (.fbPoll d code hot) s =
      .next ((({ s with fb := { s.fb with pollAt := put s.fb.pollAt d s.cyc } } : State).pollBad d (code + 1)).pollTaken)) ∧
    (∀ ini tag word, readyTenancy (.fbPostedWrite ini tag ch word 0 repeats) s = true → exec (.fbPostedWrite ini tag ch word 0 repeats) s =
      .next (({ s with fb := { s.fb with retry := satAdd 32 s.fb.retry repeats } } : State).directWrite ini tag ch (bits word 31 16) (bits word 15 14)
        (bits word 13 10) (bits word 9 0) 0)) ∧
    (∀ ini tag word, code ≠ 0 → readyTenancy (.fbPostedWrite ini tag ch word code repeats) s = true →
      exec (.fbPostedWrite ini tag ch word code repeats) s =
      let lost := s.linkDown die || s.dieAbsent ch
      let s1 : State := { s with fb := { s.fb with retry := if lost then s.fb.retry else satAdd 32 s.fb.retry 3, postErr := satAdd 32 s.fb.postErr 1 } }
      .next ((s1.fbLog { addr := cmdAddr ch, time := s.now32, die := die, code := code + 1, ini := ini, kind := 5, tag := tag }).raise 0x90 die)) ∧
    (∀ smp far k, readyTenancy (.fbDataBurst ch smp far code repeats) s = true → (s.chan ch).cap = some k → code = 0 → s.linkDown die = false →
      exec (.fbDataBurst ch smp far code repeats) s =
      let s1 : State := { s with fb := { s.fb with retry := satAdd 32 s.fb.retry repeats } }
      let a := if k.done = 0 then far / 4 * 4 else k.far
      let n := s.burstLen ch smp far k
      let used := smp.take (n / 4)
      let s2 := s1.captureOut k.tag (k.addr + 16 + k.done) (if k.kind = 0 then k.buf.take n else (used.map fun x => kind1Record ch x).flatten)
      let k1 := { k with done := k.done + n, far := a + n, buf := k.buf.drop n,
                         satF := k.satF || (decide (k.kind = 1) && used.any fun x => kind1Sat ch x) }
      let s3 := s2.captureOut k.tag k.addr k1.header
      .next (if k1.done < 4 * k.count then s2.setChan ch { s2.chan ch with cap := some k1 }
             else (s3.setChan ch { s3.chan ch with cap := none }).ok { ring := k.tag, ctag := k.ctag, irq := k.irq } (16 + 4 * k.count))) ∧
    (∀ smp far k, readyTenancy (.fbDataBurst ch smp far code repeats) s = true → (s.chan ch).cap = some k → (code ≠ 0 ∨ s.linkDown die = true) →
      exec (.fbDataBurst ch smp far code repeats) s =
      let down := s.linkDown die
      let a := if k.done = 0 then far / 4 * 4 else k.far
      let s1 : State := { s with fb := { s.fb with retry := if down then s.fb.retry else satAdd 32 s.fb.retry 3 } }
      let s2 := s1.fbLog { addr := a, time := s.now32, die := die, code := if down then 3 else code + 1, ini := 0x20, kind := 2, tag := k.tag }
      .next ((s2.setChan ch { s2.chan ch with cap := none }).fail { ring := k.tag, ctag := k.ctag, irq := k.irq } .fault 0x04 k.done))

/-- 11 R271 to R273, R292; 13 R338: the events of a port's link, and of the sleep and the wake-up of a 10BASE-T1S or T1 link. -/
def Obligations.LinkEventsComplete : Prop :=
  ∀ (s : State) (p : Nat),
    let x := s.port p
    (readyNet [] (.linkTrainingDone p) s = true → exec (.linkTrainingDone p) s =
      .next (if p ≤ 1 then (s.setPort p { x with lock := true }).usxCheck p else s.portUp p)) ∧
    (readyNet [] (.linkTrainingTimeout p) s = true → exec (.linkTrainingTimeout p) s =
      let s1 := (s.endLink p).setLink p .down
      .next (s1.setPort p { s1.port p with retryAt := some (s1.cyc + msCyc 100) }).settle) ∧
    (readyNet [] (.linkRetryTimer p) s = true → exec (.linkRetryTimer p) s =
      .next (if isT1s p then (s.setSeg (p + 6) { s.seg (p + 6) with retryLink := none }).askNormal (p + 6)
             else (s.setPort p { x with retryAt := none }).linkWanted p)) ∧
    (readyNet [] (.linkLoss p) s = true → exec (.linkLoss p) s =
      .next (if p ≤ 1 then (s.setPort p { x with lock := false, exch := false, txWord := 1 }).usxCheck p else s.lostLink p)) ∧
    (∀ up, readyNet [] (.mdioPoll p up) s = true → exec (.mdioPoll p up) s = .next ((s.setPort p { x with mdioUp := up }).usxCheck p)) ∧
    (∀ w, readyNet [] (.usxgmiiInbandWord p w) s = true → exec (.usxgmiiInbandWord p w) s =
      let plain := fun (v : Nat) => if bit v 14 then v - 2 ^ 14 else v
      let same := plain w == plain x.word
      .next ((s.setPort p { x with word := w, txWord := if same then 0x4001 else 1, exch := same && (x.exch || bit w 14) }).usxCheck p)) ∧
    (readyNet [] (.tc10SleepRequestRx p) s = true → exec (.tc10SleepRequestRx p) s = .next (s.setLink p .asleep)) ∧
    (readyNet [] (.tc10SleepAckRx p) s = true → exec (.tc10SleepAckRx p) s = .next (s.setLink p .asleep)) ∧
    (readyNet [] (.tc10SleepAbort p) s = true → exec (.tc10SleepAbort p) s = .next (s.sleepAborted p)) ∧
    (readyNet [] (.tc10WakeupRx p) s = true → exec (.tc10WakeupRx p) s = .next (s.tc10Wake p)) ∧
    (readyNet [] (.netWakeDeadline p) s = true → exec (.netWakeDeadline p) s =
      let past := fun (w : Nat × Hdr × Nat) => w.1 == p && decide (w.2.2 ≤ s.cyc)
      .next ((s.net.wakeOps.filter past).foldl (fun s (w : Nat × Hdr × Nat) => s.fail w.2.1 .timeout 0x10)
        { s with net := { s.net with wakeOps := s.net.wakeOps.filter fun w => !past w } }))

/-- 05 R120; 11 R274 to R293: the NET commands. Whether the code of a Locket verifies is a value of the machine that no operand shows, so the
installation of an SA says both outcomes. -/
def Obligations.NetCommandsComplete : Prop :=
  ∀ (s : State) (h : Hdr),
    (∀ port, readyNet [] (.netSleep h port) s = true → exec (.netSleep h port) s =
      .next ((s.setPort port { s.port port with lst := .sleepReq, sleepAt := s.cyc }).ok h)) ∧
    (∀ port deadline, readyNet [] (.netWake h port deadline) s = true → exec (.netWake h port deadline) s =
      let s1 : State := { s with net := { s.net with wakeOps := s.net.wakeOps ++ [(port, h, s.cyc + msCyc deadline)] } }
      let s2 := if (s.port port).lst ≠ .asleep then s1
                else if isT1s port then s1.wakeSeg (port + 6) h.ring 0
                else (s1.setLink port .down).requestLink port h.ring 0
      .next (if (s.port port).lst = .up then s.ok h
             else s2.wakeAccepted h (if isT1s port then (s2.seg (port + 6)).handle else (s2.port port).handle))) ∧
    (∀ addr len port r s1, s.descIn h addr len = some (r, s1) → s.mpUp = true → readyNet r (.netPortcfg h addr len port) s1 = true →
      exec (.netPortcfg h addr len port) s =
      let on := bit (byteAt r 1) 0
      let l := (s1.port port).lst
      let s2 := s1.credits port
      let s3 := if !on && l != .disabled then s2.disablePort port else s2
      let s4 := s3.setPort port { s3.port port with rcd := r }
      .next ((if on && (l == .disabled || (l == .down && !isT1 port)) then s4.enablePort port else s4).ok h)) ∧
    (∀ vid member untag, readyNet [] (.netVlan h vid member untag) s = true → exec (.netVlan h vid member untag) s =
      .next (({ s with net := { s.net with vlan := put s.net.vlan vid { member := member, untag := untag } } } : State).ok h)) ∧
    (∀ mac vid mask, readyNet [] (.netFdb h 0 mac vid mask) s = true → exec (.netFdb h 0 mac vid mask) s =
      .next (match s.fdbPlace mac vid with
        | some i => (s.setFdb i { valid := true, static := true, mac := mac, vid := vid, mask := mask, since := s.cyc }).ok h i
        | none => s.fail h .badState 0x10)) ∧
    (∀ mac vid mask, readyNet [] (.netFdb h 1 mac vid mask) s = true → exec (.netFdb h 1 mac vid mask) s =
      .next (match s.fdbFind mac vid with
        | some i => (s.setFdb i {}).ok h i
        | none => s.ok h)) ∧
    (∀ mac vid mask, readyNet [] (.netFdb h 2 mac vid mask) s = true → exec (.netFdb h 2 mac vid mask) s =
      .next (({ s with net := { s.net with fdb := s.net.fdb.filter fun (e : Nat × Fdb) => e.2.static } } : State).ok h)) ∧
    (∀ addr len table port base r s1, s.descIn h addr len = some (r, s1) → s.mpUp = true → readyNet r (.netTsn h addr len table port base) s1 = true →
      exec (.netTsn h addr len table port base) s = .next ((s1.tsnApply table port base r).ok h)) ∧
    (∀ port op an dir locket sci ssci pn, readyNet [] (.netMacsec h port op an dir locket sci ssci pn) s = true →
      exec (.netMacsec h port op an dir locket sci ssci pn) s =
      .next (if op = 0 then (if s.codeOk locket then ((s.checkSlot locket).saInstall port an dir locket sci ssci pn).ok h else s.fail h .badState 0x11)
             else if op = 2 then (s.saOn port an dir).ok h
             else (s.saOff port an dir (op == 1)).ok h)) ∧
    (∀ addr len r s1, s.descIn h addr len = some (r, s1) → s.mpUp = true → readyNet r (.netGptp h addr len) s1 = true → exec (.netGptp h addr len) s =
      let s2 : State := { s1 with clk := { s1.clk with gptp := r } }
      .next ((if bit (byteAt r 1) 0 then s2 else s2.goDisc .free).ok h))

/-- 10 R247, R264; 11 R276 to R288: what a port receives and sends, its gates, and the timers of the address table and of the recovery
streams. -/
def Obligations.PortTrafficEventsComplete : Prop :=
  ∀ (s : State) (p : Nat),
    (readyFabric (.transmitStart p) s = true → exec (.transmitStart p) s =
      let s0 := s.credits p
      let s1 := (List.range 8).foldl (fun s c => s.dropHeads p c (look (fun _ => []) (s.port p).ready c).length) s0
      let x := s1.port p
      .next (if x.tx.isSome then s1.fragmentEnd p
             else match s1.pickClass p x.pre.isSome with
               | some c => (match look (fun _ => []) x.ready c with
                 | [] => s1
                 | f :: rest => (s1.setPort p { x with ready := put x.ready c rest }).startTx p c f false false)
               | none => (match x.pre with
                 | some t => if bit x.gates t.cls then s1.setPort p { x with tx := some { t with at_ := s1.cyc }, pre := none } else s1
                 | none => s1))) ∧
    (∀ dma buf x, readyFabric (.transmitEnd p dma buf) s = true → (s.port p).tx = some x → exec (.transmitEnd p dma buf) s =
      let s1 := s.credits p
      let f := s1.frameOf x.frame
      let int := decide (16 ≤ p ∧ p ≤ 18)
      let out := (if int then f.header p else []) ++ (if x.stomp then invertFcs x.bytes else x.bytes).drop x.sent
      let s2 := if x.express then s1 else s1.freeStore p x.cls x.frame
      let s3 := (s2.dropRef x.frame).setPort p { s2.port p with tx := none, last := out }
      let s4 := if int then s3.deliverFrame dma buf (s3.owner 7 f.vid) out else s3
      let s5 := if isT1s p then s4.segEvent (p + 6) else s4
      .next (if x.stomp then { s5 with fab := { s5.fab with stomp := satAdd 32 s5.fab.stomp 1 } } else s5.portCnt p 1)) ∧
    (readyFabric (.gateEntryChange p) s = true → exec (.gateEntryChange p) s = .next ((s.credits p).setGates p)) ∧
    (∀ g, readyFabric (.gateListSwitch p) s = true → (s.port p).gclNew = some g → exec (.gateListSwitch p) s =
      .next (((s.credits p).setPort p { (s.credits p).port p with gcl := g, gclNew := none }).setGates p)) ∧
    (∀ good, readyFabric (.preemptionVerification p good) s = true → exec (.preemptionVerification p good) s =
      .next ((s.setPort p { s.port p with pver := good }).fragmentEnd p)) ∧
    (∀ i, readyFabric (.cbRecoveryReset i) s = true → exec (.cbRecoveryReset i) s = .next (s.setCb i { s.cb i with rcv := none, hist := [] })) ∧
    (∀ i, readyFabric (.fdbAgeout i) s = true → exec (.fdbAgeout i) s = .next (s.setFdb i {})) ∧
    (∀ data good ago dma frags, p < 19 → readyFabric (.frameIngress p data good ago dma frags) s = true →
      exec (.frameIngress p data good ago dma frags) s =
      let s1 := if p ≤ 5 then (List.range frags).foldl (fun s _ => s.portCnt p 11) s else s
      let s2 := if isT1s p then s1.segEvent (p + 6) else s1
      .next ((if good && s1.isPennantEth p data then s1.portCnt p 0
              else match s2.macsecRx p data with
                | (none, s3) => s3
                | (some l, s3) => s3.classify p l good (s3.now - ago * 5 / 2) (if 16 ≤ p then some (s.owner 1 dma) else none)).sendDue)) ∧
    (∀ data good ago dma frags o b rest, readyFabric (.frameIngress 19 data good ago dma frags) s = true → s.brg.eth = (o, b) :: rest →
      exec (.frameIngress 19 data good ago dma frags) s =
      let s1 : State := { s with brg := { s.brg with eth := rest } }
      .next ((s1.classify 19 (b ++ toLE 4 (crc32 b)) true (s1.now - ago * 5 / 2) (some o)).sendDue))

/-- 10 R244 to R261: the slots of the switch fabric, the gap of a resequencer lane, the leak audit, and the steps of the fabric's
initialisation. An input writes one cell in a slot into bank (i + slot) mod 20, and takes that bank's first free cell. -/
def Obligations.FabricEventsComplete : Prop :=
  ∀ (s : State) (i k ecc : Nat),
    (readyFabric (.cellWrite i ecc) s = true → (s.bank ((i + s.fab.slot) % 20)).free = some [] → exec (.cellWrite i ecc) s =
      .next { s with fab := { s.fab with wSlot := put s.fab.wSlot i (s.fab.slot + 1), bankSkip := satAdd 32 s.fab.bankSkip 1 } }) ∧
    (∀ cp rest c free, readyFabric (.cellWrite i ecc) s = true → look (fun _ => []) s.fab.inq i = cp :: rest → ecc = 0 →
      (s.bank ((i + s.fab.slot) % 20)).free.getD (List.range 1024) = c :: free →
      ∃ t cell, exec (.cellWrite i ecc) s = .next t ∧ look? t.fab.cells ((i + s.fab.slot) % 20 * 1024 + c) = some cell ∧
        cell.frame = cp.frame ∧ cell.j = cp.j ∧ cell.inp = i ∧ cell.rd = s.fab.slot + 2 ∧
        (t.bank ((i + s.fab.slot) % 20)).free = some free ∧ look (fun _ => 0) t.fab.wSlot i = s.fab.slot + 1 ∧ t.mem = s.mem) ∧
    (readyFabric (.cellRead k ecc) s = true →
      let o := (k + s.fab.slot) % 20
      let can := s.canSend o
      let head := fun c => (look (fun _ => []) (s.bank k).q (qIdx o c)).head?.filter fun idx =>
        decide ((look (fun _ => ({} : Cell)) s.fab.cells (k * 1024 + idx)).rd ≤ s.fab.slot)
      let pick := ([7, 6, 5, 4, 3, 2, 1, 0] : List Nat).find? fun c => (head c).isSome && (!can || s.storeRoom o c)
      (pick = none → exec (.cellRead k ecc) s = .next s) ∧
      (∀ c idx, pick = some c → head c = some idx → exec (.cellRead k ecc) s =
        let cell := look (fun _ => ({} : Cell)) s.fab.cells (k * 1024 + idx)
        let s1 := s.setBank k { s.bank k with q := put (s.bank k).q (qIdx o c) ((look (fun _ => []) (s.bank k).q (qIdx o c)).drop 1),
                                              pr := (s.bank k).pr ++ [(idx, s.fab.slot + 2)] }
        let s2 : State := { s1 with fab := { s1.fab with rSlot := put s1.fab.rSlot k (s.fab.slot + 1), cells := del s1.fab.cells (k * 1024 + idx),
                                                         qcnt := put s1.fab.qcnt (qIdx o c) (s1.qcnt o c - 1) } }
        .next ((s2.resequence o { cell with disc := !can, err := cell.err || ecc == 2 }).cellEcc k ecc))) ∧
    (∀ o c hd rest, readyFabric (.rsqGap o i c) s = true → (s.lane (laneIdx o i c)).held = hd :: rest → exec (.rsqGap o i c) s =
      let n := laneIdx o i c
      let l := s.lane n
      let dist := fun (q : Nat) => (q + 4096 - l.exp % 4096) % 4096
      let m := rest.foldl (fun (m : Nat) x => if dist x.1 < dist m then x.1 else m) hd.1
      let s1 := s.freeCells o c l.cur.length
      let s2 := (s1.setLane n { l with exp := m, cur := [], skip := false, timer := 0, waitDt := s1.now }).releaseRun o i c l.held.length
      let s3 := if (s2.lane n).held.isEmpty then s2.setLane n { s2.lane n with waitDt := 0 } else s2
      .next (({ s3 with fab := { s3.fab with gaps := bump 32 s3.fab.gaps o } } : State).raise 0x43 (o + 256 * i + 8192 * c))) ∧
    (readyFabric .leakAudit s = true → exec .leakAudit s =
      .next (({ s with fab := { s.fab with auditCyc := s.cyc, auditK := 1, pass := !s.fab.pass } } : State).auditBank 0)) ∧
    (readyFabric .fabricInitStart s = true → exec .fabricInitStart s =
      .next { s with flt := { s.flt with initReq := false }
                     fab := { s.fab with init := 1, initAt := s.cyc, reinit := satAdd 16 s.fab.reinit 1, auditK := 0 } }) ∧
    (readyFabric .fabricInitDiscard s = true → ∃ t, exec .fabricInitDiscard s = .next t ∧ t.fab.init = 2 ∧ t.fab.initAt = s.cyc ∧
      t.fab.inq = [] ∧ t.fab.cells = [] ∧ t.fab.store = [] ∧
      t.fab.reinitCells = satAdd 32 s.fab.reinitCells (s.banks (fun b => b.nQueued + b.pw.length) + (s.fab.store.map fun (q : Nat × Nat) => q.2).sum) ∧
      (∀ n, n < 20 → (t.port n).ready = [] ∧ (∀ x, (t.port n).tx = some x → x.express = true)) ∧ t.mem = s.mem) ∧
    (readyFabric .fabricInitRebuild s = true → exec .fabricInitRebuild s =
      .next { s with fab := { s.fab with init := 3, initAt := s.cyc, slot := 0, phase := 0, bank := [], cells := [], qcnt := [], lane := [], store := [],
                                         wSlot := [], rSlot := [], pass := false } }) ∧
    (readyFabric .fabricInitEnd s = true → exec .fabricInitEnd s = .next { s with fab := { s.fab with init := 0 } })

/-- 05 R124; 15 R367, R368, R375: KEORE.LOAD, START and STOP, the end of a start, and the release of a task on its grid. What a load
finds of the stage's signature and digest, and whether a bank's copy matches its digest, no operand shows: both outcomes stand here. -/
def Obligations.KeoreEngineCommandsComplete : Prop :=
  ∀ (s : State) (h : Hdr),
    (∀ addr len r s1, s.descIn h addr len = some (r, s1) → s.mpUp = true → readyKeore r (.keoreLoad h addr len) s1 = true →
      exec (.keoreLoad h addr len) s = .next (match s1.stageFails r (stPayload r) 3 0x100000 with
        | some n => s1.fail h .badParam (0x13 + n)
        | none => if s1.imageOk (stPayload r) then s1.requestOp h 3 300 (.keoreLoad h addr len) (r.take (hdrLen + stLen r)) else s1.fail h .badParam 0x1C)) ∧
    (∀ mode, readyKeore [] (.keoreStart h mode) s = true → exec (.keoreStart h mode) s =
      .next (if s.copyMatches s.keo.bank then
          (({ s with keo := { s.keo with st := 1, run := s.bankCopy s.keo.bank, startH := some h, startWarm := mode == 0 } } : State).waits h)
        else ({ s with keo := { s.keo with st := 0 } } : State).fail h .badState 0x17)) ∧
    (readyKeore [] (.keoreStop h) s = true → exec (.keoreStop h) s =
      .next (if s.keo.st = 1 then ({ s with keo := { s.keo with stopH := s.keo.stopH ++ [h] } } : State).waits h
             else if s.keo.x.st = 3 then
               ({ s with keo := { s.keo with x := { s.keo.x with later := s.keo.x.later ++ [Instr.keoreStop h] } } } : State).waits h
             else s.kStop.ok h)) ∧
    (readyKeore [] .keoreStartComplete s = true → exec .keoreStartComplete s = .next s.startDone) ∧
    (∀ k, readyKeore [] (.keoreTaskRelease k) s = true → exec (.keoreTaskRelease k) s =
      .next ((s.setKtask k { s.ktask k with relNext := (s.ktask k).after (s.ktask k).relNext }).kArrive k (s.ktask k).relNext))

/-- 05 R124; 16 R402, R403, R408 to R416: the retain passes, forcing, and the exchange of the running image. A pass that ends well hands the
record over and a failed one is retried; a forced variable keeps its value until it is released; the swap waits until every task has
ended. -/
def Obligations.KeoreDataCommandsComplete : Prop :=
  ∀ (s : State) (h : Hdr),
    (readyKeore [] .retainPassStart s = true → exec .retainPassStart s = .next s.passStart) ∧
    (∀ c, readyKeore [] (.retainPassEnd true) s = true → s.keo.pass = some c → exec (.retainPassEnd true) s =
      let s1 := s.passWrite c
      .next { s1 with keo := { s1.keo with pass := none, cimg := s1.keo.pimg, ccmd := s1.keo.pcmd, passCnt := satAdd 32 s1.keo.passCnt 1, retry := none } }) ∧
    (∀ c, readyKeore [] (.retainPassEnd false) s = true → s.keo.pass = some c → exec (.retainPassEnd false) s =
      .next (({ s with keo := { s.keo with pass := none, cimg := s.keo.pimg, ccmd := s.keo.pcmd, handed := true, retry := some c } } : State).raise 0x62 c)) ∧
    (∀ vartag typ value v, readyKeore [] (.keoreForce h vartag typ value) s = true → s.keo.x.st ≠ 3 → imgVar s.keo.run vartag = some v →
      exec (.keoreForce h vartag typ value) s = .next ((s.setForce vartag typ value v).ok h)) ∧
    (∀ vartag typ value, readyKeore [] (.keoreForce h vartag typ value) s = true → s.keo.x.st = 3 → exec (.keoreForce h vartag typ value) s =
      .next (({ s with keo := { s.keo with x := { s.keo.x with later := s.keo.x.later ++ [Instr.keoreForce h vartag typ value] } } } : State).waits h)) ∧
    (∀ vartag, readyKeore [] (.keoreUnforce h vartag) s = true → s.keo.x.st = 3 → exec (.keoreUnforce h vartag) s =
      .next (({ s with keo := { s.keo with x := { s.keo.x with later := s.keo.x.later ++ [Instr.keoreUnforce h vartag] } } } : State).waits h)) ∧
    (∀ vartag i, readyKeore [] (.keoreUnforce h vartag) s = true → s.keo.x.st ≠ 3 → vartag ≠ 0xFFFFFFFF → s.forceSlot vartag = some i →
      exec (.keoreUnforce h vartag) s =
      .next (({ s with keo := { s.keo with force := del s.keo.force i } } : State).ok h (look (fun _ => ({} : Force)) s.keo.force i).discard)) ∧
    (readyKeore [] (.keoreUnforce h 0xFFFFFFFF) s = true → s.keo.x.st ≠ 3 → exec (.keoreUnforce h 0xFFFFFFFF) s =
      .next (({ s with keo := { s.keo with force := [] } } : State).ok h (s.keo.force.foldl (fun n (q : Nat × Force) => n + q.2.discard) 0))) ∧
    (∀ out outLen deadline, readyKeore [] (.keoreExchange h out outLen deadline) s = true → exec (.keoreExchange h out outLen deadline) s =
      let x : Xchg := { s.keo.x with st := 1, h := h, out := out, dead := msCyc deadline, since := s.cyc,
                                     rel := [], held := [], later := [], shadow := [], force := [] }
      .next (({ s with keo := { s.keo with x := x } } : State).waits h)) ∧
    (readyKeore [] .exchangePrepared s = true → exec .exchangePrepared s =
      .next (if s.copyMatches (1 - s.keo.bank) then { s with keo := { s.keo with x := { s.keo.x with st := 2 } } }
             else s.endXchg.fail s.keo.x.h .badState 0x17)) ∧
    (readyKeore [] .exchangeTimeout s = true → exec .exchangeTimeout s = .next (s.endXchg.fail s.keo.x.h .timeout 0x10)) ∧
    (readyKeore [] .exchangeCommit s = true → ∃ t, exec .exchangeCommit s = .next t ∧
      t.keo.x.st = 3 ∧ t.keo.x.since = s.cyc ∧ t.keo.x.time = s.now ∧ t.keo.run = s.keo.run ∧ t.keo.force = s.keo.force ∧
      t.keo.x.force.length + t.keo.x.rel.length = s.keo.force.length ∧ t.keo.task = s.keo.task ∧ t.mem = s.mem ∧ t.lch = s.lch) ∧
    (readyKeore [] .exchangeSwapEnd s = true → exec .exchangeSwapEnd s =
      let x := s.keo.x
      let b := 1 - s.keo.bank
      let q := (s.bankImg b).getD []
      let s1 := (((s.activate b q).iwrite 0 x.shadow).extend 3 (stMeasure (s.bankHdr b))).recapture
      let s2 : State := { s1 with keo := { s1.keo with force := x.force, buf := [], sig := [], wref := 0, pass := none, cimg := s1.retainedNow q,
                                                       ccmd := keepCmds q s.handImg.2 } }
      let s3 := s2.freshTasks fun t => t.after s2.now
      let kept := s3.keo.task.map fun (e : Nat × KTask) => (e.1, e.2.keepRegs (look (fun _ => {}) s2.keo.task e.1))
      let s4 := (({ s3 with keo := { s3.keo with task := kept } } : State).recordEpochs).passStart.writeOut x.out (x.rel.map relEntry).flatten
      let n := x.rel.length
      let s5 : State := { s4 with keo := { s4.keo with x := { x with st := 0, relN := n, cnt := satAdd 32 x.cnt 1, held := [], later := [],
                                                                     shadow := [], force := [] } } }
      let s6 := x.later.foldl (fun s i => s.doLater i) (s5.replyAt x.h .ok 0 (16 * n + n * 2 ^ 32 + x.inits % 65536 * 2 ^ 48) x.time true)
      .next (x.held.foldl (fun s (e : HeldRel) => if s.keo.st = 2 then s.kRelease e.task e.relT e.caps else s) s6).settle)

/-- 03 R57 to R62; 05 R118; 21 R525: the resets. A power-on reset leaves every rail off; each C-die reset keeps what R60 lists and its cause. -/
def Obligations.ResetsComplete : Prop :=
  ∀ (s : State) (h : Hdr),
    (readySystem [] .powerOnReset s = true → ∃ t, exec .powerOnReset s = .next t ∧ t.sys.pwr = .off ∧ t.sys.boot = 0 ∧ t.sys.nextFull = true ∧
      t.lch = {} ∧ t.iso = {} ∧ t.wake = {} ∧ t.inp = {} ∧ t.clk.aoCyc = 0 ∧ t.flt.latch = false ∧
      ((s.hal.ops.all fun o => !o.running) = true → t.mem = s.mem.filter fun (c : Host.Cell) => keptAddr c.1)) ∧
    (readySystem [] .vbatRise s = true → exec .vbatRise s = .next { s with sys := { s.sys with pwr := .starting } }) ∧
    (∀ edges, readySystem [] (.railsValid edges) s = true → exec (.railsValid edges) s =
      .next { s with sys := { s.sys with pwr := .valid, boot := 1, clkSrc := if 64 ≤ edges then .clkin else .xtal }
                     flt := { s.flt with active := s.flt.active.filter (· != (0x02, 0)) } }) ∧
    (readySystem [] .porstNAssert s = true → exec .porstNAssert s =
      .next (if s.sys.pwr = .aoOnly then { s.fullReset 2 with sys := { (s.fullReset 2).sys with pwr := .starting, boot := 0 } } else s.fullReset 2)) ∧
    (readySystem [] .resetNExternal s = true → exec .resetNExternal s = .next (s.cdieReset 3)) ∧
    (readySystem [] .faultResetDemand s = true → exec .faultResetDemand s = .next (s.cdieReset 5)) ∧
    (∀ scope, readySystem [] (.sysReset h scope) s = true → exec (.sysReset h scope) s =
      let u := if scope = 4 then 3 else scope - 1
      let s1 := if scope = 4 then s.resetCluster else s.resetPair u
      .next (if scope = 0 then s.cdieReset 4
             else if (if scope = 4 then s.sys.appHeld else s1.sys.rtHeld.contains u) then
               ({ s1 with sys := { s1.sys with rstWait := s1.sys.rstWait ++ [(u, h)] } } : State).waits h
             else s1.ok h))

/-- 03 R64 to R74; 16 R407: the boot instants t2 to t8. -/
def Obligations.BootInstantsComplete : Prop :=
  ∀ (s : State),
    (readySystem [] .bootStart s = true → ∃ t, exec .bootStart s = .next t ∧ t.sys.boot = 2 ∧ t.sys.cause = s.sys.nextCause ∧
      t.sys.full = s.sys.nextFull ∧ t.wake.causeMod = s.wake.modLatch ∧ t.flt.initReq = true ∧ t.flt.safeReq = s.flt.latch ∧ t.mem = s.mem) ∧
    (readySystem [] .bootFusesRead s = true → ∃ t, exec .bootFusesRead s = .next t ∧ t.sys.boot = 3 ∧ t.sys.lcCur = s.lcFused ∧
      t.sys.startId = nextStart (le (memRead s.mem 0x22380004 4) 0 4) ∧ t.dbg.inv = (if s.lcFused = 0 then 0xFFFF else 0) ∧ t.dbg.ni = t.dbg.inv ∧
      t.mem = memPutAll s.mem 0x22380004 (toLE 4 t.sys.startId)) ∧
    (readySystem [] .bootPatchApply s = true → exec .bootPatchApply s =
      let u := match s.tryCopies 1 with
        | (some (k, r), s1) =>
          let s2 : State := { s1.measured 1 (k - 1) r with sys := { (s1.measured 1 (k - 1) r).sys with patch := k } }
          if k = 1 + s.preferred 1 then s2 else s2.raise 0x10 0
        | (none, s1) => ({ s1 with sys := { s1.sys with patch := 3 } } : State).raise 0x11 0
      .next ({ u with sys := { u.sys with boot := 4 } } : State).askDdr) ∧
    (∀ tab items, readySystem [] (.bootBcrApply tab items) s = true → exec (.bootBcrApply tab items) s =
      let u := match (s.scanSlots.applyTable tab).tryCopies 2 with
        | (some (k, r), s1) =>
          let s2 : State := { s1.measured 2 (k - 1) r with sys := { (s1.measured 2 (k - 1) r).sys with bcr := k } }
          let s3 := items.foldl (fun (s : State) (i : BcrItem) => s.bcrItem i) s2
          let stay := (items.filter fun (i : BcrItem) => i.kind == 7).map fun (i : BcrItem) => i.unit
          ((List.range 8).filter fun g => !stay.contains g && (s3.seg g).xst != 0).foldl (fun (s : State) (g : Nat) => s.normal g) s3
        | (none, s1) => ({ s1 with sys := { s1.sys with bcr := 3 } } : State).raise 0x12 0
      let w := u.wakeLatched (if u.sys.bcr = 3 then 8 else 0)
      .next (({ w with sys := { w.sys with boot := 5 } } : State).syncWake.settle)) ∧
    (readySystem [] .bootKeorePrepare s = true → exec .bootKeorePrepare s =
      let b := s.keo.bank
      .next (match s.tryTwo 3 (bankAddr b) (bankAddr (1 - b)) 0x100000 s.imageOk with
        | (none, s1) => (({ s1 with sys := { s1.sys with boot := 6, keoreB := 3 } } : State).raise 0x14 0).holdUnstarted.settle
        | (some (i, r), s1) =>
          let k := if i = 0 then b else 1 - b
          let p := stPayload r
          let s2 := ({ s1 with sys := { s1.sys with boot := 6 } } : State).measured 3 k r
          let s3 := ({ s2 with keo := { s2.keo with img := put s2.keo.img k p, hdr := put s2.keo.hdr k (r.take hdrLen) } } : State).activate k p
          let warm := i == 0 && (s3.warmCopy p).isSome
          let s4 : State := { s3 with sys := { s3.sys with keoreB := 1 + k, warm := warm }, keo := { s3.keo with st := 1, startH := none, startWarm := warm } }
          let s5 := if i = 0 then s4 else s4.raise 0x13 b
          match warm, s5.newest.filter fun c => byteAt (s5.commitRec c) 5 == payloadTag (some p) with
          | false, some c => s5.raise 0x62 c
          | _, _ => s5)) ∧
    (readySystem [] .bootFirstRelease s = true → exec .bootFirstRelease s =
      let s1 : State := { s with sys := { s.sys with boot := 7 } }
      let s2 := if s.keo.st = 1 ∧ s.keo.startH.isNone then s1.startDone else s1
      .next ((s2.leadsOf fun _ => true).foldl (fun s n => s.releaseOrphan n) s2).settle) ∧
    (∀ at0 at1, readySystem [] (.bootLateStages at0 at1) s = true → exec (.bootLateStages at0 at1) s =
      let o := fun (l : List Nat) (i : Nat) => (l[i]?).getD 0
      let s1 : State := { s with sys := { s.sys with boot := 8, ddrOk := true } }
      let s2 := s1.freeHandle s1.sys.ddrH
      let s3 : State := { s2 with sys := { s2.sys with ddrH := noHandle } }
      let p0 := s3.lateRt 0 (o at0 0) (o at1 0)
      let p1 := p0.2.lateRt 1 (o at0 1) (o at1 1)
      let p2 := p1.2.lateRt 2 (o at0 2) (o at1 2)
      let p3 := p2.2.lateApp (o at0 3) (o at1 3)
      let x := p3.2.sys
      .next (({ p3.2 with sys := { x with rtsec := p0.1, rtx := if p1.1 = 3 ∨ p2.1 = 3 then 3 else Nat.max p1.1 p2.1, appl := p3.1 } } : State).settle))

/-- 05 R118; 01 R27, R28; 03 R74 to R79: SYS.PROFILE, LIFECYCLE, FUSE and UPDATE. Where a signature decides, both outcomes stand here. -/
def Obligations.SystemCommandsComplete : Prop :=
  ∀ (s : State) (h : Hdr),
    (∀ profile, readySystem [] (.sysProfile h profile) s = true → exec (.sysProfile h profile) s =
      let s1 : State := { s with sys := { s.sys with profBusy := true, profTarget := profile, profCmd := some h } }
      .next (if profile = s.sys.prof then s.ok h s.sys.prof
             else if profile = 1 then (s1.accepted h 0x01).inflightState h 4
             else s1.requestOp h 8 3600 (.sysProfile h profile) [])) ∧
    (∀ h1 o, readySystem [] .profileTransitionEnd s = true → s.sys.profCmd = some h1 → (s.sys.profTarget ≠ 1 → s.opOf h1 = some o) →
      exec .profileTransitionEnd s = .next (s.profileDone h1 (if s.sys.profTarget = 1 then noHandle else o.handle))) ∧
    (∀ addr len target r s1 n0 n1, s.descIn h addr len = some (r, s1) → s.mpUp = true → readySystem r (.sysLifecycle h addr len target) s1 = true →
      lcTokens s1.sys.lcCur target = some (n0, n1) → exec (.sysLifecycle h addr len target) s =
      let l := tokensOf (n0 + n1) r
      .next (match s1.tokensFail l n0 with
        | some n => s1.fail h .badParam (0x13 + n)
        | none => if !l.all (s1.tokenFor target) ∨ s1.sys.lcCur = 1 ∧ target = 3 ∧ s1.sys.keyHash.isEmpty then s1.fail h .badParam 0x1C
                  else s1.requestOp h 4 400 (.sysLifecycle h addr len target) [])) ∧
    (∀ op key svn hash, readySystem [] (.sysFuse h op key svn hash) s = true → exec (.sysFuse h op key svn hash) s =
      .next (if op = 3 ∧ svn ≤ look (fun _ => 0) s.sys.svn key then s.ok h else s.requestOp h 4 400 (.sysFuse h op key svn hash) [])) ∧
    (∀ addr len prefer r s1, s.descIn h addr len = some (r, s1) → s.mpUp = true → readySystem r (.sysUpdate h addr len prefer) s1 = true →
      exec (.sysUpdate h addr len prefer) s =
      let typ := if stType r = 2 then 2 else 1
      .next (match (s1.stageFails r (stPayload r) typ (copyArea typ)).filter fun n => n != 8 with
        | some n => s1.fail h .badParam (0x13 + n)
        | none => s1.requestOp h 3 300 (.sysUpdate h addr len prefer) (r.take (hdrLen + stLen r))))

/-- 13 R337 to R339, R346; 17 R430: WAKE.MODULE and the sleep of the module. A latched wake before the rails switch off ends the command with
BAD_STATE and wakes the segments. -/
def Obligations.ModuleSleepComplete : Prop :=
  ∀ (s : State) (h : Hdr),
    (readySystem [] (.wakeModule h) s = true → exec (.wakeModule h) s =
      let s1 := if s.wake.phase = 0 then s.sleepT0 else s
      .next (if s1.wake.phase = 2 then s1.ok h
             else (({ s1 with wake := { s1.wake with phase := 1, h := s1.wake.h ++ [h], at_ := if s1.wake.phase = 0 then s1.cyc else s1.wake.at_ } } : State).inflightState h 4).syncWake)) ∧
    (readySystem [] .moduleSleepLatchCheck s = true → exec .moduleSleepLatchCheck s =
      let s1 : State := { s with wake := { s.wake with phase := 0, h := [] } }
      let s2 := s.wake.h.foldl (fun s h => s.ok h) s1
      .next (if s.anyLatch then ((s.wake.h.foldl (fun s h => s.fail h .badState 0x11) s1).wakeLatched).syncWake.settle
             else { s2 with wake := { s2.wake with phase := 2 } })) ∧
    (readySystem [] .moduleSleepPowerOff s = true → ∃ t, exec .moduleSleepPowerOff s = .next t ∧ t.sys.boot = 0 ∧ t.lch = {} ∧ t.iso = {} ∧
      (t.sys.pwr = .aoOnly ∧ t.wake.phase = 3 ∧ t.wake.inhOff = true ∨ t.sys.pwr = .starting ∧ t.wake.phase = 0 ∧ t.sys.nextCause = 6)) ∧
    (∀ src t n, readySystem [] (.wakeDetect src t n) s = true →
      exec (.wakeDetect src t n) s = .next (if s.isWake src t n = some true then s.wokenBy src
        else if bit (s.draw).1 0 then (s.draw).2.wokenBy src else (s.draw).2)) ∧
    (∀ g, g < 22 → s.asleep g = true →
      let s1 := s.setSeg g { s.seg g with latch := true }
      s.wokenBy g = if s1.servesWakes then s1.segWake g else s1.sleepEnds) ∧
    (∀ w, w < 4 → s.wokenBy (22 + w) = (s.latchMod w).sleepEnds) ∧
    (∀ w, w < 8 → (s.wake.phase = 3 → bit (byteAt s.wake.rcd 4) w = true) →
      s.wokenBy (26 + w) = if s.wake.phase = 3 then (s.latchMod (4 + w)).sleepEnds
        else if s.servesWakes then s.tc10Wake (2 + w)
        else if (s.phy (2 + w)).asleep then (s.setPhy (2 + w) { s.phy (2 + w) with asleep := false }).latchMod (4 + w) else s) ∧
    (readySystem [] .sleepTimer s = true → exec .sleepTimer s = .next (s.latchMod 13).sleepEnds) ∧
    (∀ mask, readySystem [] (.sleepWettingPulse mask) s = true → exec (.sleepWettingPulse mask) s =
      let s1 : State := { s with wake := { s.wake with pulseAt := s.wake.pulseAt + msCyc 10 } }
      .next (((List.range 48).filter fun n => (s1.sw n).armed).foldl (fun (s : State) (n : Nat) =>
        let x := s.sw n
        let s := s.setSw n { x with diff := if bit mask n != x.ref then x.diff + 1 else 0 }
        if bit mask n != x.ref ∧ 1 ≤ x.diff then ({ s with inp := { s.inp with wakeSw := s.inp.wakeSw ++ [n] } } : State).latchMod 12 else s) s1).sleepEnds)

/-- 04 R94, R98, R102; 06 R150 to R154: the turn of a ring, the start of a firmware command, the end of a long-running operation, and the
action of a scheduler entry at its unit. -/
def Obligations.CommandTransportComplete : Prop :=
  ∀ (s : State) (n ctag : Nat),
    (readySystem [] (.commandFetch n) s = true → exec (.commandFetch n) s = .next (s.turn n)) ∧
    (∀ k c e, readySystem [] .mpCommandStart s = true → s.mpNext = some k → (s.hal.mpq.find? fun (q : Nat × Nat) => q.1 == k) = some (k, c) →
      s.inflightOf k c = some e → exec .mpCommandStart s =
      let s1 : State := { s with hal := { s.hal with mpq := dropFirst (· == (k, c)) s.hal.mpq, mpZero := k != 0, mpRr := if k = 0 then s.hal.mpRr else k } }
      let s2 := s1.inflightState (pktHdr k e.pkt) 4
      .next (match pktRow e.pkt with
        | some row => (row.run (pktHdr k e.pkt) (pktParam e.pkt) s2).orElse s2
        | none => s2)) ∧
    (∀ good o s1, readySystem [] (.longRunningOperationEnd n ctag good) s = true → s.opOf { ring := n, ctag := ctag } = some o →
      ((s.freeHandle o.handle).dropOp o.h).opEnds o good = some s1 → exec (.longRunningOperationEnd n ctag good) s = .next s1.settle) ∧
    (∀ smp d, readySystem [] (.schedActionApply n smp) s = true → (s.sch.disp.find? fun d => d.ent == n && d.due s.now) = some d →
      exec (.schedActionApply n smp) s =
      let a := (s.sent n).action
      let p := (s.dropDisp n).otherAction n d smp
      .next (if d.ok ≠ 0 then (s.dropDisp n).firingEnds n d.ok
             else if 1 ≤ a ∧ a ≤ 3 then (s.chanAction n d).settle
             else p.2.firingEnds n (if p.1 then (if d.late then 2 else 1) else 5)))

/-- 01 R31; 18 R450 to R454, R466 to R471; 05 R132: accesses and tags, and debug. A tag written in machine mode takes effect at the next
return. -/
def Obligations.AccessAndDebugComplete : Prop :=
  ∀ (s : State) (h : Hdr) (tag : Nat),
    (∀ ini kind addr n data more, readySystem [] (.memoryAccess ini kind addr n data more) s = true → s.iniTag ini = some tag →
      exec (.memoryAccess ini kind addr n data more) s =
      let p := s.access ini tag kind addr n data
      .next (if isDma ini then { p.2 with ten := { p.2.ten with dma := put p.2.ten.dma (ini - 0x30) { en := p.1 && more, err := !p.1 } } } else p.2)) ∧
    (∀ ini addr value, readySystem [] (.registerWriteOther ini tag addr value) s = true → exec (.registerWriteOther ini tag addr value) s =
      .next (s.regWrite ini tag (addr / 4 * 4) (value % 2 ^ 32))) ∧
    (∀ core value, readySystem [] (.mtagWrite core value) s = true → exec (.mtagWrite core value) s =
      .next { s with ten := { s.ten with mtag := put s.ten.mtag core (value % 16) } }) ∧
    (∀ core, readySystem [] (.machineModeEntry core) s = true → exec (.machineModeEntry core) s =
      .next (({ s with ten := { s.ten with low := s.ten.low.filter (· != core) } } : State).traceGaps s)) ∧
    (∀ core, readySystem [] (.machineModeReturn core) s = true → exec (.machineModeReturn core) s =
      .next (({ s with ten := { s.ten with low := s.ten.low ++ [core], mtagNow := put s.ten.mtagNow core (look (fun _ => 0) s.ten.mtag core) } } : State).traceGaps s)) ∧
    (∀ en, readySystem [] (.debugEnable h tag en) s = true → exec (.debugEnable h tag en) s =
      let inv := bit en 1
      let d := { s.dbg with ni := maskSet s.dbg.ni tag (bit en 0 || inv), inv := maskSet s.dbg.inv tag inv }
      let d1 := if inv then d else { d with halted := d.halted.filter (fun u => s.dbgUnitTag u != some tag), brk := d.brk.filter fun b => b.1 != tag }
      let s1 := ({ s with dbg := d1 } : State).traceGaps s
      .next (if d.ni = s.dbg.ni ∧ d.inv = s.dbg.inv then s.ok h else ((s1.extend 0 (toLE 4 s1.dbgen ++ toLE 8 s1.now ++ zeros 52)).recapture).ok h)) ∧
    (∀ src enable i, readySystem [] (.debugTrace h src enable) s = true → traceIndex src = some i → exec (.debugTrace h src enable) s =
      .next (({ s with dbg := { s.dbg with trace := maskSet s.dbg.trace i (enable == 1), gap := del s.dbg.gap i } } : State).ok h)) ∧
    (∀ i, readySystem [] (.traceSyncPacket i) s = true → exec (.traceSyncPacket i) s =
      .next { s with dbg := { s.dbg with out := BitVec.ofNat 8 (0x10 + i) :: toLE 8 s.now, syncAt := s.cyc } }) ∧
    (∀ op unit addr n data on, readySystem [] (.debugPortAccess tag op unit addr n data on) s = true →
      exec (.debugPortAccess tag op unit addr n data on) s =
      .next (if op = 6 then s.busOk (toLE 4 idcode)
             else if op = 5 then { s with dbg := { s.dbg with extest := on } }
             else if op ≤ 1 then (s.access 0x70 tag op addr n data).2
             else s.dbgUnit op tag unit addr on))

/-- 04 R95: a step with a command at the front of the queue is that command's `exec` on the machine with the queue's rest. The queue itself is
the model's form of the commands that wait (log 1). -/
def Obligations.StepRunsTheFrontCommand : Prop :=
  ∀ (s : State) (c : Instr) (rest : List Instr), s.pending = c :: rest → step s = exec c { s with pending := rest }

/-- 06 R135: with nothing waiting a step is one fabric cycle (the model's choice, log 1). Device time advances by 2.5 ns at RATE 0, and stands
still while the C-die is down; memory and the queue are as they were, and so are the channels and the rings unless a command that came in this
cycle for a channel or an isolated output waited for its end (01 R18; 17 R440). -/
def Obligations.EmptyQueuePassesOneCycle : Prop :=
  ∀ (s : State), s.pending = [] → ∃ t, step s = .next t ∧ t.clk.cyc = s.clk.cyc + 1 ∧
    (s.live = true → s.clk.rate = 0 → t.clk.dt = (s.clk.dt + 10737418240) % 2 ^ 96) ∧ (s.live = false → t.clk.dt = s.clk.dt) ∧
    t.mem = s.mem ∧ t.pending = [] ∧ (s.lch.wait = [] → s.iso.wr = [] → t.lch.chan = s.lch.chan ∧ t.hal = s.hal)

/-- The machine right after reset: nothing listed in memory, no command waiting, the rails starting and the C-die in reset, device time 0
(06 R135), rings 0 and 1 enabled and detached with quotas 48 and 8 (04 R82, R110), every channel OFF with epoch 0 (04 R104; 08 R188), no fault
logged, no Bezel range in force, and the engine stopped. That power has been applied and the rails start is the model's choice (log 2). -/
def Obligations.StateAfterReset : Prop :=
  let s := State.reset
  s.mem = [] ∧ s.pending = [] ∧ s.sys.pwr = .starting ∧ s.sys.boot = 0 ∧ s.live = false ∧ s.now = 0 ∧ s.hal.inflight = [] ∧
  (∀ n, (s.ring n).enabled = decide (n ≤ 1) ∧ (s.ring n).st = 0 ∧ (s.ring n).quota = 48 ∧ (s.ring n).fwQuota = 8 ∧ (s.ring n).cmdTail = 0) ∧
  (∀ n, (s.chan n).st = .off ∧ (s.chan n).epoch = 0 ∧ (s.chan n).out = false ∧ (s.chan n).act = .off) ∧
  (∀ k i, (s.owner k i) = 0 ∨ k = 0 ∨ 13 < k ∨ k = 1 ∨ k = 2 ∨ k = 12) ∧
  s.flt.log = [] ∧ s.flt.latch = false ∧ s.keo.st = 0 ∧ s.keo.run = [] ∧ (∀ a, s.bezels.any (fun b => b.covers a) = false)

/-- The invariant that every step keeps holds after reset. -/
def Obligations.ResetIsSound : Prop := State.reset.sound = true

/-- Every step, of whatever command or of an idle cycle, keeps memory in its canonical form: addresses strictly rising and no entry equal to
what an unlisted address reads as. So equal memories are equal data after every step. -/
def Obligations.EveryStepKeepsMemoryCanonical : Prop :=
  ∀ (s t : State), s.sound = true → step s = .next t → t.sound = true

/-- 15 R390, R391: words of the Keore engine written out from the encoding tables: LDB W1,PB:0.0; LD.TIME W2,GB:0; ADD W3,W1,W2 of INT;
LDI W0,10; SHL W5,W1,W3 of type 5; LDI W1,-1; JMP to the word itself; BFX W2,W1,0,8; TOF W1,IB:0; END; and words that are illegal: 0, an END with
a bit set, SETB in place of a type LD cannot have. -/
def Obligations.KeoreWordsDecode : Prop :=
  decodeWord 0x081C0000 = some (.kLdb 1 3 0 0) ∧ decodeWord 0x14240000 = some (.kLd 2 1 0 4) ∧
  decodeWord 0x40312001 = some (.kAdd 3 1 2 1) ∧ decodeWord 0x6000000A = some (.kLdi 0 10) ∧
  decodeWord 0x4D513005 = some (.kShl 5 1 3 5) ∧ decodeWord 0x601FFFFF = some (.kLdi 1 0xFFFFF) ∧
  decodeWord 0x700FFFFF = some (.kJmp 0xFFFFF) ∧ decodeWord 0x63210007 = some (.kBfx 2 1 0 7) ∧
  decodeWord 0x81100000 = some (.kTof 1 0 0) ∧ decodeWord 0x7F000000 = some .kEnd ∧
  decodeWord 0 = none ∧ decodeWord 0x7F000001 = none ∧ decodeWord 0x10000000 = none ∧ decodeWord 0x4410A003 = none

/-- 15 R390, R391: for every instruction of the Keore engine whose fields lie in their ranges, with every operand at every value the encoding
admits, the word that spells it decodes to it, and it fits 32 bits. A word that decodes is the word of what it decodes to. -/
def Obligations.KeoreWordsRoundTrip : Prop :=
  (∀ i, isKeore i = true → decodeWord (encodeWord i) = some i ∧ encodeWord i < 2 ^ 32) ∧
  (∀ w i, decodeWord w = some i → encodeWord i = w ∧ kLegal i = true)

/-- 15 R387, R391, R392: what a register instruction of the Keore engine leaves unchanged. A task that the engine goes on with (its budget not
passed, no task of a higher priority waiting) keeps every register but Wd, its base, its stack and its place among the tasks; every other
task, every byte of memory, the channels, the objects and device time are as they were, and the program counter is on the next word. -/
def Obligations.KeoreRegisterFrame : Prop :=
  ∀ (s : State) (k d a b t : Nat) (i : Instr),
    s.kRuns k i 1 = true → s.kBest = some k →
    (i = .kAdd d a b t ∨ i = .kSub d a b t ∨ i = .kMul d a b t ∨ i = .kNeg d a t ∨ i = .kAbs d a t ∨ i = .kAnd d a b t ∨ i = .kOr d a b t ∨
     i = .kXor d a b t ∨ i = .kNot d a t ∨ i = .kShl d a b t ∨ i = .kShr d a b t ∨ i = .kRol d a b t ∨ i = .kRor d a b t ∨ i = .kCeq d a b t ∨
     i = .kCne d a b t ∨ i = .kClt d a b t ∨ i = .kCle d a b t ∨ i = .kCgt d a b t ∨ i = .kCge d a b t ∨ i = .kMov d a t ∨ i = .kNow d ∨ i = .kNowr d) →
    ∃ u, exec i s = .next u ∧ (∀ n, n ≠ d → (u.ktask k).reg n = (s.ktask k).reg n) ∧ (u.ktask k).pc = (s.ktask k).pc + 1 ∧
      (u.ktask k).used = (s.ktask k).used + 1 ∧ (u.ktask k).ib = (s.ktask k).ib ∧ (u.ktask k).stack = (s.ktask k).stack ∧
      (∀ j, j ≠ k → u.ktask j = s.ktask j) ∧ (∀ x, u.byte x = s.byte x) ∧ u.lch = s.lch ∧ u.can = s.can ∧ u.flt = s.flt ∧ u.hal = s.hal ∧
      u.adm = s.adm ∧ u.pending = s.pending ∧ u.clk.dt = s.clk.dt

/-- 15 R388, R391; 16 R413: what a storing instruction of the Keore engine leaves unchanged. ST and STX write the bytes of their type at BASE
plus OFF, or to the indexed offset, the bit instructions the one byte of their bit; every other byte of memory reads as before, and so does
every register of the task. A forced variable keeps its bytes, so nothing is written there. -/
def Obligations.KeoreStoreFrame : Prop :=
  ∀ (s : State) (k d base off x byte n t : Nat) (u : State),
    s.kBest = some k → n < 8 →
    (∀ i, (i = .kStb d base byte n ∨ i = .kSetb d base byte n ∨ i = .kRstb d base byte n) → s.kRuns k i 1 = true → s.kClear k base byte 1 1 = true →
      exec i s = .next u → (∀ a, a ≠ instAddr + s.kAt k base byte → u.byte a = s.byte a) ∧ (∀ r, (u.ktask k).reg r = (s.ktask k).reg r)) ∧
    (s.kRuns k (.kSt d base off t) 1 = true → s.kClear k base off (tySize t) (tySize t) = true → exec (.kSt d base off t) s = .next u →
      (∀ a, a < instAddr + s.kAt k base off ∨ instAddr + s.kAt k base off + tySize t ≤ a → u.byte a = s.byte a) ∧
      (∀ r, (u.ktask k).reg r = (s.ktask k).reg r)) ∧
    (∀ y, y = xOff x off (s.ktask k) → s.kRuns k (.kStx d base x off t) 1 = true →
      s.kClear k base y (tySize t) (tySize t) = true → exec (.kStx d base x off t) s = .next u →
      (∀ a, a < instAddr + s.kAt k base y ∨ instAddr + s.kAt k base y + tySize t ≤ a → u.byte a = s.byte a) ∧
      (∀ r, (u.ktask k).reg r = (s.ktask k).reg r))

/-- 04 R80: a ring's commands carry its number as their tag whatever the packet holds, and a write of one of its doorbell registers from any
other tag changes nothing but HALYARD.RING[n].REJCNT, which rises by one, saturating. -/
def Obligations.DoorbellsOfAnotherTag : Prop :=
  ∀ (s : State) (ini tag n : Nat), s.live = true → n < 16 → tag ≠ n → s.presents ini tag = true →
    (∀ b, (pktHdr n b).ring = n) ∧
    (let t := s.setRing n { s.ring n with rejCnt := satAdd 32 (s.ring n).rejCnt 1 }
     (∀ v, exec (.cmdDb ini tag n v) s = .next t) ∧ (∀ v, exec (.cplDb ini tag n v) s = .next t) ∧
     (∀ size hi, exec (.ringAttach ini tag n size hi) s = .next t) ∧ exec (.ringDetach ini tag n) s = .next t ∧
     (∀ j v, j < 4 → exec (.registerWriteOther ini tag (0x4C000000 + 256 * n + 4 * j) v) s = .next t))

/-- 01 R19: only three kinds of register are directly writable. A write of any other register word changes nothing at all; a write of one
of the three has the effect of its row. -/
def Obligations.OnlyThreeKindsOfRegisterAreWritable : Prop :=
  ∀ (s : State) (ini tag v : Nat), v < 2 ^ 32 →
    (∀ addr, writable (addr / 4 * 4) = false → exec (.registerWriteOther ini tag addr v) s = .next s) ∧
    (∀ n, n < 16 → s.live = true → exec (.registerWriteOther ini tag (0x4C000008 + 256 * n) v) s = exec (.cmdDb ini tag n v) s) ∧
    (∀ n, n < 16 → s.live = true → exec (.registerWriteOther ini tag (0x4C00000C + 256 * n) v) s = exec (.cplDb ini tag n v) s) ∧
    (∀ n, n < 16 → s.live = true → v / 2 ^ 30 = 1 →
      exec (.registerWriteOther ini tag (0x4C000004 + 256 * n) v) s = exec (.ringAttach ini tag n (v / 256 % 16) (v % 256)) s) ∧
    (∀ n, n < 16 → s.live = true → v / 2 ^ 30 = 2 → exec (.registerWriteOther ini tag (0x4C000004 + 256 * n) v) s = exec (.ringDetach ini tag n) s) ∧
    (∀ n, n < 16 → s.live = true → tag = n → s.presents ini tag = true →
      exec (.registerWriteOther ini tag (0x4C000000 + 256 * n) v) s = .next (s.setRing n { s.ring n with baseLo := v })) ∧
    (∀ ch, ch < 40 → s.live = true → v / 2 ^ 14 % 4 = 1 → exec (.registerWriteOther ini tag (0x41000000 + 256 * ch) v) s =
      exec (.directCmdOn ini tag ch (v / 2 ^ 16) (v / 2 ^ 10 % 16)) s) ∧
    (∀ n, n < 512 → s.live = true → exec (.registerWriteOther ini tag (0x49008000 + 16 * n) v) s = exec (.eventCfgWrite ini tag n v) s) ∧
    (∀ n, n < 512 → s.live = true → exec (.registerWriteOther ini tag (0x49008004 + 16 * n) v) s = exec (.eventPendClear ini tag n v) s) ∧
    (∀ n, n < 512 → s.live = true → exec (.registerWriteOther ini tag (0x49008008 + 16 * n) v) s = exec (.eventSwtrig ini tag n v) s)

/-- 06 R138: a 64-bit read of SCHED.DT gives the 64 bits of one instant and leaves the machine as it is. A 32-bit read of DT_LO gives the low
half and loads the reader's own latch with the rest, which DT_HI and DT_FRAC then give to that reader; no other reader's latch changes. -/
def Obligations.DeviceTimeReads : Prop :=
  ∀ (s : State) (ini tag : Nat), s.live = true →
    s.regReads ini tag 0x45000000 8 = (toLE 8 s.now, s) ∧
    (∃ t, s.regReads ini tag 0x45000000 4 = (toLE 4 s.now, t) ∧ exec (.dtLoRead ini) s = .next t ∧
      t.regRead ini tag 0x45000004 = s.now / 2 ^ 32 ∧ t.regRead ini tag 0x45000008 = s.clk.dt / 2 ^ 16 % 2 ^ 16 ∧
      (∀ other, other ≠ ini → t.regRead other tag 0x45000004 = s.regRead other tag 0x45000004 ∧
        t.regRead other tag 0x45000008 = s.regRead other tag 0x45000008) ∧ t.clk.dt = s.clk.dt ∧ t.mem = s.mem)

/-- 21 R531, R532: where a raise goes in the log. One whose SOURCE and INFO an entry has updates that entry: COUNT rises, TLAST is the
instant, SEV the higher. Otherwise it makes a new entry, at the end where no entry of this same fabric cycle stands (what R528 orders within one
cycle is not stated here); in a full log the oldest S0 entry makes room, or a new S0 entry is dropped, or the entry is dropped and LOG_OVF raised, which makes no
entry and shows in SAFESRC as 0. LOSTCNT counts each loss, and the event line is pulsed in every case. -/
def Obligations.RaisePlacesItsEntry : Prop :=
  ∀ (s : State) (src info : Nat), s.logs src = true →
    let sev := (s.srcCfg src).sev
    let t := s.raise src info
    let key := LogEnt.key
    let had := s.flt.log.any fun e => e.key == (src, info)
    let full := decide (64 ≤ s.flt.log.length)
    let kept := if full then dropFirst (fun e : LogEnt => e.sev == 0) s.flt.log else s.flt.log
    let room := !full || s.flt.log.any fun e => e.sev == 0
    (had = true → t.flt.log.map key = s.flt.log.map key ∧ t.flt.lost = satAdd 32 s.flt.lost 0 ∧
      (∀ e, (s.flt.log.find? fun e => e.key == (src, info)) = some e → ∃ f, (t.flt.log.find? fun e => e.key == (src, info)) = some f ∧
        f.count = satAdd 16 e.count 1 ∧ f.tlast = s.now32 ∧ f.sev = Nat.max e.sev sev ∧ f.tfirst = e.tfirst)) ∧
    (had = false → room = true → (t.flt.log.map key).Perm (kept.map key ++ [(src, info)]) ∧ t.flt.lost = satAdd 32 s.flt.lost (b2n full) ∧
      t.flt.seq = (s.flt.seq + 1) % 2 ^ 32 ∧
      ((∀ e, e ∈ s.flt.log → e.at_ ≠ s.cyc + 1) → t.flt.log.map key = kept.map key ++ [(src, info)])) ∧
    (had = false → room = false →
      t.flt.log.map key = s.flt.log.map key ∧ t.flt.lost = satAdd 32 s.flt.lost 1 ∧
      (sev ≠ 0 → t.flt.latch = true) ∧ (sev ≠ 0 → sev ≠ 3 → s.flt.safe = false → s.flt.safeReq = false → t.flt.safeSrc = 0)) ∧
    ((s.srcCfg src).ev = true → (s.srcCfg src).line < 512 → ∃ more, t.flt.pulses = s.flt.pulses ++ (s.srcCfg src).line :: more ∧
      (had = true ∨ room = true → more = []))

/-- 18 R454: a refused access ends with a bus error and has no other effect; a DMA channel's transfer ends with an error. TEN.VIOL of the
presented tag rises, TEN.LASTV names address, tag, initiator and kind, and TEN_VIOL (0x22) is raised. Memory is as it was. -/
def Obligations.RefusedAccessHasNoOtherEffect : Prop :=
  ∀ (s : State) (ini tag kind addr n : Nat) (data : List Byte) (more : Bool),
    s.iniTag ini = some tag → s.unitRuns ini = true → n ≠ 0 → s.spanOK ini tag kind addr n = false →
    ((List.range n).all fun i => match s.region (addr + i) with
      | .hole | .bankA | .bankB => false
      | .xspi k => !s.cut (0x10 + k)
      | _ => true) = true → (isRv32 ini = true → addr + n ≤ 0x100000000) →
    let ten := { s.ten with viol := bump 32 s.ten.viol tag, lastAddr := addr % 2 ^ 40, lastInfo := tag + 256 * (kind % 4) + 65536 * (ini % 256) }
    let s1 := ({ s with ten := ten } : State).raise 0x22 (tag + 256 * (ini % 256))
    let s2 : State := { s1 with bus := { err := true, data := [] } }
    s2.mem = s.mem ∧ s2.ecc = s.ecc ∧
    exec (.memoryAccess ini kind addr n data more) s = .next (if isDma ini then
      { s2 with ten := { s2.ten with dma := put s2.ten.dma (ini - 0x30) { en := false, err := true } } } else s2)

/-- 18 R453: what a presented tag may do with a byte of system SRAM, by the one range that covers it; an initiator that is no real-time pair
and no DMA channel. Tags 0 and 1 reach memory in no enabled range; a range's own tag has its permissions, and no other tag any. -/
def Obligations.BezelTable : Prop :=
  ∀ (s : State) (ini tag kind a : Nat), ini ≤ 5 → 0x10000000 ≤ a → a < 0x11000000 → s.ten.fill = none →
    ((∀ r, r < 32 → (look (fun _ => ({} : Bezel)) s.ten.bez r).covers a = false) → s.mayReach ini tag kind a = decide (tag ≤ 1)) ∧
    (∀ r, r < 32 → (look (fun _ => ({} : Bezel)) s.ten.bez r).covers a = true →
      (∀ q, q < 32 → q ≠ r → (look (fun _ => ({} : Bezel)) s.ten.bez q).covers a = false) →
      s.mayReach ini tag kind a = (decide (tag = (look (fun _ => ({} : Bezel)) s.ten.bez r).tag) && (look (fun _ => ({} : Bezel)) s.ten.bez r).perm kind)) ∧
    (∀ d, isDma d = true → s.mayReach d tag 2 a = false)

/-- 01 R563: SECDED in system SRAM and eMRAM. A read whose erroneous words are all correctable returns the bytes and clears those errors; one
that meets an uncorrectable word returns none, and that error stays. A write of whole words clears their errors; a partial write into an
uncorrectable word leaves the word's bytes and its error, and ends with a bus error. -/
def Obligations.SecdedReadsAndWrites : Prop :=
  ∀ (s : State) (a n : Nat) (bs : List Byte),
    let bad := s.badWords a n
    let hit := s.badWords a bs.length
    ((∀ p, p ∈ bad → p.2 = 1) → ∃ t, s.load a n = (some (memRead s.mem a n), t) ∧ t.mem = s.mem ∧
      (∀ p, p ∈ t.ecc ↔ p ∈ s.ecc ∧ ¬ ∃ q, q ∈ bad ∧ q.1 = p.1)) ∧
    (∀ p, p ∈ bad → p.2 ≠ 1 → ∃ t, s.load a n = (none, t) ∧ t.mem = s.mem ∧
      (∀ q, q ∈ t.ecc ↔ q ∈ s.ecc ∧ ¬ ∃ c, c ∈ bad ∧ c.2 = 1 ∧ c.1 = q.1)) ∧
    ((∀ p, p ∈ hit → wholeWord a bs.length p.1 = true ∨ p.2 = 1) → ∃ t, s.store a bs = (true, t) ∧ t.mem = memPutAll s.mem a bs ∧
      (∀ p, p ∈ t.ecc ↔ p ∈ s.ecc ∧ ¬ ∃ q, q ∈ hit ∧ q.1 = p.1)) ∧
    (∀ p, p ∈ hit → wholeWord a bs.length p.1 = false → p.2 ≠ 1 → (∀ q, q ∈ hit → q.1 = p.1 → q = p) → Memory.wf s.mem = true →
      ∃ t, s.store a bs = (false, t) ∧ p ∈ t.ecc ∧ (∀ x, p.1 * 8 ≤ x → x < p.1 * 8 + 8 → t.byte x = s.byte x) ∧
      (∀ x, (∀ q, q ∈ hit → q.2 ≠ 1 → x < q.1 * 8 ∨ q.1 * 8 + 8 ≤ x) → t.byte x = memGet (memPutAll s.mem a bs) x))

/-- 04 R92: a completion entry's sixteen bytes, and the completion of a command refused or done at this instant: its CTAG, STATUS and DETAIL, its
RESULT, and in TIME bits [31:0] of device time. -/
def Obligations.CompletionEntryLayout : Prop :=
  (∀ (c : Cpl), c.bytes.length = 16 ∧ le c.bytes 0 2 = c.ctag % 2 ^ 16 ∧ byteAt c.bytes 2 = c.status.code ∧ byteAt c.bytes 3 = c.detail % 2 ^ 8 ∧
    le c.bytes 4 8 = c.result % 2 ^ 64 ∧ le c.bytes 12 4 = c.time % 2 ^ 32) ∧
  (∀ (s : State) (h : Hdr) (st : Status) (detail result : Nat), h.ring < 16 → (s.ring h.ring).st ≠ 2 →
    ∃ c, (s.reply h st detail result).hal.due = s.hal.due ++ [c] ∧ c.ring = h.ring ∧ c.ctag = h.ctag ∧ c.status = st ∧ c.detail = detail ∧
      c.result = result ∧ c.time = s.now32 ∧ c.irq = h.irq ∧ c.final = true)

/-- 03 R74: the life-cycle state is the highest whose fuse word has at least 24 bits set, BLANK when none has; a word that programming left with
fewer does not count, as when a power-on reset interrupts it; and a transition that finishes its word leaves the module in that state or a later
one. -/
def Obligations.LifeCycleIsTheHighestSetWord : Prop :=
  ∀ (s : State),
    let isSet := fun (k : Nat) => decide (24 ≤ popcount (look (fun _ => 0) s.sys.lcWord k))
    s.lcFused ≤ 5 ∧ (∀ k, 1 ≤ k → k ≤ 5 → isSet k = true → k ≤ s.lcFused) ∧ (s.lcFused = 0 ∨ isSet s.lcFused = true) ∧
    (∀ (o : Op) (h : Hdr) (addr len k : Nat), o.running = true → o.cmd = .sysLifecycle h addr len k → 1 ≤ k → k ≤ 5 →
      (s.finishFuse o).lcFused = Nat.max k s.lcFused) ∧
    (∀ o, (s.cutFuse o).lcFused = s.lcFused)

/-- 03 R60, R61, R78; 06 R135; 13 R335; 21 R526: what a C-die reset keeps: every byte of eMRAM that no operation is writing, the SAFE latch, the wake
latches, the start count, and the channels as their P-dies hold them, with epoch 0; and what it loses: every other byte reads as unwritten
memory does (the model's choice, log 3), the in-flight table, device time, the rings. -/
def Obligations.CdieResetKeepsWhatSurvives : Prop :=
  ∀ (s : State) (cause : Nat),
    let t := s.cdieReset cause
    ((∀ o, o ∈ s.hal.ops → o.running = false) → ∀ a, 0x22000000 ≤ a → a < 0x22480000 → t.byte a = s.byte a) ∧ (∀ a, 0x10000000 ≤ a → a < 0x20100000 → t.byte a = memDefault) ∧
    t.flt.latch = s.flt.latch ∧ t.wake.modLatch = s.wake.modLatch ∧ (∀ g, (t.seg g).latch = (s.seg g).latch) ∧ t.sys.startId = s.sys.startId ∧
    t.now = 0 ∧ t.hal.inflight = [] ∧ t.hal.due = [] ∧ (∀ n, (t.ring n).st = 0) ∧ t.pending = s.pending ∧
    (∀ n, (t.chan n).st = (s.chan n).st ∧ (t.chan n).out = (s.chan n).out ∧ (t.chan n).cfg = (s.chan n).cfg ∧ (t.chan n).epoch = 0) ∧
    (s.sys.pwr = .valid → t.sys.boot = 1)

/-- 04 R96: the order of the checks of CHAN.SET. Each completes the command with nothing else changed, whatever the later ones would say: the
index, the owner, the epoch (with the unit's in RESULT), the fields, and a die the bridge cannot reach. -/
def Obligations.ChanSetChecksInOrder : Prop :=
  ∀ (s : State) (h : Hdr) (ch act duty deadline : Nat), s.live = true →
    let run := exec (.chanSet h ch act duty deadline) s
    (40 ≤ ch → run = .next (s.fail h .badParam 0x11)) ∧
    (ch < 40 → s.owner 3 ch ≠ h.ring → run = .next (s.fail h .denied 0x01)) ∧
    (ch < 40 → s.owner 3 ch = h.ring → h.epoch ≠ s.chEpoch ch → run = .next (s.fail h .roleChanged 0 (s.chEpoch ch))) ∧
    (ch < 40 → s.owner 3 ch = h.ring → h.epoch = s.chEpoch ch → (2 < act ∨ act = 2 ∧ 1023 < duty ∨ 10000000 < deadline) →
      run = .next (s.fail h .badParam 0x12)) ∧
    (ch < 40 → s.owner 3 ch = h.ring → h.epoch = s.chEpoch ch → act ≤ 2 → (act = 2 → duty ≤ 1023) → deadline ≤ 10000000 →
      s.linkDown (1 + chDie ch) = true → run = .next (s.fail h .fault 0x04))
end

