-- ==== Sys2Proof/Laws/Commands.lean ====
section
/-! SUPPORT. What the frame of a Halyard command does, said once: who serves it, its checks in order, its descriptor and its far die. -/
namespace Sys2Proof.Machine
open Sys2Proof

theorem live_of_mpUp {s : State} (h : s.mpUp = true) : s.live = true := by
  simp only [State.mpUp, Bool.and_eq_true, decide_eq_true_eq] at h
  simp only [State.live, decide_eq_true_eq]
  omega

/-- A hardware-decoded command has its effect while the C-die runs. -/
theorem hwCmd_live {s : State} (e : State) (h : s.live = true) : hwCmd s e = .next e := by simp [hwCmd, h]

/-- A firmware-interpreted command has its effect while the MP serves. -/
theorem fwCmd_up {s : State} (h : Hdr) (e : State) (hm : s.mpUp = true) : fwCmd h s e = .next e := by
  simp [fwCmd, live_of_mpUp hm, hm]

@[simp] theorem firstBad_nil : firstBad [] = none := rfl
@[simp] theorem firstBad_pass (r : Status × Nat × Nat) (l : List Chk) : firstBad ((false, r) :: l) = firstBad l := rfl
@[simp] theorem firstBad_fail (r : Status × Nat × Nat) (l : List Chk) : firstBad ((true, r) :: l) = some r := rfl

/-- Checks one after the other. -/
theorem firstBad_append (a b : List Chk) : firstBad (a ++ b) = (firstBad a).or (firstBad b) := by
  induction a with
  | nil => rfl
  | cons c r ih => obtain ⟨x, y⟩ := c; cases x <;> simp [ih]

/-- With every check passed the command has its effect. -/
theorem guarded_pass {s : State} {h : Hdr} {l : List Chk} (e : State) (hl : firstBad l = none) : s.guarded h l e = e := by
  simp [State.guarded, hl]

/-- The first check that fails completes the command. -/
theorem guarded_fail {s : State} {h : Hdr} {l : List Chk} (e : State) {st : Status} {d r : Nat} (hl : firstBad l = some (st, d, r)) :
    s.guarded h l e = s.fail h st d r := by simp [State.guarded, hl]

/-- A write to a die that is reached goes through. -/
theorem farWrite_reaches {s : State} {h : Hdr} {die addr ini : Nat} (e : State) (hr : s.reaches die = true) :
    s.farWrite h die addr ini e = e := by
  simp only [State.reaches, Bool.and_eq_true, Bool.not_eq_true', beq_iff_eq] at hr
  simp [State.farWrite, hr.1.1, hr.1.2, hr.2]

/-- A command with a descriptor whose bytes can be read and whose checks pass goes on with them. -/
theorem withDesc_in {s s1 : State} {h : Hdr} {addr len : Nat} {r : List Byte} {pre : List Chk} {lenOk : Bool}
    (k : List Byte → State → State) (hd : s.descIn h addr len = some (r, s1)) (hp : firstBad pre = none) (hl : lenOk = true) :
    s.withDesc h addr len pre lenOk k = k r s1 := by
  unfold State.descIn at hd
  split at hd
  · cases hd
  · rename_i hn
    simp only [not_or] at hn
    have e : firstBad (pre ++ [bp (decide (len = 0 ∨ 0x00200000 < len) || !lenOk) 0x05]) = none := by
      rw [firstBad_append, hp]
      simp [bp, hl, hn.1, hn.2.1]
    unfold State.withDesc
    rw [if_neg hn.2.2, guarded_pass _ e]
    cases hx : s.load addr len with
    | mk o s2 =>
      cases o with
      | none => rw [hx] at hd; cases hd
      | some b => rw [hx] at hd; cases hd; rfl

end Sys2Proof.Machine
end

