-- ==== Sys2Proof/Laws/Dispatch.lean ====
section
/-! SUPPORT. Which meaning exec calls for each command, so that no proof unfolds the dispatch. -/
namespace Sys2Proof.Machine
open Sys2Proof

theorem exec_kNop {s : State} : exec (.kNop) s = execKNop s := rfl
theorem exec_kLdb {s : State} : ∀ d base byte bit, exec (.kLdb d base byte bit) s = execKLdb d base byte bit s := fun _ _ _ _ => rfl
theorem exec_kStb {s : State} : ∀ d base byte bit, exec (.kStb d base byte bit) s = execKStb d base byte bit s := fun _ _ _ _ => rfl
theorem exec_kSetb {s : State} : ∀ d base byte bit, exec (.kSetb d base byte bit) s = execKSetb d base byte bit s := fun _ _ _ _ => rfl
theorem exec_kRstb {s : State} : ∀ d base byte bit, exec (.kRstb d base byte bit) s = execKRstb d base byte bit s := fun _ _ _ _ => rfl
theorem exec_kAndb {s : State} : ∀ d base byte bit, exec (.kAndb d base byte bit) s = execKAndb d base byte bit s := fun _ _ _ _ => rfl
theorem exec_kOrb {s : State} : ∀ d base byte bit, exec (.kOrb d base byte bit) s = execKOrb d base byte bit s := fun _ _ _ _ => rfl
theorem exec_kXorb {s : State} : ∀ d base byte bit, exec (.kXorb d base byte bit) s = execKXorb d base byte bit s := fun _ _ _ _ => rfl
theorem exec_kAndnb {s : State} : ∀ d base byte bit, exec (.kAndnb d base byte bit) s = execKAndnb d base byte bit s := fun _ _ _ _ => rfl
theorem exec_kLd {s : State} : ∀ d base off t, exec (.kLd d base off t) s = execKLd d base off t s := fun _ _ _ _ => rfl
theorem exec_kSt {s : State} : ∀ d base off t, exec (.kSt d base off t) s = execKSt d base off t s := fun _ _ _ _ => rfl
theorem exec_kLdx {s : State} : ∀ d base x off t, exec (.kLdx d base x off t) s = execKLdx d base x off t s := fun _ _ _ _ _ => rfl
theorem exec_kStx {s : State} : ∀ d base x off t, exec (.kStx d base x off t) s = execKStx d base x off t s := fun _ _ _ _ _ => rfl
theorem exec_kLea {s : State} : ∀ d base off, exec (.kLea d base off) s = execKLea d base off s := fun _ _ _ => rfl
theorem exec_kAdd {s : State} : ∀ d a b t, exec (.kAdd d a b t) s = execKAdd d a b t s := fun _ _ _ _ => rfl
theorem exec_kSub {s : State} : ∀ d a b t, exec (.kSub d a b t) s = execKSub d a b t s := fun _ _ _ _ => rfl
theorem exec_kMul {s : State} : ∀ d a b t, exec (.kMul d a b t) s = execKMul d a b t s := fun _ _ _ _ => rfl
theorem exec_kDiv {s : State} : ∀ d a b t, exec (.kDiv d a b t) s = execKDiv d a b t s := fun _ _ _ _ => rfl
theorem exec_kMod {s : State} : ∀ d a b t, exec (.kMod d a b t) s = execKMod d a b t s := fun _ _ _ _ => rfl
theorem exec_kMin {s : State} : ∀ d a b t, exec (.kMin d a b t) s = execKMin d a b t s := fun _ _ _ _ => rfl
theorem exec_kMax {s : State} : ∀ d a b t, exec (.kMax d a b t) s = execKMax d a b t s := fun _ _ _ _ => rfl
theorem exec_kNeg {s : State} : ∀ d a t, exec (.kNeg d a t) s = execKNeg d a t s := fun _ _ _ => rfl
theorem exec_kAbs {s : State} : ∀ d a t, exec (.kAbs d a t) s = execKAbs d a t s := fun _ _ _ => rfl
theorem exec_kAnd {s : State} : ∀ d a b t, exec (.kAnd d a b t) s = execKAnd d a b t s := fun _ _ _ _ => rfl
theorem exec_kOr {s : State} : ∀ d a b t, exec (.kOr d a b t) s = execKOr d a b t s := fun _ _ _ _ => rfl
theorem exec_kXor {s : State} : ∀ d a b t, exec (.kXor d a b t) s = execKXor d a b t s := fun _ _ _ _ => rfl
theorem exec_kNot {s : State} : ∀ d a t, exec (.kNot d a t) s = execKNot d a t s := fun _ _ _ => rfl
theorem exec_kShl {s : State} : ∀ d a b t, exec (.kShl d a b t) s = execKShl d a b t s := fun _ _ _ _ => rfl
theorem exec_kShr {s : State} : ∀ d a b t, exec (.kShr d a b t) s = execKShr d a b t s := fun _ _ _ _ => rfl
theorem exec_kRol {s : State} : ∀ d a b t, exec (.kRol d a b t) s = execKRol d a b t s := fun _ _ _ _ => rfl
theorem exec_kRor {s : State} : ∀ d a b t, exec (.kRor d a b t) s = execKRor d a b t s := fun _ _ _ _ => rfl
theorem exec_kCeq {s : State} : ∀ d a b t, exec (.kCeq d a b t) s = execKCeq d a b t s := fun _ _ _ _ => rfl
theorem exec_kCne {s : State} : ∀ d a b t, exec (.kCne d a b t) s = execKCne d a b t s := fun _ _ _ _ => rfl
theorem exec_kClt {s : State} : ∀ d a b t, exec (.kClt d a b t) s = execKClt d a b t s := fun _ _ _ _ => rfl
theorem exec_kCle {s : State} : ∀ d a b t, exec (.kCle d a b t) s = execKCle d a b t s := fun _ _ _ _ => rfl
theorem exec_kCgt {s : State} : ∀ d a b t, exec (.kCgt d a b t) s = execKCgt d a b t s := fun _ _ _ _ => rfl
theorem exec_kCge {s : State} : ∀ d a b t, exec (.kCge d a b t) s = execKCge d a b t s := fun _ _ _ _ => rfl
theorem exec_kSel {s : State} : ∀ d a b t, exec (.kSel d a b t) s = execKSel d a b t s := fun _ _ _ _ => rfl
theorem exec_kCvt {s : State} : ∀ d a f t, exec (.kCvt d a f t) s = execKCvt d a f t s := fun _ _ _ _ => rfl
theorem exec_kSqrt {s : State} : ∀ d a t, exec (.kSqrt d a t) s = execKSqrt d a t s := fun _ _ _ => rfl
theorem exec_kTrunc {s : State} : ∀ d a t, exec (.kTrunc d a t) s = execKTrunc d a t s := fun _ _ _ => rfl
theorem exec_kMov {s : State} : ∀ d a t, exec (.kMov d a t) s = execKMov d a t s := fun _ _ _ => rfl
theorem exec_kLdi {s : State} : ∀ d imm, exec (.kLdi d imm) s = execKLdi d imm s := fun _ _ => rfl
theorem exec_kLui {s : State} : ∀ d imm, exec (.kLui d imm) s = execKLui d imm s := fun _ _ => rfl
theorem exec_kAddi {s : State} : ∀ d imm, exec (.kAddi d imm) s = execKAddi d imm s := fun _ _ => rfl
theorem exec_kBfx {s : State} : ∀ d a pos len, exec (.kBfx d a pos len) s = execKBfx d a pos len s := fun _ _ _ _ => rfl
theorem exec_kBfi {s : State} : ∀ d a pos len, exec (.kBfi d a pos len) s = execKBfi d a pos len s := fun _ _ _ _ => rfl
theorem exec_kJmp {s : State} : ∀ disp, exec (.kJmp disp) s = execKJmp disp s := fun _ => rfl
theorem exec_kJt {s : State} : ∀ c disp, exec (.kJt c disp) s = execKJt c disp s := fun _ _ => rfl
theorem exec_kJf {s : State} : ∀ c disp, exec (.kJf c disp) s = execKJf c disp s := fun _ _ => rfl
theorem exec_kCall {s : State} : ∀ c disp, exec (.kCall c disp) s = execKCall c disp s := fun _ _ => rfl
theorem exec_kRet {s : State} : exec (.kRet) s = execKRet s := rfl
theorem exec_kNow {s : State} : ∀ d, exec (.kNow d) s = execKNow d s := fun _ => rfl
theorem exec_kNowr {s : State} : ∀ d, exec (.kNowr d) s = execKNowr d s := fun _ => rfl
theorem exec_kEnd {s : State} : exec (.kEnd) s = execKEnd s := rfl
theorem exec_kTon {s : State} : ∀ g base off, exec (.kTon g base off) s = execKTon g base off s := fun _ _ _ => rfl
theorem exec_kTof {s : State} : ∀ g base off, exec (.kTof g base off) s = execKTof g base off s := fun _ _ _ => rfl
theorem exec_kTp {s : State} : ∀ g base off, exec (.kTp g base off) s = execKTp g base off s := fun _ _ _ => rfl
theorem exec_kRtrig {s : State} : ∀ g base off, exec (.kRtrig g base off) s = execKRtrig g base off s := fun _ _ _ => rfl
theorem exec_kFtrig {s : State} : ∀ g base off, exec (.kFtrig g base off) s = execKFtrig g base off s := fun _ _ _ => rfl
theorem exec_kCtu {s : State} : ∀ g base off, exec (.kCtu g base off) s = execKCtu g base off s := fun _ _ _ => rfl
theorem exec_kCtd {s : State} : ∀ g base off, exec (.kCtd g base off) s = execKCtd g base off s := fun _ _ _ => rfl
theorem exec_kSr {s : State} : ∀ g base off, exec (.kSr g base off) s = execKSr g base off s := fun _ _ _ => rfl
theorem exec_kRs {s : State} : ∀ g base off, exec (.kRs g base off) s = execKRs g base off s := fun _ _ _ => rfl
theorem exec_kRamp {s : State} : ∀ g base off, exec (.kRamp g base off) s = execKRamp g base off s := fun _ _ _ => rfl
theorem exec_kPid {s : State} : ∀ g base off, exec (.kPid g base off) s = execKPid g base off s := fun _ _ _ => rfl
theorem exec_kLimit {s : State} : ∀ d a b t, exec (.kLimit d a b t) s = execKLimit d a b t s := fun _ _ _ _ => rfl
theorem exec_sysReset {s : State} : ∀ h scope, exec (.sysReset h scope) s = execSysReset h scope s := fun _ _ => rfl
theorem exec_sysProfile {s : State} : ∀ h profile, exec (.sysProfile h profile) s = execSysProfile h profile s := fun _ _ => rfl
theorem exec_sysPincfg {s : State} : ∀ h pin func pull, exec (.sysPincfg h pin func pull) s = execSysPincfg h pin func pull s := fun _ _ _ _ => rfl
theorem exec_sysLifecycle {s : State} : ∀ h addr len target, exec (.sysLifecycle h addr len target) s = execSysLifecycle h addr len target s := fun _ _ _ _ => rfl
theorem exec_sysFuse {s : State} : ∀ h op key svn hash, exec (.sysFuse h op key svn hash) s = execSysFuse h op key svn hash s := fun _ _ _ _ _ => rfl
theorem exec_sysUpdate {s : State} : ∀ h addr len prefer, exec (.sysUpdate h addr len prefer) s = execSysUpdate h addr len prefer s := fun _ _ _ _ => rfl
theorem exec_sysFbpoll {s : State} : ∀ h poll, exec (.sysFbpoll h poll) s = execSysFbpoll h poll s := fun _ _ => rfl
theorem exec_sysWdi {s : State} : ∀ h enable tmax tmin, exec (.sysWdi h enable tmax tmin) s = execSysWdi h enable tmax tmin s := fun _ _ _ _ => rfl
theorem exec_chanSet {s : State} : ∀ h ch act duty deadline, exec (.chanSet h ch act duty deadline) s = execChanSet h ch act duty deadline s := fun _ _ _ _ _ => rfl
theorem exec_chanConfig {s : State} : ∀ h addr len ch, exec (.chanConfig h addr len ch) s = execChanConfig h addr len ch s := fun _ _ _ _ => rfl
theorem exec_chanClear {s : State} : ∀ h ch, exec (.chanClear h ch) s = execChanClear h ch s := fun _ _ => rfl
theorem exec_chanBond {s : State} : ∀ h count members epochs, exec (.chanBond h count members epochs) s = execChanBond h count members epochs s := fun _ _ _ _ => rfl
theorem exec_chanUnbond {s : State} : ∀ h ch, exec (.chanUnbond h ch) s = execChanUnbond h ch s := fun _ _ => rfl
theorem exec_chanCapture {s : State} : ∀ h out outLen ch kind count, exec (.chanCapture h out outLen ch kind count) s = execChanCapture h out outLen ch kind count s := fun _ _ _ _ _ _ => rfl
theorem exec_netPortcfg {s : State} : ∀ h addr len port, exec (.netPortcfg h addr len port) s = execNetPortcfg h addr len port s := fun _ _ _ _ => rfl
theorem exec_netVlan {s : State} : ∀ h vid member untag, exec (.netVlan h vid member untag) s = execNetVlan h vid member untag s := fun _ _ _ _ => rfl
theorem exec_netFdb {s : State} : ∀ h op mac vid mask, exec (.netFdb h op mac vid mask) s = execNetFdb h op mac vid mask s := fun _ _ _ _ _ => rfl
theorem exec_netTsn {s : State} : ∀ h addr len table port base, exec (.netTsn h addr len table port base) s = execNetTsn h addr len table port base s := fun _ _ _ _ _ _ => rfl
theorem exec_netMacsec {s : State} : ∀ h port op an dir locket sci ssci pn, exec (.netMacsec h port op an dir locket sci ssci pn) s = execNetMacsec h port op an dir locket sci ssci pn s := fun _ _ _ _ _ _ _ _ _ => rfl
theorem exec_netSleep {s : State} : ∀ h port, exec (.netSleep h port) s = execNetSleep h port s := fun _ _ => rfl
theorem exec_netWake {s : State} : ∀ h port deadline, exec (.netWake h port deadline) s = execNetWake h port deadline s := fun _ _ _ => rfl
theorem exec_netGptp {s : State} : ∀ h addr len, exec (.netGptp h addr len) s = execNetGptp h addr len s := fun _ _ _ => rfl
theorem exec_canCtrl {s : State} : ∀ h addr len ctrl, exec (.canCtrl h addr len ctrl) s = execCanCtrl h addr len ctrl s := fun _ _ _ _ => rfl
theorem exec_canMode {s : State} : ∀ h ctrl mode, exec (.canMode h ctrl mode) s = execCanMode h ctrl mode s := fun _ _ _ => rfl
theorem exec_canObj {s : State} : ∀ h obj fmt enable id ctrl, exec (.canObj h obj fmt enable id ctrl) s = execCanObj h obj fmt enable id ctrl s := fun _ _ _ _ _ _ => rfl
theorem exec_canTx {s : State} : ∀ h obj desc addr len data, exec (.canTx h obj desc addr len data) s = execCanTx h obj desc addr len data s := fun _ _ _ _ _ _ => rfl
theorem exec_canAuth {s : State} : ∀ h ctrl op id locket maclen, exec (.canAuth h ctrl op id locket maclen) s = execCanAuth h ctrl op id locket maclen s := fun _ _ _ _ _ _ => rfl
theorem exec_canTmaster {s : State} : ∀ h ctrl enable entry id, exec (.canTmaster h ctrl enable entry id) s = execCanTmaster h ctrl enable entry id s := fun _ _ _ _ _ => rfl
theorem exec_canLin {s : State} : ∀ h addr len lin, exec (.canLin h addr len lin) s = execCanLin h addr len lin s := fun _ _ _ _ => rfl
theorem exec_canLinrun {s : State} : ∀ h lin table mode, exec (.canLinrun h lin table mode) s = execCanLinrun h lin table mode s := fun _ _ _ _ => rfl
theorem exec_wakeSource {s : State} : ∀ h addr len, exec (.wakeSource h addr len) s = execWakeSource h addr len s := fun _ _ _ => rfl
theorem exec_wakeXcvr {s : State} : ∀ h seg st, exec (.wakeXcvr h seg st) s = execWakeXcvr h seg st s := fun _ _ _ => rfl
theorem exec_wakeIndicate {s : State} : ∀ h mask deadline attempts, exec (.wakeIndicate h mask deadline attempts) s = execWakeIndicate h mask deadline attempts s := fun _ _ _ _ => rfl
theorem exec_wakeModule {s : State} : ∀ h, exec (.wakeModule h) s = execWakeModule h s := fun _ => rfl
theorem exec_wakeInh {s : State} : ∀ h mask level, exec (.wakeInh h mask level) s = execWakeInh h mask level s := fun _ _ _ => rfl
theorem exec_bridgeRoute {s : State} : ∀ h entry rec, exec (.bridgeRoute h entry rec) s = execBridgeRoute h entry rec s := fun _ _ _ => rfl
theorem exec_bridgeClear {s : State} : ∀ h entry, exec (.bridgeClear h entry) s = execBridgeClear h entry s := fun _ _ => rfl
theorem exec_bridgeWakelist {s : State} : ∀ h seg op entry, exec (.bridgeWakelist h seg op entry) s = execBridgeWakelist h seg op entry s := fun _ _ _ _ => rfl
theorem exec_keoreLoad {s : State} : ∀ h addr len, exec (.keoreLoad h addr len) s = execKeoreLoad h addr len s := fun _ _ _ => rfl
theorem exec_keoreStart {s : State} : ∀ h mode, exec (.keoreStart h mode) s = execKeoreStart h mode s := fun _ _ => rfl
theorem exec_keoreStop {s : State} : ∀ h, exec (.keoreStop h) s = execKeoreStop h s := fun _ => rfl
theorem exec_keoreExchange {s : State} : ∀ h out outLen deadline, exec (.keoreExchange h out outLen deadline) s = execKeoreExchange h out outLen deadline s := fun _ _ _ _ => rfl
theorem exec_keoreForce {s : State} : ∀ h vartag typ value, exec (.keoreForce h vartag typ value) s = execKeoreForce h vartag typ value s := fun _ _ _ _ => rfl
theorem exec_keoreUnforce {s : State} : ∀ h vartag, exec (.keoreUnforce h vartag) s = execKeoreUnforce h vartag s := fun _ _ => rfl
theorem exec_schedWrite {s : State} : ∀ h entry rec, exec (.schedWrite h entry rec) s = execSchedWrite h entry rec s := fun _ _ _ => rfl
theorem exec_schedClear {s : State} : ∀ h entry, exec (.schedClear h entry) s = execSchedClear h entry s := fun _ _ => rfl
theorem exec_schedArm {s : State} : ∀ h entry trigger, exec (.schedArm h entry trigger) s = execSchedArm h entry trigger s := fun _ _ _ => rfl
theorem exec_schedDisarm {s : State} : ∀ h entry, exec (.schedDisarm h entry) s = execSchedDisarm h entry s := fun _ _ => rfl
theorem exec_schedTime {s : State} : ∀ h op value, exec (.schedTime h op value) s = execSchedTime h op value s := fun _ _ _ => rfl
theorem exec_admitRequest {s : State} : ∀ h typ budget amount duration deadline, exec (.admitRequest h typ budget amount duration deadline) s = execAdmitRequest h typ budget amount duration deadline s := fun _ _ _ _ _ _ => rfl
theorem exec_admitRelease {s : State} : ∀ h grant, exec (.admitRelease h grant) s = execAdmitRelease h grant s := fun _ _ => rfl
theorem exec_admitBudget {s : State} : ∀ h budget limit charge reserve, exec (.admitBudget h budget limit charge reserve) s = execAdmitBudget h budget limit charge reserve s := fun _ _ _ _ _ => rfl
theorem exec_admitWindow {s : State} : ∀ h enable frame phase length start, exec (.admitWindow h enable frame phase length start) s = execAdmitWindow h enable frame phase length start s := fun _ _ _ _ _ _ => rfl
theorem exec_inputSw {s : State} : ∀ h input wet deb flags maxact chatter window, exec (.inputSw h input wet deb flags maxact chatter window) s = execInputSw h input wet deb flags maxact chatter window s := fun _ _ _ _ _ _ _ _ => rfl
theorem exec_inputAn {s : State} : ∀ h an conv deb, exec (.inputAn h an conv deb) s = execInputAn h an conv deb s := fun _ _ _ _ => rfl
theorem exec_inputPc {s : State} : ∀ h pc mode deb zpre preset, exec (.inputPc h pc mode deb zpre preset) s = execInputPc h pc mode deb zpre preset s := fun _ _ _ _ _ _ => rfl
theorem exec_inputClear {s : State} : ∀ h input what, exec (.inputClear h input what) s = execInputClear h input what s := fun _ _ _ => rfl
theorem exec_isoCfg {s : State} : ∀ h ch mode deb, exec (.isoCfg h ch mode deb) s = execIsoCfg h ch mode deb s := fun _ _ _ _ => rfl
theorem exec_isoSet {s : State} : ∀ h ch value, exec (.isoSet h ch value) s = execIsoSet h ch value s := fun _ _ _ => rfl
theorem exec_isoClear {s : State} : ∀ h ch, exec (.isoClear h ch) s = execIsoClear h ch s := fun _ _ => rfl
theorem exec_tenAssign {s : State} : ∀ h kind tag index count, exec (.tenAssign h kind tag index count) s = execTenAssign h kind tag index count s := fun _ _ _ _ _ => rfl
theorem exec_tenBezel {s : State} : ∀ h range tag enable perms base size, exec (.tenBezel h range tag enable perms base size) s = execTenBezel h range tag enable perms base size s := fun _ _ _ _ _ _ _ => rfl
theorem exec_tenRingcfg {s : State} : ∀ h ring enable quota fwquota event, exec (.tenRingcfg h ring enable quota fwquota event) s = execTenRingcfg h ring enable quota fwquota event s := fun _ _ _ _ _ _ => rfl
theorem exec_tenClasp {s : State} : ∀ h clasp op tagA tagB evA evB, exec (.tenClasp h clasp op tagA tagB evA evB) s = execTenClasp h clasp op tagA tagB evA evB s := fun _ _ _ _ _ _ _ => rfl
theorem exec_tenPost {s : State} : ∀ h clasp msg, exec (.tenPost h clasp msg) s = execTenPost h clasp msg s := fun _ _ _ => rfl
theorem exec_tenTake {s : State} : ∀ h out outLen clasp, exec (.tenTake h out outLen clasp) s = execTenTake h out outLen clasp s := fun _ _ _ _ => rfl
theorem exec_tenGate {s : State} : ∀ h gate op, exec (.tenGate h gate op) s = execTenGate h gate op s := fun _ _ _ => rfl
theorem exec_keyWrite {s : State} : ∀ h addr len slot, exec (.keyWrite h addr len slot) s = execKeyWrite h addr len slot s := fun _ _ _ _ => rfl
theorem exec_keyDerive {s : State} : ∀ h slot ktype label, exec (.keyDerive h slot ktype label) s = execKeyDerive h slot ktype label s := fun _ _ _ _ => rfl
theorem exec_keyErase {s : State} : ∀ h slot, exec (.keyErase h slot) s = execKeyErase h slot s := fun _ _ => rfl
theorem exec_keyPermit {s : State} : ∀ h slot allow, exec (.keyPermit h slot allow) s = execKeyPermit h slot allow s := fun _ _ _ => rfl
theorem exec_keyAead {s : State} : ∀ h addr len slot op iv out outLen, exec (.keyAead h addr len slot op iv out outLen) s = execKeyAead h addr len slot op iv out outLen s := fun _ _ _ _ _ _ _ _ => rfl
theorem exec_keyCmac {s : State} : ∀ h addr len slot out outLen, exec (.keyCmac h addr len slot out outLen) s = execKeyCmac h addr len slot out outLen s := fun _ _ _ _ _ _ => rfl
theorem exec_keySign {s : State} : ∀ h addr len slot out outLen, exec (.keySign h addr len slot out outLen) s = execKeySign h addr len slot out outLen s := fun _ _ _ _ _ _ => rfl
theorem exec_keyVerify {s : State} : ∀ h addr len, exec (.keyVerify h addr len) s = execKeyVerify h addr len s := fun _ _ _ => rfl
theorem exec_keyPubkey {s : State} : ∀ h out outLen slot, exec (.keyPubkey h out outLen slot) s = execKeyPubkey h out outLen slot s := fun _ _ _ _ => rfl
theorem exec_attestReport {s : State} : ∀ h out outLen nonce, exec (.attestReport h out outLen nonce) s = execAttestReport h out outLen nonce s := fun _ _ _ _ => rfl
theorem exec_attestExtend {s : State} : ∀ h len data, exec (.attestExtend h len data) s = execAttestExtend h len data s := fun _ _ _ => rfl
theorem exec_attestIdentity {s : State} : ∀ h out outLen, exec (.attestIdentity h out outLen) s = execAttestIdentity h out outLen s := fun _ _ _ => rfl
theorem exec_faultCfg {s : State} : ∀ h src sev event line, exec (.faultCfg h src sev event line) s = execFaultCfg h src sev event line s := fun _ _ _ _ _ => rfl
theorem exec_faultRecover {s : State} : ∀ h, exec (.faultRecover h) s = execFaultRecover h s := fun _ => rfl
theorem exec_faultLogclr {s : State} : ∀ h count, exec (.faultLogclr h count) s = execFaultLogclr h count s := fun _ _ => rfl
theorem exec_faultInject {s : State} : ∀ h src, exec (.faultInject h src) s = execFaultInject h src s := fun _ _ => rfl
theorem exec_faultRelease {s : State} : ∀ h src, exec (.faultRelease h src) s = execFaultRelease h src s := fun _ _ => rfl
theorem exec_stateRead {s : State} : ∀ h out outLen obj index count, exec (.stateRead h out outLen obj index count) s = execStateRead h out outLen obj index count s := fun _ _ _ _ _ _ => rfl
theorem exec_debugEnable {s : State} : ∀ h tag en, exec (.debugEnable h tag en) s = execDebugEnable h tag en s := fun _ _ _ => rfl
theorem exec_debugTrace {s : State} : ∀ h src enable, exec (.debugTrace h src enable) s = execDebugTrace h src enable s := fun _ _ _ => rfl
theorem exec_captureTrigger {s : State} : ∀ ch, exec (.captureTrigger ch) s = execCaptureTrigger ch s := fun _ => rfl
theorem exec_gateCutApply {s : State} : ∀ gate, exec (.gateCutApply gate) s = execGateCutApply gate s := fun _ => rfl
theorem exec_debugPortAccess {s : State} : ∀ tag op unit addr n data on, exec (.debugPortAccess tag op unit addr n data on) s = execDebugPortAccess tag op unit addr n data on s := fun _ _ _ _ _ _ _ => rfl
theorem exec_cmdDb {s : State} : ∀ ini tag n value, exec (.cmdDb ini tag n value) s = execCmdDb ini tag n value s := fun _ _ _ _ => rfl
theorem exec_cplDb {s : State} : ∀ ini tag n value, exec (.cplDb ini tag n value) s = execCplDb ini tag n value s := fun _ _ _ _ => rfl
theorem exec_ringAttach {s : State} : ∀ ini tag n size hi, exec (.ringAttach ini tag n size hi) s = execRingAttach ini tag n size hi s := fun _ _ _ _ _ => rfl
theorem exec_ringDetach {s : State} : ∀ ini tag n, exec (.ringDetach ini tag n) s = execRingDetach ini tag n s := fun _ _ _ => rfl
theorem exec_commandFetch {s : State} : ∀ ring, exec (.commandFetch ring) s = execCommandFetch ring s := fun _ => rfl
theorem exec_completionPublish {s : State} : ∀ ring, exec (.completionPublish ring) s = execCompletionPublish ring s := fun _ => rfl
theorem exec_directCmdOff {s : State} : ∀ ini tag ch epoch reserved, exec (.directCmdOff ini tag ch epoch reserved) s = execDirectCmdOff ini tag ch epoch reserved s := fun _ _ _ _ _ => rfl
theorem exec_directCmdOn {s : State} : ∀ ini tag ch epoch reserved, exec (.directCmdOn ini tag ch epoch reserved) s = execDirectCmdOn ini tag ch epoch reserved s := fun _ _ _ _ _ => rfl
theorem exec_directCmdPwm {s : State} : ∀ ini tag ch epoch reserved duty, exec (.directCmdPwm ini tag ch epoch reserved duty) s = execDirectCmdPwm ini tag ch epoch reserved duty s := fun _ _ _ _ _ _ => rfl
theorem exec_eventCfgWrite {s : State} : ∀ ini tag n value, exec (.eventCfgWrite ini tag n value) s = execEventCfgWrite ini tag n value s := fun _ _ _ _ => rfl
theorem exec_eventPendClear {s : State} : ∀ ini tag n value, exec (.eventPendClear ini tag n value) s = execEventPendClear ini tag n value s := fun _ _ _ _ => rfl
theorem exec_eventSwtrig {s : State} : ∀ ini tag n value, exec (.eventSwtrig ini tag n value) s = execEventSwtrig ini tag n value s := fun _ _ _ _ => rfl
theorem exec_registerWriteOther {s : State} : ∀ ini tag addr value, exec (.registerWriteOther ini tag addr value) s = execRegisterWriteOther ini tag addr value s := fun _ _ _ _ => rfl
theorem exec_dtLoRead {s : State} : ∀ ini, exec (.dtLoRead ini) s = execDtLoRead ini s := fun _ => rfl
theorem exec_mtagWrite {s : State} : ∀ core value, exec (.mtagWrite core value) s = execMtagWrite core value s := fun _ _ => rfl
theorem exec_memoryAccess {s : State} : ∀ ini kind addr n data more, exec (.memoryAccess ini kind addr n data more) s = execMemoryAccess ini kind addr n data more s := fun _ _ _ _ _ _ => rfl
theorem exec_railsValid {s : State} : ∀ edges, exec (.railsValid edges) s = execRailsValid edges s := fun _ => rfl
theorem exec_bootBcrApply {s : State} : ∀ tab items, exec (.bootBcrApply tab items) s = execBootBcrApply tab items s := fun _ _ => rfl
theorem exec_bootLateStages {s : State} : ∀ at0 at1, exec (.bootLateStages at0 at1) s = execBootLateStages at0 at1 s := fun _ _ => rfl
theorem exec_mpFault {s : State} : ∀ kind, exec (.mpFault kind) s = execMpFault kind s := fun _ => rfl
theorem exec_rtPairFault {s : State} : ∀ k kind, exec (.rtPairFault k kind) s = execRtPairFault k kind s := fun _ _ => rfl
theorem exec_cdieOvertemp {s : State} : ∀ temp, exec (.cdieOvertemp temp) s = execCdieOvertemp temp s := fun _ => rfl
theorem exec_safeNChange {s : State} : ∀ low, exec (.safeNChange low) s = execSafeNChange low s := fun _ => rfl
theorem exec_syncReception {s : State} : ∀ second port offset, exec (.syncReception second port offset) s = execSyncReception second port offset s := fun _ _ _ => rfl
theorem exec_pcEdge {s : State} : ∀ k a b, exec (.pcEdge k a b) s = execPcEdge k a b s := fun _ _ _ => rfl
theorem exec_pcZEdge {s : State} : ∀ k, exec (.pcZEdge k) s = execPcZEdge k s := fun _ => rfl
theorem exec_schedDispatch {s : State} : ∀ ent, exec (.schedDispatch ent) s = execSchedDispatch ent s := fun _ => rfl
theorem exec_schedActionApply {s : State} : ∀ ent smp, exec (.schedActionApply ent smp) s = execSchedActionApply ent smp s := fun _ _ => rfl
theorem exec_admitGrantEnd {s : State} : ∀ ix, exec (.admitGrantEnd ix) s = execAdmitGrantEnd ix s := fun _ => rfl
theorem exec_admitDeadline {s : State} : ∀ ix, exec (.admitDeadline ix) s = execAdmitDeadline ix s := fun _ => rfl
theorem exec_admitHold {s : State} : ∀ k, exec (.admitHold k) s = execAdmitHold k s := fun _ => rfl
theorem exec_turnOnEnd {s : State} : ∀ ch, exec (.turnOnEnd ch) s = execTurnOnEnd ch s := fun _ => rfl
theorem exec_slewDeadline {s : State} : ∀ ch, exec (.slewDeadline ch) s = execSlewDeadline ch s := fun _ => rfl
theorem exec_turnOffEnd {s : State} : ∀ ch, exec (.turnOffEnd ch) s = execTurnOffEnd ch s := fun _ => rfl
theorem exec_pwmPeriodStart {s : State} : ∀ ch, exec (.pwmPeriodStart ch) s = execPwmPeriodStart ch s := fun _ => rfl
theorem exec_pwmOffEdge {s : State} : ∀ ch, exec (.pwmOffEdge ch) s = execPwmOffEdge ch s := fun _ => rfl
theorem exec_protectOc {s : State} : ∀ ch, exec (.protectOc ch) s = execProtectOc ch s := fun _ => rfl
theorem exec_protectSc {s : State} : ∀ ch, exec (.protectSc ch) s = execProtectSc ch s := fun _ => rfl
theorem exec_protectOt {s : State} : ∀ ch tj, exec (.protectOt ch tj) s = execProtectOt ch tj s := fun _ _ => rfl
theorem exec_protectDt {s : State} : ∀ ch tj, exec (.protectDt ch tj) s = execProtectDt ch tj s := fun _ _ => rfl
theorem exec_retryRestart {s : State} : ∀ ch, exec (.retryRestart ch) s = execRetryRestart ch s := fun _ => rfl
theorem exec_retryCounterReset {s : State} : ∀ ch, exec (.retryCounterReset ch) s = execRetryCounterReset ch s := fun _ => rfl
theorem exec_currentSample {s : State} : ∀ ch cur vout tj vb, exec (.currentSample ch cur vout tj vb) s = execCurrentSample ch cur vout tj vb s := fun _ _ _ _ _ => rfl
theorem exec_openLoadOn {s : State} : ∀ ch, exec (.openLoadOn ch) s = execOpenLoadOn ch s := fun _ => rfl
theorem exec_offStateTest {s : State} : ∀ ch v1 v2, exec (.offStateTest ch v1 v2) s = execOffStateTest ch v1 v2 s := fun _ _ _ => rfl
theorem exec_buntingImbalance {s : State} : ∀ n, exec (.buntingImbalance n) s = execBuntingImbalance n s := fun _ => rfl
theorem exec_groupUndervoltage {s : State} : ∀ g mv, exec (.groupUndervoltage g mv) s = execGroupUndervoltage g mv s := fun _ _ => rfl
theorem exec_groupUvRecover {s : State} : ∀ g mv, exec (.groupUvRecover g mv) s = execGroupUvRecover g mv s := fun _ _ => rfl
theorem exec_groupOvervoltage {s : State} : ∀ g mv, exec (.groupOvervoltage g mv) s = execGroupOvervoltage g mv s := fun _ _ => rfl
theorem exec_reversePolarity {s : State} : ∀ g on, exec (.reversePolarity g on) s = execReversePolarity g on s := fun _ _ => rfl
theorem exec_dieTempHigh {s : State} : ∀ d temp, exec (.dieTempHigh d temp) s = execDieTempHigh d temp s := fun _ _ => rfl
theorem exec_cDieAbsent {s : State} : ∀ d, exec (.cDieAbsent d) s = execCDieAbsent d s := fun _ => rfl
theorem exec_cDiePresent {s : State} : ∀ d, exec (.cDiePresent d) s = execCDiePresent d s := fun _ => rfl
theorem exec_orphanHoldEnd {s : State} : ∀ ch, exec (.orphanHoldEnd ch) s = execOrphanHoldEnd ch s := fun _ => rfl
theorem exec_frameIngress {s : State} : ∀ port data good ago dma frags, exec (.frameIngress port data good ago dma frags) s = execFrameIngress port data good ago dma frags s := fun _ _ _ _ _ _ => rfl
theorem exec_cellWrite {s : State} : ∀ ix ecc, exec (.cellWrite ix ecc) s = execCellWrite ix ecc s := fun _ _ => rfl
theorem exec_cellRead {s : State} : ∀ k ecc, exec (.cellRead k ecc) s = execCellRead k ecc s := fun _ _ => rfl
theorem exec_rsqGap {s : State} : ∀ o ix c, exec (.rsqGap o ix c) s = execRsqGap o ix c s := fun _ _ _ => rfl
theorem exec_transmitStart {s : State} : ∀ p, exec (.transmitStart p) s = execTransmitStart p s := fun _ => rfl
theorem exec_transmitEnd {s : State} : ∀ p dma buf, exec (.transmitEnd p dma buf) s = execTransmitEnd p dma buf s := fun _ _ _ => rfl
theorem exec_gateEntryChange {s : State} : ∀ p, exec (.gateEntryChange p) s = execGateEntryChange p s := fun _ => rfl
theorem exec_gateListSwitch {s : State} : ∀ p, exec (.gateListSwitch p) s = execGateListSwitch p s := fun _ => rfl
theorem exec_fdbAgeout {s : State} : ∀ ix, exec (.fdbAgeout ix) s = execFdbAgeout ix s := fun _ => rfl
theorem exec_cbRecoveryReset {s : State} : ∀ ix, exec (.cbRecoveryReset ix) s = execCbRecoveryReset ix s := fun _ => rfl
theorem exec_linkTrainingDone {s : State} : ∀ port, exec (.linkTrainingDone port) s = execLinkTrainingDone port s := fun _ => rfl
theorem exec_linkTrainingTimeout {s : State} : ∀ port, exec (.linkTrainingTimeout port) s = execLinkTrainingTimeout port s := fun _ => rfl
theorem exec_linkRetryTimer {s : State} : ∀ port, exec (.linkRetryTimer port) s = execLinkRetryTimer port s := fun _ => rfl
theorem exec_linkLoss {s : State} : ∀ port, exec (.linkLoss port) s = execLinkLoss port s := fun _ => rfl
theorem exec_mdioPoll {s : State} : ∀ port up, exec (.mdioPoll port up) s = execMdioPoll port up s := fun _ _ => rfl
theorem exec_usxgmiiInbandWord {s : State} : ∀ port word, exec (.usxgmiiInbandWord port word) s = execUsxgmiiInbandWord port word s := fun _ _ => rfl
theorem exec_tc10SleepRequestRx {s : State} : ∀ port, exec (.tc10SleepRequestRx port) s = execTc10SleepRequestRx port s := fun _ => rfl
theorem exec_tc10SleepAckRx {s : State} : ∀ port, exec (.tc10SleepAckRx port) s = execTc10SleepAckRx port s := fun _ => rfl
theorem exec_tc10SleepAbort {s : State} : ∀ port, exec (.tc10SleepAbort port) s = execTc10SleepAbort port s := fun _ => rfl
theorem exec_tc10WakeupRx {s : State} : ∀ port, exec (.tc10WakeupRx port) s = execTc10WakeupRx port s := fun _ => rfl
theorem exec_canFrameReceive {s : State} : ∀ c frame ago, exec (.canFrameReceive c frame ago) s = execCanFrameReceive c frame ago s := fun _ _ _ => rfl
theorem exec_canTxStart {s : State} : ∀ c, exec (.canTxStart c) s = execCanTxStart c s := fun _ => rfl
theorem exec_canTxDone {s : State} : ∀ c tdc, exec (.canTxDone c tdc) s = execCanTxDone c tdc s := fun _ _ => rfl
theorem exec_canTxError {s : State} : ∀ c kind exc, exec (.canTxError c kind exc) s = execCanTxError c kind exc s := fun _ _ _ => rfl
theorem exec_canBusIntegration {s : State} : ∀ c, exec (.canBusIntegration c) s = execCanBusIntegration c s := fun _ => rfl
theorem exec_canModeFrameEnd {s : State} : ∀ c, exec (.canModeFrameEnd c) s = execCanModeFrameEnd c s := fun _ => rfl
theorem exec_canBusoffRecoveryStart {s : State} : ∀ c, exec (.canBusoffRecoveryStart c) s = execCanBusoffRecoveryStart c s := fun _ => rfl
theorem exec_canBusoffRecoveryEnd {s : State} : ∀ c, exec (.canBusoffRecoveryEnd c) s = execCanBusoffRecoveryEnd c s := fun _ => rfl
theorem exec_canRefmsgTimeout {s : State} : ∀ c, exec (.canRefmsgTimeout c) s = execCanRefmsgTimeout c s := fun _ => rfl
theorem exec_freshnessSave {s : State} : ∀ ix, exec (.freshnessSave ix) s = execFreshnessSave ix s := fun _ => rfl
theorem exec_d2dError {s : State} : ∀ link, exec (.d2dError link) s = execD2dError link s := fun _ => rfl
theorem exec_linSlotStart {s : State} : ∀ l err, exec (.linSlotStart l err) s = execLinSlotStart l err s := fun _ _ => rfl
theorem exec_linResponseRx {s : State} : ∀ l data code ago, exec (.linResponseRx l data code ago) s = execLinResponseRx l data code ago s := fun _ _ _ _ => rfl
theorem exec_linNoResponse {s : State} : ∀ l, exec (.linNoResponse l) s = execLinNoResponse l s := fun _ => rfl
theorem exec_wakeDetect {s : State} : ∀ src t n, exec (.wakeDetect src t n) s = execWakeDetect src t n s := fun _ _ _ => rfl
theorem exec_segmentSleepEntry {s : State} : ∀ sg, exec (.segmentSleepEntry sg) s = execSegmentSleepEntry sg s := fun _ => rfl
theorem exec_pennantReadyRx {s : State} : ∀ sg seq node ready, exec (.pennantReadyRx sg seq node ready) s = execPennantReadyRx sg seq node ready s := fun _ _ _ _ => rfl
theorem exec_pennantReadyTimeout {s : State} : ∀ sg, exec (.pennantReadyTimeout sg) s = execPennantReadyTimeout sg s := fun _ => rfl
theorem exec_pennantCommitPoint {s : State} : ∀ sg, exec (.pennantCommitPoint sg) s = execPennantCommitPoint sg s := fun _ => rfl
theorem exec_pennantRetry {s : State} : ∀ sg, exec (.pennantRetry sg) s = execPennantRetry sg s := fun _ => rfl
theorem exec_wakeIndicateDeadline {s : State} : ∀ ring ctag, exec (.wakeIndicateDeadline ring ctag) s = execWakeIndicateDeadline ring ctag s := fun _ _ => rfl
theorem exec_sleepWettingPulse {s : State} : ∀ mask, exec (.sleepWettingPulse mask) s = execSleepWettingPulse mask s := fun _ => rfl
theorem exec_bridgeLinAgeExpiry {s : State} : ∀ l fid, exec (.bridgeLinAgeExpiry l fid) s = execBridgeLinAgeExpiry l fid s := fun _ _ => rfl
theorem exec_sp19AvtpduReceive {s : State} : ∀ vid uid good msgs, exec (.sp19AvtpduReceive vid uid good msgs) s = execSp19AvtpduReceive vid uid good msgs s := fun _ _ _ _ => rfl
theorem exec_keoreTaskRelease {s : State} : ∀ task, exec (.keoreTaskRelease task) s = execKeoreTaskRelease task s := fun _ => rfl
theorem exec_retainPassEnd {s : State} : ∀ good, exec (.retainPassEnd good) s = execRetainPassEnd good s := fun _ => rfl
theorem exec_inputLevelAccept {s : State} : ∀ kind ix level, exec (.inputLevelAccept kind ix level) s = execInputLevelAccept kind ix level s := fun _ _ _ => rfl
theorem exec_inputStuckDetect {s : State} : ∀ n, exec (.inputStuckDetect n) s = execInputStuckDetect n s := fun _ => rfl
theorem exec_chatterWindowEnd {s : State} : ∀ n, exec (.chatterWindowEnd n) s = execChatterWindowEnd n s := fun _ => rfl
theorem exec_inputUnset {s : State} : ∀ kind ix, exec (.inputUnset kind ix) s = execInputUnset kind ix s := fun _ _ => rfl
theorem exec_adcConversion {s : State} : ∀ c an code, exec (.adcConversion c an code) s = execAdcConversion c an code s := fun _ _ _ => rfl
theorem exec_isoBlankingEnd {s : State} : ∀ ch, exec (.isoBlankingEnd ch) s = execIsoBlankingEnd ch s := fun _ => rfl
theorem exec_isoMismatchDetect {s : State} : ∀ ch, exec (.isoMismatchDetect ch) s = execIsoMismatchDetect ch s := fun _ => rfl
theorem exec_isoOverload {s : State} : ∀ ch hot, exec (.isoOverload ch hot) s = execIsoOverload ch hot s := fun _ _ => rfl
theorem exec_vfieldOk {s : State} : ∀ mv, exec (.vfieldOk mv) s = execVfieldOk mv s := fun _ => rfl
theorem exec_vfieldLoss {s : State} : ∀ mv, exec (.vfieldLoss mv) s = execVfieldLoss mv s := fun _ => rfl
theorem exec_fbPoll {s : State} : ∀ die code hot, exec (.fbPoll die code hot) s = execFbPoll die code hot s := fun _ _ _ => rfl
theorem exec_fbPostedWrite {s : State} : ∀ ini tag ch word code repeats, exec (.fbPostedWrite ini tag ch word code repeats) s = execFbPostedWrite ini tag ch word code repeats s := fun _ _ _ _ _ _ => rfl
theorem exec_fbDataBurst {s : State} : ∀ ch smp far code repeats, exec (.fbDataBurst ch smp far code repeats) s = execFbDataBurst ch smp far code repeats s := fun _ _ _ _ _ => rfl
theorem exec_eventPulse {s : State} : ∀ n, exec (.eventPulse n) s = execEventPulse n s := fun _ => rfl
theorem exec_longRunningOperationEnd {s : State} : ∀ ring ctag good, exec (.longRunningOperationEnd ring ctag good) s = execLongRunningOperationEnd ring ctag good s := fun _ _ _ => rfl
theorem exec_canReceiveError {s : State} : ∀ c kind dominant, exec (.canReceiveError c kind dominant) s = execCanReceiveError c kind dominant s := fun _ _ _ => rfl
theorem exec_currentLimiting {s : State} : ∀ ch ma mv, exec (.currentLimiting ch ma mv) s = execCurrentLimiting ch ma mv s := fun _ _ _ => rfl
theorem exec_dieTempNormal {s : State} : ∀ d temp, exec (.dieTempNormal d temp) s = execDieTempNormal d temp s := fun _ _ => rfl
theorem exec_bestMasterClockDecision {s : State} : ∀ second self port id, exec (.bestMasterClockDecision second self port id) s = execBestMasterClockDecision second self port id s := fun _ _ _ _ => rfl
theorem exec_preemptionVerification {s : State} : ∀ p good, exec (.preemptionVerification p good) s = execPreemptionVerification p good s := fun _ _ => rfl
theorem exec_netWakeDeadline {s : State} : ∀ port, exec (.netWakeDeadline port) s = execNetWakeDeadline port s := fun _ => rfl
theorem exec_machineModeEntry {s : State} : ∀ core, exec (.machineModeEntry core) s = execMachineModeEntry core s := fun _ => rfl
theorem exec_machineModeReturn {s : State} : ∀ core, exec (.machineModeReturn core) s = execMachineModeReturn core s := fun _ => rfl
theorem exec_traceSyncPacket {s : State} : ∀ src, exec (.traceSyncPacket src) s = execTraceSyncPacket src s := fun _ => rfl
theorem exec_profileTransitionEnd {s : State} : exec (.profileTransitionEnd) s = execProfileTransitionEnd s := rfl
theorem exec_keoreStartComplete {s : State} : exec (.keoreStartComplete) s = execKeoreStartComplete s := rfl
theorem exec_exchangePrepared {s : State} : exec (.exchangePrepared) s = execExchangePrepared s := rfl
theorem exec_exchangeCommit {s : State} : exec (.exchangeCommit) s = execExchangeCommit s := rfl
theorem exec_exchangeSwapEnd {s : State} : exec (.exchangeSwapEnd) s = execExchangeSwapEnd s := rfl
theorem exec_exchangeTimeout {s : State} : exec (.exchangeTimeout) s = execExchangeTimeout s := rfl
theorem exec_bezelFillDone {s : State} : exec (.bezelFillDone) s = execBezelFillDone s := rfl
theorem exec_mpCommandStart {s : State} : exec (.mpCommandStart) s = execMpCommandStart s := rfl
theorem exec_vbatRise {s : State} : exec (.vbatRise) s = execVbatRise s := rfl
theorem exec_powerOnReset {s : State} : exec (.powerOnReset) s = execPowerOnReset s := rfl
theorem exec_porstNAssert {s : State} : exec (.porstNAssert) s = execPorstNAssert s := rfl
theorem exec_resetNExternal {s : State} : exec (.resetNExternal) s = execResetNExternal s := rfl
theorem exec_faultResetDemand {s : State} : exec (.faultResetDemand) s = execFaultResetDemand s := rfl
theorem exec_bootStart {s : State} : exec (.bootStart) s = execBootStart s := rfl
theorem exec_bootFusesRead {s : State} : exec (.bootFusesRead) s = execBootFusesRead s := rfl
theorem exec_bootPatchApply {s : State} : exec (.bootPatchApply) s = execBootPatchApply s := rfl
theorem exec_bootKeorePrepare {s : State} : exec (.bootKeorePrepare) s = execBootKeorePrepare s := rfl
theorem exec_bootFirstRelease {s : State} : exec (.bootFirstRelease) s = execBootFirstRelease s := rfl
theorem exec_clkLoss {s : State} : exec (.clkLoss) s = execClkLoss s := rfl
theorem exec_wdiToggle {s : State} : exec (.wdiToggle) s = execWdiToggle s := rfl
theorem exec_wdiTimeout {s : State} : exec (.wdiTimeout) s = execWdiTimeout s := rfl
theorem exec_syncTimeout {s : State} : exec (.syncTimeout) s = execSyncTimeout s := rfl
theorem exec_holdoverTimeout {s : State} : exec (.holdoverTimeout) s = execHoldoverTimeout s := rfl
theorem exec_admitRefill {s : State} : exec (.admitRefill) s = execAdmitRefill s := rfl
theorem exec_admitWindowOpen {s : State} : exec (.admitWindowOpen) s = execAdmitWindowOpen s := rfl
theorem exec_safeLineDemand {s : State} : exec (.safeLineDemand) s = execSafeLineDemand s := rfl
theorem exec_leakAudit {s : State} : exec (.leakAudit) s = execLeakAudit s := rfl
theorem exec_fabricInitStart {s : State} : exec (.fabricInitStart) s = execFabricInitStart s := rfl
theorem exec_fabricInitDiscard {s : State} : exec (.fabricInitDiscard) s = execFabricInitDiscard s := rfl
theorem exec_fabricInitRebuild {s : State} : exec (.fabricInitRebuild) s = execFabricInitRebuild s := rfl
theorem exec_fabricInitEnd {s : State} : exec (.fabricInitEnd) s = execFabricInitEnd s := rfl
theorem exec_sleepTimer {s : State} : exec (.sleepTimer) s = execSleepTimer s := rfl
theorem exec_moduleSleepLatchCheck {s : State} : exec (.moduleSleepLatchCheck) s = execModuleSleepLatchCheck s := rfl
theorem exec_moduleSleepPowerOff {s : State} : exec (.moduleSleepPowerOff) s = execModuleSleepPowerOff s := rfl
theorem exec_bridgeLookup {s : State} : exec (.bridgeLookup) s = execBridgeLookup s := rfl
theorem exec_retainPassStart {s : State} : exec (.retainPassStart) s = execRetainPassStart s := rfl
theorem exec_isoLinkSilent {s : State} : exec (.isoLinkSilent) s = execIsoLinkSilent s := rfl
theorem exec_isoOrphanTimeout {s : State} : exec (.isoOrphanTimeout) s = execIsoOrphanTimeout s := rfl
theorem exec_tenancyTableSave {s : State} : exec (.tenancyTableSave) s = execTenancyTableSave s := rfl
theorem exec_faultReactionStart {s : State} : exec (.faultReactionStart) s = execFaultReactionStart s := rfl
theorem exec_faultLogMirror {s : State} : exec (.faultLogMirror) s = execFaultLogMirror s := rfl
theorem exec_barrierLinkReturn {s : State} : exec (.barrierLinkReturn) s = execBarrierLinkReturn s := rfl
theorem exec_gptpSyncTransmit {s : State} : ∀ second, exec (.gptpSyncTransmit second) s = execGptpSyncTransmit second s := fun _ => rfl

end Sys2Proof.Machine
end

