-- ==== Sys2Proof/Laws/Tables.lean ====
section
/-! SUPPORT. Laws of the tables of units and of memory: what a read gives after a write, and that every memory operation keeps the
canonical form. -/
namespace Sys2Proof.Machine
open Sys2Proof

theorem look?_put_same {α : Type} (t : Tab α) (k : Nat) (v : α) : look? (put t k v) k = some v := by
  induction t with
  | nil => simp [put, look?]
  | cons p r ih =>
    simp only [put]
    split
    · simp [look?]
    · split
      · simp [look?]
      · simp [look?, *]

theorem look?_put_ne {α : Type} (t : Tab α) {k j : Nat} (v : α) (h : j ≠ k) : look? (put t k v) j = look? t j := by
  induction t with
  | nil => simp [put, look?, Ne.symm h]
  | cons p r ih =>
    simp only [put]
    split
    · simp [look?, Ne.symm h]
    · split
      · next e => subst e; simp [look?, Ne.symm h]
      · simp [look?, ih]

@[simp] theorem look_put_same {α : Type} (d : Nat → α) (t : Tab α) (k : Nat) (v : α) : look d (put t k v) k = v := by
  simp [look, look?_put_same]

theorem look_put_ne {α : Type} (d : Nat → α) (t : Tab α) {k j : Nat} (v : α) (h : j ≠ k) :
    look d (put t k v) j = look d t j := by
  simp [look, look?_put_ne t v h]

/-- The last write of a unit stands. -/
@[simp] theorem put_put {α : Type} (t : Tab α) (k : Nat) (v w : α) : put (put t k v) k w = put t k w := by
  induction t with
  | nil => simp [put]
  | cons p r ih =>
    by_cases h : k < p.1
    · simp [put, h]
    · by_cases e : p.1 = k
      · simp [put, e]
      · simp [put, h, e, ih]

/-! ### Memory -/

theorem memGet_of_wfFrom (m : List Host.Cell) : ∀ lo x, Memory.wfFrom lo m = true → x < lo → memGet m x = memDefault := by
  induction m with
  | nil => intros; rfl
  | cons c r ih =>
    intro lo x h hx
    simp only [Memory.wfFrom, Bool.and_eq_true, decide_eq_true_eq] at h
    have : c.1 ≠ x := by omega
    simp only [memGet, this, if_false]
    exact ih (c.1 + 1) x h.2 (by omega)

/-- A byte written is read back. -/
theorem memGet_memPut_same (m : List Host.Cell) (x : Nat) (v : Byte) : ∀ lo, Memory.wfFrom lo m = true → memGet (memPut m x v) x = v := by
  induction m with
  | nil => intro _ _; by_cases h : v = memDefault <;> simp [memPut, memGet, h]
  | cons c r ih =>
    intro lo h
    simp only [Memory.wfFrom, Bool.and_eq_true, decide_eq_true_eq] at h
    by_cases hx : x < c.1
    · have hn : c.1 ≠ x := by omega
      by_cases hv : v = memDefault
      · simp only [memPut, hx, hv, if_true, memGet, hn, if_false]
        exact memGet_of_wfFrom r (c.1 + 1) x h.2 (by omega)
      · simp [memPut, hx, hv, memGet]
    · by_cases he : c.1 = x
      · by_cases hv : v = memDefault
        · simp only [memPut, he, hv, if_true, Nat.lt_irrefl, if_false]
          exact memGet_of_wfFrom r (c.1 + 1) x h.2 (by omega)
        · simp [memPut, he, hv, memGet]
      · simp only [memPut, hx, he, if_false, memGet]
        exact ih _ h.2

/-- A write leaves every other byte alone. -/
theorem memGet_memPut_ne (m : List Host.Cell) {x y : Nat} (v : Byte) (hy : y ≠ x) : memGet (memPut m x v) y = memGet m y := by
  induction m with
  | nil => by_cases h : v = memDefault <;> simp [memPut, memGet, h, Ne.symm hy]
  | cons c r ih =>
    by_cases hx : x < c.1
    · by_cases hv : v = memDefault <;> simp [memPut, hx, hv, memGet, Ne.symm hy]
    · by_cases he : c.1 = x
      · have : c.1 ≠ y := by omega
        by_cases hv : v = memDefault
        · simp [memPut, he, hv, memGet, Ne.symm hy]
        · simp [memPut, he, hv, memGet, Ne.symm hy]
      · simp only [memPut, hx, he, if_false, memGet, ih]

theorem memPut_wfFrom (m : List Host.Cell) (x : Nat) (v : Byte) :
    ∀ lo, lo ≤ x → Memory.wfFrom lo m = true → Memory.wfFrom lo (memPut m x v) = true := by
  induction m with
  | nil => intro lo hl _; by_cases h : v = memDefault <;> simp [memPut, Memory.wfFrom, h, hl]
  | cons c r ih =>
    intro lo hl h
    have h' := h
    simp only [Memory.wfFrom, Bool.and_eq_true, decide_eq_true_eq] at h
    by_cases hx : x < c.1
    · by_cases hv : v = memDefault
      · simpa [memPut, hx, hv] using h'
      · have : x + 1 ≤ c.1 := hx
        simp [memPut, hx, hv, Memory.wfFrom, hl, this, h.1.2, h.2]
    · by_cases he : c.1 = x
      · have up : ∀ (l : List Host.Cell) (a b : Nat), a ≤ b → Memory.wfFrom b l = true → Memory.wfFrom a l = true := by
          intro l a b hab hl
          cases l with
          | nil => rfl
          | cons d q =>
            simp only [Memory.wfFrom, Bool.and_eq_true, decide_eq_true_eq] at hl ⊢
            exact ⟨⟨by omega, hl.1.2⟩, hl.2⟩
        by_cases hv : v = memDefault
        · simp only [memPut, he, hv, if_true, Nat.lt_irrefl, if_false]
          exact up r lo (c.1 + 1) (by omega) h.2
        · simp only [memPut, he, hv, if_true, if_false, Memory.wfFrom, Bool.and_eq_true, decide_eq_true_eq, Nat.lt_irrefl]
          refine ⟨⟨by omega, by simpa using hv⟩, ?_⟩
          have := h.2; rwa [he] at this
      · simp only [memPut, hx, he, if_false, Memory.wfFrom, Bool.and_eq_true, decide_eq_true_eq]
        exact ⟨h.1, ih (c.1 + 1) (by omega) h.2⟩

/-- One byte written keeps the canonical form. -/
theorem memPut_wf (m : List Host.Cell) (x : Nat) (v : Byte) (h : Memory.wf m = true) : Memory.wf (memPut m x v) = true :=
  memPut_wfFrom m x v 0 (Nat.zero_le x) h

/-- Bytes written keep the canonical form. -/
theorem memPutAll_wf (bs : List Byte) : ∀ (m : List Host.Cell) (x : Nat), Memory.wf m = true → Memory.wf (memPutAll m x bs) = true := by
  induction bs with
  | nil => intro m x h; exact h
  | cons b r ih => intro m x h; exact ih _ _ (memPut_wf m x b h)

theorem filter_wfFrom (p : Host.Cell → Bool) (m : List Host.Cell) :
    ∀ lo, Memory.wfFrom lo m = true → Memory.wfFrom lo (m.filter p) = true := by
  have up : ∀ (l : List Host.Cell) (a b : Nat), a ≤ b → Memory.wfFrom b l = true → Memory.wfFrom a l = true := by
    intro l a b hab hl
    cases l with
    | nil => rfl
    | cons d q =>
      simp only [Memory.wfFrom, Bool.and_eq_true, decide_eq_true_eq] at hl ⊢
      exact ⟨⟨by omega, hl.1.2⟩, hl.2⟩
  induction m with
  | nil => intros; rfl
  | cons c r ih =>
    intro lo h
    simp only [Memory.wfFrom, Bool.and_eq_true, decide_eq_true_eq] at h
    by_cases hp : p c
    · simp only [List.filter_cons, hp, if_true, Memory.wfFrom, Bool.and_eq_true, decide_eq_true_eq]
      exact ⟨h.1, ih _ h.2⟩
    · simp only [List.filter_cons, hp, if_false, Bool.false_eq_true]
      exact up _ lo (c.1 + 1) (by omega) (ih _ h.2)

/-- A zero fill keeps the canonical form. -/
theorem memClear_wf (m : List Host.Cell) (lo hi : Nat) (h : Memory.wf m = true) : Memory.wf (memClear m lo hi) = true :=
  filter_wfFrom _ m 0 h

/-- Bytes written one after the other: outside them memory reads as before. -/
theorem memGet_memPutAll_out (bs : List Byte) : ∀ (m : List Host.Cell) (x y : Nat), y < x ∨ x + bs.length ≤ y →
    memGet (memPutAll m x bs) y = memGet m y := by
  induction bs with
  | nil => intros; rfl
  | cons b r ih =>
    intro m x y h
    simp only [List.length_cons] at h
    rw [memPutAll, ih _ _ _ (by omega), memGet_memPut_ne _ _ (by omega)]

/-- Byte `i` of the bytes written is read back. -/
theorem memGet_memPutAll_in (bs : List Byte) : ∀ (m : List Host.Cell) (x i : Nat), Memory.wf m = true → (h : i < bs.length) →
    memGet (memPutAll m x bs) (x + i) = bs[i] := by
  induction bs with
  | nil => intro m x i _ h; exact absurd h (Nat.not_lt_zero _)
  | cons b r ih =>
    intro m x i hm h
    cases i with
    | zero =>
      rw [memPutAll, memGet_memPutAll_out _ _ _ _ (by omega)]
      exact memGet_memPut_same m x b 0 hm
    | succ j =>
      rw [memPutAll, show x + (j + 1) = (x + 1) + j by omega, ih _ _ _ (memPut_wf _ _ _ hm) (by simpa using h)]
      rfl

end Sys2Proof.Machine
end

