-- ==== Sys2Proof/Laws/Outcome.lean ====
section
/-! SUPPORT. What a command's outcome does to memory, and the combinators the frame laws go through. -/
namespace Sys2Proof.Machine
open Sys2Proof

@[simp] theorem ite_mem (c : Prop) [Decidable c] (a b : State) : (if c then a else b).mem = if c then a.mem else b.mem := apply_ite State.mem c a b

@[simp] theorem foldl_mem {α : Type} (f : State → α → State) (h : ∀ t a, (f t a).mem = t.mem) (l : List α) (s : State) :
    (l.foldl f s).mem = s.mem := by
  induction l generalizing s with
  | nil => rfl
  | cons a r ih => simp [ih, h]

@[simp] theorem foldl_wf {α : Type} (f : State → α → State) (h : ∀ t a, Memory.wf t.mem = true → Memory.wf (f t a).mem = true) (l : List α)
    (s : State) (hs : Memory.wf s.mem = true) : Memory.wf (l.foldl f s).mem = true := by
  induction l generalizing s with
  | nil => exact hs
  | cons a r ih => exact ih _ (h _ _ hs)

theorem putBack_wf (l : List (Nat × Nat)) (old : List Host.Cell) (m : List Host.Cell) (h : Memory.wf m = true) :
    Memory.wf (l.foldl (fun m p => memPutAll m (p.1 * 8) (memRead old (p.1 * 8) 8)) m) = true := by
  induction l generalizing m with
  | nil => exact h
  | cons a r ih => exact ih _ (memPutAll_wf _ _ _ h)

/-- A command's outcome leaves memory as it was in `s`. -/
def outMem (s : State) (o : Out) : Prop := ∀ t, o = .next t → t.mem = s.mem

/-- The memory of a command's outcome is in canonical form. -/
def outWf (o : Out) : Prop := ∀ t, o = .next t → Memory.wf t.mem = true

@[simp] theorem outMem_next (s t : State) : outMem s (.next t) ↔ t.mem = s.mem := by simp [outMem]
@[simp] theorem outMem_fault (s : State) (f : Fault) : outMem s (.fault f) := by simp [outMem]
@[simp] theorem outWf_next (t : State) : outWf (.next t) ↔ Memory.wf t.mem = true := by simp [outWf]
@[simp] theorem outWf_fault (f : Fault) : outWf (.fault f) := by simp [outWf]

end Sys2Proof.Machine
end

