-- ==== Sys2Proof/Laws/FrameUnits.lean ====
section
/-! SUPPORT. What the operations of the fault collector, memory, completions, the admission table and the channels do to memory: an operation that stores nothing leaves it as it
was (_mem); one that stores keeps its canonical form (_wf). -/
namespace Sys2Proof.Machine
open Sys2Proof

@[simp] theorem State.draw_mem (s : State) :
    (State.draw s).2.mem = s.mem := by simp only [State.draw]
@[simp] theorem State.setOwner_mem (s : State) (kind : Nat) (i : Nat) (tag : Nat) :
    (State.setOwner s kind i tag).mem = s.mem := by simp only [State.setOwner]
@[simp] theorem State.pulse_mem (s : State) (num : Nat) :
    (State.pulse s num).mem = s.mem := by simp [State.pulse]
@[simp] theorem State.demandSafe_mem (s : State) (src : Nat) :
    (State.demandSafe s src).mem = s.mem := by simp only [State.demandSafe]
@[simp] theorem State.waitReaction_mem (s : State) (p : Nat × Nat) :
    (State.waitReaction s p).mem = s.mem := by simp [State.waitReaction]
@[simp] theorem State.noteRaise_mem (s : State) (src : Nat) :
    (State.noteRaise s src).mem = s.mem := by simp [State.noteRaise]
@[simp] theorem State.logOvf_mem (s : State) :
    (State.logOvf s).mem = s.mem := by simp [State.logOvf]
@[simp] theorem State.raise_mem (s : State) (src : Nat) (info : Nat) (inj : Bool) :
    (State.raise s src info inj).mem = s.mem := by unfold State.raise; split <;> simp
@[simp] theorem State.condition_mem (s : State) (src : Nat) (info : Nat) (on : Bool) :
    (State.condition s src info on).mem = s.mem := by simp [State.condition]
@[simp] theorem State.violate_mem (s : State) (ini : Nat) (tag : Nat) (kind : Nat) (a : Nat) :
    (State.violate s ini tag kind a).mem = s.mem := by simp [State.violate]
@[simp] theorem State.scrub_mem (s : State) (arg : List (Nat × Nat)) :
    (State.scrub s arg).mem = s.mem := by
  induction arg generalizing s with
  | nil => rfl
  | cons p r ih => simp only [State.scrub]; split <;> simp [ih]
@[simp] theorem State.load_mem (s : State) (a : Nat) (num : Nat) (quiet : Bool) :
    (State.load s a num quiet).2.mem = s.mem := by unfold State.load; simp; (repeat' split) <;> simp_all
@[simp] theorem State.store_wf (s : State) (a : Nat) (bs : List Byte) (h : Memory.wf s.mem = true) :
    Memory.wf (State.store s a bs).2.mem = true := by
  unfold State.store; simp only; split <;> simp [putBack_wf, memPutAll_wf, h]
@[simp] theorem State.writeOut_wf (s : State) (a : Nat) (bs : List Byte) (h : Memory.wf s.mem = true) :
    Memory.wf (State.writeOut s a bs).mem = true := State.store_wf s a bs h
@[simp] theorem State.setRing_mem (s : State) (num : Nat) (rr : Ring) :
    (State.setRing s num rr).mem = s.mem := by simp only [State.setRing]
@[simp] theorem State.drained_mem (s : State) (ring : Nat) :
    (State.drained s ring).mem = s.mem := by simp [State.drained]
@[simp] theorem State.release_mem (s : State) (ring : Nat) (ctag : Nat) (dup : Bool) :
    (State.release s ring ctag dup).mem = s.mem := by simp [State.release]
@[simp] theorem State.replyAt_mem (s : State) (hd : Hdr) (st : Status) (detail : Nat) (result : Nat) (time : Nat) (final : Bool) (dup : Bool) :
    (State.replyAt s hd st detail result time final dup).mem = s.mem := by simp [State.replyAt]
@[simp] theorem State.reply_mem (s : State) (hd : Hdr) (st : Status) (detail : Nat) (result : Nat) (final : Bool) :
    (State.reply s hd st detail result final).mem = s.mem := by simp [State.reply]
@[simp] theorem State.ok_mem (s : State) (hd : Hdr) (result : Nat) :
    (State.ok s hd result).mem = s.mem := by simp [State.ok]
@[simp] theorem State.fail_mem (s : State) (hd : Hdr) (st : Status) (detail : Nat) (result : Nat) :
    (State.fail s hd st detail result).mem = s.mem := by simp [State.fail]
@[simp] theorem State.accepted_mem (s : State) (hd : Hdr) (detail : Nat) :
    (State.accepted s hd detail).mem = s.mem := by simp [State.accepted]
@[simp] theorem State.inflightState_mem (s : State) (hd : Hdr) (st : Nat) :
    (State.inflightState s hd st).mem = s.mem := by simp only [State.inflightState]
@[simp] theorem State.waits_mem (s : State) (hd : Hdr) :
    (State.waits s hd).mem = s.mem := by simp [State.waits]
@[simp] theorem State.guarded_mem (s : State) (hd : Hdr) (cs : List Chk) (k : State) (hk : k.mem = s.mem) :
    (State.guarded s hd cs k).mem = s.mem := by
  unfold State.guarded; split <;> simp_all
@[simp] theorem State.guarded_wf (s : State) (hd : Hdr) (cs : List Chk) (k : State) (hk : Memory.wf k.mem = true) (h : Memory.wf s.mem = true) :
    Memory.wf (State.guarded s hd cs k).mem = true := by
  unfold State.guarded; split <;> simp_all
@[simp] theorem hwCmd_mem (s : State) (k : State) (hk : k.mem = s.mem) :
    outMem s (hwCmd s k) := by unfold hwCmd; simp; simp_all
@[simp] theorem hwCmd_wf (s : State) (k : State) (hk : Memory.wf k.mem = true) (h : Memory.wf s.mem = true) :
    outWf (hwCmd s k) := by unfold hwCmd; simp; (repeat' split) <;> simp_all
@[simp] theorem fwCmd_mem (hd : Hdr) (s : State) (k : State) (hk : k.mem = s.mem) :
    outMem s (fwCmd hd s k) := by unfold fwCmd; simp; simp_all
@[simp] theorem fwCmd_wf (hd : Hdr) (s : State) (k : State) (hk : Memory.wf k.mem = true) (h : Memory.wf s.mem = true) :
    outWf (fwCmd hd s k) := by unfold fwCmd; simp; (repeat' split) <;> simp_all
@[simp] theorem Out.orElse_mem (a0 : Out) (s : State) (ho : outMem s a0) :
    (Out.orElse a0 s).mem = s.mem := by unfold Out.orElse; split <;> simp_all [outMem]
@[simp] theorem Out.orElse_wf (a0 : Out) (s : State) (ho : outWf a0) (h : Memory.wf s.mem = true) :
    Memory.wf (Out.orElse a0 s).mem = true := by unfold Out.orElse; split <;> simp_all [outWf]
@[simp] theorem unitEvent_mem (b : Bool) (s k : State) (hk : k.mem = s.mem) :
    outMem s (unitEvent b k) := by unfold unitEvent; split <;> simp [hk]
@[simp] theorem unitEvent_wf (b : Bool) (k : State) (hk : Memory.wf k.mem = true) :
    outWf (unitEvent b k) := by unfold unitEvent; split <;> simp [hk]
@[simp] theorem State.withDesc_mem (s : State) (hd : Hdr) (addr : Nat) (len : Nat) (pre : List Chk) (lenOk : Bool) (key : List Byte → State → State) (hf6 : ∀ x0 x1, (key x0 x1).mem = x1.mem) :
    (State.withDesc s hd addr len pre lenOk key).mem = s.mem := by
  unfold State.withDesc; split
  · simp
  · apply State.guarded_mem; split
    all_goals (rename_i e; have q := congrArg (fun r => r.2.mem) e; simp at q; simp_all)
@[simp] theorem State.withDesc_wf (s : State) (hd : Hdr) (addr : Nat) (len : Nat) (pre : List Chk) (lenOk : Bool) (key : List Byte → State → State) (hf6 : ∀ x0 x1, Memory.wf x1.mem = true → Memory.wf (key x0 x1).mem = true) (h : Memory.wf s.mem = true) :
    Memory.wf (State.withDesc s hd addr len pre lenOk key).mem = true := by
  unfold State.withDesc; split
  · simp [h]
  · refine State.guarded_wf _ _ _ _ ?_ h; split
    all_goals (rename_i e; have q := congrArg (fun r => r.2.mem) e; simp at q; simp_all)
@[simp] theorem State.addOp_mem (s : State) (o : Op) :
    (State.addOp s o).mem = s.mem := by simp only [State.addOp]
@[simp] theorem State.dropOp_mem (s : State) (hd : Hdr) :
    (State.dropOp s hd).mem = s.mem := by simp only [State.dropOp]
@[simp] theorem State.setBudget_mem (s : State) (key : Nat) (b : Budget) :
    (State.setBudget s key b).mem = s.mem := by simp only [State.setBudget]
@[simp] theorem State.setAdmEnt_mem (s : State) (i : Nat) (ent : AdmEnt) :
    (State.setAdmEnt s i ent).mem = s.mem := by simp only [State.setAdmEnt]
@[simp] theorem State.freeEntry_mem (s : State) (i : Nat) :
    (State.freeEntry s i).mem = s.mem := by simp [State.freeEntry]
@[simp] theorem State.freeHandle_mem (s : State) (hd : Nat) :
    (State.freeHandle s hd).mem = s.mem := by unfold State.freeHandle; split <;> simp
@[simp] theorem State.freeOutside_mem (s : State) (ch : Nat) :
    (State.freeOutside s ch).mem = s.mem := by unfold State.freeOutside; split <;> simp
@[simp] theorem State.grantEntry_mem (s : State) (i : Nat) :
    (State.grantEntry s i).mem = s.mem := by simp [State.grantEntry]
@[simp] theorem State.setSent_mem (s : State) (num : Nat) (ent : SEnt) :
    (State.setSent s num ent).mem = s.mem := by simp only [State.setSent]
@[simp] theorem State.schedOutcome_mem (s : State) (num : Nat) (code : Nat) :
    (State.schedOutcome s num code).mem = s.mem := by simp [State.schedOutcome]
@[simp] theorem State.firingEnds_mem (s : State) (num : Nat) (code : Nat) :
    (State.firingEnds s num code).mem = s.mem := by simp [State.firingEnds]
@[simp] theorem State.setChan_mem (s : State) (num : Nat) (c : Chan) :
    (State.setChan s num c).mem = s.mem := by simp only [State.setChan]
@[simp] theorem State.setBunt_mem (s : State) (num : Nat) (b : BuntPos) :
    (State.setBunt s num b).mem = s.mem := by simp only [State.setBunt]
@[simp] theorem State.setPdie_mem (s : State) (d : Nat) (val : Die) :
    (State.setPdie s d val).mem = s.mem := by simp only [State.setPdie]
@[simp] theorem State.setGrp_mem (s : State) (g : Nat) (val : Group) :
    (State.setGrp s g val).mem = s.mem := by simp only [State.setGrp]
@[simp] theorem State.modCh_mem (s : State) (num : Nat) (f : Chan → Chan) :
    (State.modCh s num f).mem = s.mem := by unfold State.modCh; exact foldl_mem _ (by simp) _ _
@[simp] theorem State.realign_mem (s : State) (d : Nat) :
    (State.realign s d).mem = s.mem := by simp [State.realign]
@[simp] theorem State.refuseCount_mem (s : State) (num : Nat) :
    (State.refuseCount s num).mem = s.mem := by simp [State.refuseCount]
@[simp] theorem State.dcres_mem (s : State) (num : Nat) (code : Nat) :
    (State.dcres s num code).mem = s.mem := by simp [State.dcres]
@[simp] theorem State.endWait_mem (s : State) (num : Nat) (rr : Rep) :
    (State.endWait s num rr).mem = s.mem := by unfold State.endWait; split <;> simp
@[simp] theorem State.syncCh_mem (s : State) (num : Nat) :
    (State.syncCh s num).mem = s.mem := by simp only [State.syncCh]
@[simp] theorem State.report_mem (s : State) (num : Nat) (o : Origin) (rr : Rep) :
    (State.report s num o rr).mem = s.mem := by unfold State.report; (repeat' split) <;> simp
@[simp] theorem State.withdraw_mem (s : State) (num : Nat) (rr : Rep) :
    (State.withdraw s num rr).mem = s.mem := by simp [State.withdraw]
@[simp] theorem State.endGrant_mem (s : State) (num : Nat) :
    (State.endGrant s num).mem = s.mem := by simp [State.endGrant]
@[simp] theorem State.goCh_mem (s : State) (num : Nat) (st : ChState) (f : Chan → Chan) :
    (State.goCh s num st f).mem = s.mem := by simp [State.goCh]
@[simp] theorem State.startPwm_mem (s : State) (num : Nat) (grid : Nat) (kept : Bool) :
    (State.startPwm s num grid kept).mem = s.mem := by simp [State.startPwm]
@[simp] theorem State.imbalEnd_mem (s : State) (n : Nat) :
    (State.imbalEnd s n).mem = s.mem := by simp [State.imbalEnd]
@[simp] theorem State.turnOff_mem (s : State) (num : Nat) :
    (State.turnOff s num).mem = s.mem := by simp [State.turnOff]
@[simp] theorem State.capTrig_mem (s : State) (n : Nat) (shut : Bool) :
    (State.capTrig s n shut).mem = s.mem := by simp [State.capTrig]
@[simp] theorem State.shutdown_mem (s : State) (num : Nat) (cause : Nat) :
    (State.shutdown s num cause).mem = s.mem := by simp [State.shutdown]
@[simp] theorem State.protect_mem (s : State) (n : Nat) :
    (State.protect s n).mem = s.mem := by unfold State.protect; split <;> simp
@[simp] theorem State.turnOn_mem (s : State) (num : Nat) (grid : Nat) :
    (State.turnOn s num grid).mem = s.mem := by simp [State.turnOn]
@[simp] theorem State.undervolt_mem (s : State) (num : Nat) :
    (State.undervolt s num).mem = s.mem := by unfold State.undervolt; simp; (repeat' split) <;> simp_all
@[simp] theorem State.uvMove_mem (s : State) (n : Nat) :
    (State.uvMove s n).mem = s.mem := by simp [State.uvMove]
@[simp] theorem State.leaveHold_mem (s : State) (num : Nat) :
    (State.leaveHold s num).mem = s.mem := by simp [State.leaveHold]
@[simp] theorem State.setCtl_mem (s : State) (c : Nat) (val : Ctl) :
    (State.setCtl s c val).mem = s.mem := by simp only [State.setCtl]
@[simp] theorem State.setCobj_mem (s : State) (o : Nat) (val : CObj) :
    (State.setCobj s o val).mem = s.mem := by simp only [State.setCobj]
@[simp] theorem State.txEnds_mem (s : State) (hd : Option Hdr) (outcome : Nat) (retr : Nat) (time : Nat) :
    (State.txEnds s hd outcome retr time).mem = s.mem := by unfold State.txEnds; split <;> simp
@[simp] theorem State.txFails_mem (s : State) (hd : Option Hdr) (st : Status) (detail : Nat) (result : Nat) :
    (State.txFails s hd st detail result).mem = s.mem := by unfold State.txFails; split <;> simp
@[simp] theorem State.newRole_mem (s : State) (o : Nat) (conf : Bool) (en : Bool) (fmt : Nat) (id : Nat) (ctrl : Nat) :
    (State.newRole s o conf en fmt id ctrl).mem = s.mem := by unfold State.newRole; simp; (repeat' split) <;> simp_all
@[simp] theorem State.applyRole_mem (s : State) (o : Nat) (r : RoleReq) :
    (State.applyRole s o r).mem = s.mem := by unfold State.applyRole; split <;> simp
@[simp] theorem State.roleDue_mem (s : State) (o : Nat) :
    (State.roleDue s o).mem = s.mem := by simp [State.roleDue]
@[simp] theorem State.objFree_mem (s : State) (o : Nat) :
    (State.objFree s o).mem = s.mem := by unfold State.objFree; simp; (repeat' split) <;> simp_all
@[simp] theorem State.txBack_mem (s : State) (c : Nat) (t : CTx) :
    (State.txBack s c t).mem = s.mem := by simp [State.txBack]
@[simp] theorem State.stopTx_mem (s : State) (c : Nat) :
    (State.stopTx s c).mem = s.mem := by unfold State.stopTx; split <;> simp

end Sys2Proof.Machine
end

