-- ==== Sys2Proof/Laws/FrameEvents.lean ====
section
/-! SUPPORT. What the operations of ports and segments, admission, channel commands, time, inputs, buses, wake, keys, rings and tenancy do to memory: an operation that stores nothing leaves it as it
was (_mem); one that stores keeps its canonical form (_wf). -/
namespace Sys2Proof.Machine
open Sys2Proof

@[simp] theorem State.setPort_mem (s : State) (p : Nat) (val : Port) :
    (State.setPort s p val).mem = s.mem := by simp only [State.setPort]
@[simp] theorem State.portCnt_mem (s : State) (p : Nat) (i : Nat) :
    (State.portCnt s p i).mem = s.mem := by simp [State.portCnt]
@[simp] theorem State.dropRef_mem (s : State) (f : Nat) :
    (State.dropRef s f).mem = s.mem := by simp only [State.dropRef]
@[simp] theorem State.freeStore_mem (s : State) (o : Nat) (c : Nat) (f : Nat) :
    (State.freeStore s o c f).mem = s.mem := by simp only [State.freeStore]
@[simp] theorem State.dropLinkFrame_mem (s : State) (o : Nat) (c : Nat) (f : Nat) :
    (State.dropLinkFrame s o c f).mem = s.mem := by simp [State.dropLinkFrame]
@[simp] theorem State.flushPort_mem (s : State) (p : Nat) :
    (State.flushPort s p).mem = s.mem := by
  unfold State.flushPort; simp; (repeat' split) <;> simp
@[simp] theorem State.reachedUp_mem (s : State) (p : Nat) :
    (State.reachedUp s p).mem = s.mem := by simp [State.reachedUp]
@[simp] theorem State.setPhy_mem (s : State) (p : Nat) (x : Phy) :
    (State.setPhy s p x).mem = s.mem := by simp [State.setPhy]
@[simp] theorem State.phyFollows_mem (s : State) (p : Nat) (l : LState) :
    (State.phyFollows s p l).mem = s.mem := by simp [State.phyFollows]
@[simp] theorem State.setLink_mem (s : State) (p : Nat) (l : LState) :
    (State.setLink s p l).mem = s.mem := by simp [State.setLink]
@[simp] theorem State.endLink_mem (s : State) (p : Nat) :
    (State.endLink s p).mem = s.mem := by simp [State.endLink]
@[simp] theorem State.setSeg_mem (s : State) (g : Nat) (val : Seg) :
    (State.setSeg s g val).mem = s.mem := by simp only [State.setSeg]
@[simp] theorem State.setLin_mem (s : State) (l : Nat) (val : Lin) :
    (State.setLin s l val).mem = s.mem := by simp only [State.setLin]
@[simp] theorem State.stopLin_mem (s : State) (l : Nat) :
    (State.stopLin s l).mem = s.mem := by simp [State.stopLin]
@[simp] theorem State.standby_mem (s : State) (g : Nat) (sleep : Bool) :
    (State.standby s g sleep).mem = s.mem := by simp [State.standby]
@[simp] theorem State.normal_mem (s : State) (g : Nat) :
    (State.normal s g).mem = s.mem := by simp [State.normal]
@[simp] theorem State.checkSlot_mem (s : State) (i : Nat) :
    (State.checkSlot s i).mem = s.mem := by simp [State.checkSlot]
@[simp] theorem State.writeSlot_wf (s : State) (i : Nat) (u0 : List Byte) (wcount : Nat) (origin : Nat) (label : List Byte) (h : Memory.wf s.mem = true) :
    Memory.wf (State.writeSlot s i u0 wcount origin label).mem = true := by unfold State.writeSlot; simp; simp_all
@[simp] theorem State.eraseSlot_wf (s : State) (i : Nat) (h : Memory.wf s.mem = true) :
    Memory.wf (State.eraseSlot s i).mem = true := by unfold State.eraseSlot; exact State.writeSlot_wf _ _ _ _ _ _ h
@[simp] theorem State.dropCopies_mem (s : State) (i : Nat) :
    (State.dropCopies s i).mem = s.mem := by simp only [State.dropCopies]
@[simp] theorem State.extend_mem (s : State) (num : Nat) (hd : List Byte) :
    (State.extend s num hd).mem = s.mem := by simp only [State.extend]
@[simp] theorem State.setUse_mem (s : State) (g : Nat) (tag : Nat) (num : Nat) :
    (State.setUse s g tag num).mem = s.mem := by simp only [State.setUse]
@[simp] theorem State.traceGap_mem (s old : State) (c : Nat) : (State.traceGap s old c).mem = s.mem := by
  unfold State.traceGap; simp only; (repeat' split) <;> rfl
@[simp] theorem State.traceGaps_mem (s old : State) : (State.traceGaps s old).mem = s.mem := by
  unfold State.traceGaps; exact foldl_mem _ (fun t c => State.traceGap_mem t old c) _ _
@[simp] theorem State.setOp_mem (s : State) (o : Op) (key : List Byte) :
    (State.setOp s o key).mem = s.mem := by simp only [State.setOp]
@[simp] theorem State.recapture_mem (s : State) :
    (State.recapture s).mem = s.mem := by simp [State.recapture]
@[simp] theorem State.opStarts_mem (s : State) (o : Op) :
    (State.opStarts s o).1.mem = s.mem := by unfold State.opStarts; simp; (repeat' split) <;> simp_all
@[simp] theorem State.chGranted_mem (s : State) (num : Nat) :
    (State.chGranted s num).mem = s.mem := by simp [State.chGranted]
@[simp] theorem State.wakesRun_mem (s : State) (p : Nat) :
    (State.wakesRun s p).mem = s.mem := by simp [State.wakesRun]
@[simp] theorem State.granted_mem (s : State) (i : Nat) :
    (State.granted s i).mem = s.mem := by
  have hk := fun o => State.opStarts_mem s o
  unfold State.granted; simp only; split <;> try simp
  · split
    · rfl
    · rename_i o _; have := hk o; split <;> simp_all
@[simp] theorem State.wakesDenied_mem (s : State) (p : Nat) (st : Status) (detail : Nat) :
    (State.wakesDenied s p st detail).mem = s.mem := by simp [State.wakesDenied]
@[simp] theorem State.denied_mem (s : State) (c : Client) (st : Status) (detail : Nat) :
    (State.denied s c st detail).mem = s.mem := by unfold State.denied; (repeat' split) <;> simp
@[simp] theorem State.refuse_mem (s : State) (c : Client) (detail : Nat) :
    (State.refuse s c detail).mem = s.mem := by simp [State.refuse]
@[simp] theorem State.takeHold_mem (s : State) (k : Nat) :
    (State.takeHold s k).mem = s.mem := by unfold State.takeHold; split <;> simp
@[simp] theorem State.evalLoop_mem (s : State) (key : Nat) (arg : Nat) :
    (State.evalLoop s key arg).mem = s.mem := by
  induction arg generalizing s with
  | zero => rfl
  | succ n ih => simp only [State.evalLoop]; split <;> simp [ih]
@[simp] theorem State.reasons_mem (s : State) (key : Nat) :
    (State.reasons s key).mem = s.mem := by simp only [State.reasons]
@[simp] theorem State.evaluate_mem (s : State) (key : Nat) :
    (State.evaluate s key).mem = s.mem := by simp [State.evaluate]
@[simp] theorem State.settle_mem (s : State) :
    (State.settle s).mem = s.mem := by simp [State.settle]
@[simp] theorem State.enqueue_mem (s : State) (i : Nat) (ent : AdmEnt) (dlUs : Nat) :
    (State.enqueue s i ent dlUs).mem = s.mem := by simp [State.enqueue]
@[simp] theorem State.anchor_mem (s : State) :
    (State.anchor s).mem = s.mem := by simp [State.anchor]
@[simp] theorem State.takePrio_mem (s : State) (ent : AdmEnt) (ch : Nat) (dlUs : Nat) :
    (State.takePrio s ent ch dlUs).2.mem = s.mem := by unfold State.takePrio; split <;> simp
@[simp] theorem State.requestPrio_mem (s : State) (ent : AdmEnt) (ch : Nat) (dlUs : Nat) :
    (State.requestPrio s ent ch dlUs).mem = s.mem := by simp [State.requestPrio]
@[simp] theorem State.request_mem (s : State) (ent : AdmEnt) (dlUs : Nat) (take : State → Nat → State) (onWait : State → State) (hf4 : ∀ x0 x1, (take x0 x1).mem = x0.mem) (hf5 : ∀ x0, (onWait x0).mem = x0.mem) :
    (State.request s ent dlUs take onWait).mem = s.mem := by
  unfold State.request; simp only; (repeat' split) <;> simp [hf4, hf5]
@[simp] theorem State.request_wf (s : State) (ent : AdmEnt) (dlUs : Nat) (take : State → Nat → State) (onWait : State → State) (hf4 : ∀ x0 x1, Memory.wf x0.mem = true → Memory.wf (take x0 x1).mem = true) (hf5 : ∀ x0, Memory.wf x0.mem = true → Memory.wf (onWait x0).mem = true) (h : Memory.wf s.mem = true) :
    Memory.wf (State.request s ent dlUs take onWait).mem = true := by
  have e : ∀ t : State, t.mem = s.mem → ∀ k i, Memory.wf ((take t k).evaluate i).mem = true := fun t ht k i => by
    rw [State.evaluate_mem]; exact hf4 _ _ (by rw [ht]; exact h)
  unfold State.request; simp only; (repeat' split)
  · simp [h]
  · simp [h]
  · exact hf5 _ (e _ (by simp) _ _)
  · exact e _ (by simp) _ _
@[simp] theorem State.requestTurnOn_mem (s : State) (n : Nat) (o : Origin) (dlUs : Nat) :
    (State.requestTurnOn s n o dlUs).mem = s.mem := by simp [State.requestTurnOn]
@[simp] theorem State.holdTurnOn_mem (s : State) (n : Nat) :
    (State.holdTurnOn s n).mem = s.mem := by simp [State.holdTurnOn]
@[simp] theorem State.requestOp_mem (s : State) (hd : Hdr) (typ : Nat) (amount : Nat) (cmd : Instr) (data : List Byte) :
    (State.requestOp s hd typ amount cmd data).mem = s.mem := by unfold State.requestOp; simp; (repeat' split) <;> simp_all
@[simp] theorem State.requestInternal_mem (s : State) (typ : Nat) (amount : Nat) (tag : Nat) (c : Client) (take : State → Nat → State) (hf5 : ∀ x0 x1, (take x0 x1).mem = x0.mem) :
    (State.requestInternal s typ amount tag c take).mem = s.mem := State.request_mem _ _ _ _ _ hf5 (by simp)
@[simp] theorem State.requestInternal_wf (s : State) (typ : Nat) (amount : Nat) (tag : Nat) (c : Client) (take : State → Nat → State) (hf5 : ∀ x0 x1, Memory.wf x0.mem = true → Memory.wf (take x0 x1).mem = true) (h : Memory.wf s.mem = true) :
    Memory.wf (State.requestInternal s typ amount tag c take).mem = true := State.request_wf _ _ _ _ _ hf5 (by simp) h
@[simp] theorem State.purge_mem (s : State) (key : Nat) :
    (State.purge s key).mem = s.mem := by simp [State.purge]
@[simp] theorem State.fbLog_mem (s : State) (ent : FbEnt) :
    (State.fbLog s ent).mem = s.mem := by simp only [State.fbLog]
@[simp] theorem State.farWrite_mem (s : State) (hd : Hdr) (die : Nat) (addr : Nat) (ini : Nat) (k : State) (hk : k.mem = s.mem) :
    (State.farWrite s hd die addr ini k).mem = s.mem := by unfold State.farWrite; simp; simp_all
@[simp] theorem State.farWrite_wf (s : State) (hd : Hdr) (die : Nat) (addr : Nat) (ini : Nat) (k : State) (hk : Memory.wf k.mem = true) (h : Memory.wf s.mem = true) :
    Memory.wf (State.farWrite s hd die addr ini k).mem = true := by unfold State.farWrite; simp; (repeat' split) <;> simp_all
@[simp] theorem State.syncPdie_mem (s : State) (d : Nat) :
    (State.syncPdie s d).mem = s.mem := by simp only [State.syncPdie]
@[simp] theorem State.syncPdies_mem (s : State) :
    (State.syncPdies s).mem = s.mem := by simp [State.syncPdies]
@[simp] theorem State.syncIso_mem (s : State) :
    (State.syncIso s).mem = s.mem := by simp only [State.syncIso]
@[simp] theorem State.syncWake_mem (s : State) :
    (State.syncWake s).mem = s.mem := by simp only [State.syncWake]
@[simp] theorem State.withdrawSched_mem (s : State) (num : Nat) (skip : Nat) :
    (State.withdrawSched s num skip).mem = s.mem := by simp [State.withdrawSched]
@[simp] theorem State.chCommand_mem (s : State) (n : Nat) (act : Act) (duty : Nat) (o : Origin) (dlUs : Nat) (grid : Nat) :
    (State.chCommand s n act duty o dlUs grid).mem = s.mem := by unfold State.chCommand; simp; (repeat' split) <;> simp_all
@[simp] theorem State.chApply_mem (s : State) (w : ChWait) :
    (State.chApply s w).mem = s.mem := by simp [State.chApply]
@[simp] theorem State.chArrive_mem (s : State) (n : Nat) (act : Act) (duty : Nat) (o : Origin) (dlUs : Nat) :
    (State.chArrive s n act duty o dlUs).mem = s.mem := by simp [State.chArrive]
@[simp] theorem State.chNext_mem (s : State) (m : Nat) :
    (State.chNext s m).mem = s.mem := by unfold State.chNext; split <;> simp
@[simp] theorem State.chWaits_mem (s : State) :
    (State.chWaits s).mem = s.mem := by simp [State.chWaits]
@[simp] theorem State.holdCh_mem (s : State) (num : Nat) (by_ : HoldBy) :
    (State.holdCh s num by_).mem = s.mem := by simp [State.holdCh]
@[simp] theorem State.releaseOrphan_mem (s : State) (num : Nat) :
    (State.releaseOrphan s num).mem = s.mem := by simp [State.releaseOrphan]
@[simp] theorem State.unholdCh_mem (s : State) (num : Nat) (drop : HoldBy → Bool) :
    (State.unholdCh s num drop).mem = s.mem := by simp [State.unholdCh]
@[simp] theorem State.unbond_mem (s : State) (a : Nat) :
    (State.unbond s a).mem = s.mem := by unfold State.unbond; simp only [State.setBunt_mem]; exact foldl_mem _ (by simp) _ _
@[simp] theorem State.directCommand_mem (s : State) (tag : Nat) (ch : Nat) (epoch : Nat) (act : Nat) (reserved : Nat) (duty : Nat) :
    (State.directCommand s tag ch epoch act reserved duty).mem = s.mem := by simp [State.directCommand]
@[simp] theorem State.directWrite_mem (s : State) (ini : Nat) (tag : Nat) (ch : Nat) (epoch : Nat) (act : Nat) (reserved : Nat) (duty : Nat) (code : Nat) :
    (State.directWrite s ini tag ch epoch act reserved duty code).mem = s.mem := by simp [State.directWrite]
@[simp] theorem State.relimit_mem (s : State) (ch : Nat) :
    (State.relimit s ch).mem = s.mem := by simp [State.relimit]
@[simp] theorem State.relimitAll_mem (s : State) (n : Nat) :
    (State.relimitAll s n).mem = s.mem := by simp [State.relimitAll]
@[simp] theorem State.protectRow_mem (s : State) (ch : Nat) (cause : Nat) :
    (State.protectRow s ch cause).mem = s.mem := by simp [State.protectRow]
@[simp] theorem State.thermal_mem (s : State) (ch : Nat) (cause : Nat) (tj : Int) (met : Bool) :
    (State.thermal s ch cause tj met).mem = s.mem := by simp [State.thermal]
@[simp] theorem State.olRun_mem (s : State) (num : Nat) :
    (State.olRun s num).mem = s.mem := by simp [State.olRun]
@[simp] theorem State.imbRun_mem (s : State) (num : Nat) :
    (State.imbRun s num).mem = s.mem := by simp [State.imbRun]
@[simp] theorem State.uvRecover_mem (s : State) (n : Nat) :
    (State.uvRecover s n).mem = s.mem := by unfold State.uvRecover; simp; (repeat' split) <;> simp_all
@[simp] theorem State.orphanCh_mem (s : State) (num : Nat) :
    (State.orphanCh s num).mem = s.mem := by simp [State.orphanCh]
@[simp] theorem State.orphanReport_mem (s : State) (d : Nat) :
    (State.orphanReport s d).mem = s.mem := by simp [State.orphanReport]
@[simp] theorem State.askLeave_mem (s : State) (num : Nat) (trig : Nat) :
    (State.askLeave s num trig).mem = s.mem := by simp [State.askLeave]
@[simp] theorem State.dispatch_mem (s : State) (n : Nat) (trig : Nat) (late : Bool) (pos : Bool) :
    (State.dispatch s n trig late pos).mem = s.mem := by simp [State.dispatch]
@[simp] theorem State.moveTo_mem (s : State) (n : Nat) (t : Int) :
    (State.moveTo s n t).mem = s.mem := by simp [State.moveTo]
@[simp] theorem State.missed_mem (s : State) (num : Nat) (m : Nat) :
    (State.missed s num m).mem = s.mem := by simp [State.missed]
@[simp] theorem State.forward_mem (s : State) (num : Nat) :
    (State.forward s num).mem = s.mem := by simp [State.forward]
@[simp] theorem State.backward_mem (s : State) (num : Nat) :
    (State.backward s num).mem = s.mem := by simp [State.backward]
@[simp] theorem State.timeStep_mem (s : State) (d : Int) :
    (State.timeStep s d).mem = s.mem := by unfold State.timeStep; simp
@[simp] theorem State.goDisc_mem (s : State) (d : Disc) :
    (State.goDisc s d).mem = s.mem := by simp [State.goDisc]
@[simp] theorem State.servo_mem (s : State) (offset : Int) :
    (State.servo s offset).mem = s.mem := by simp [State.servo]
@[simp] theorem State.phaseChange_mem (s : State) (d : Int) :
    (State.phaseChange s d).mem = s.mem := by simp [State.phaseChange]
@[simp] theorem State.withdrawEnt_mem (s : State) (num : Nat) :
    (State.withdrawEnt s num).mem = s.mem := by simp [State.withdrawEnt]
@[simp] theorem State.posDue_mem (s : State) (base : Nat) (count : Int) (up : Bool) :
    (State.posDue s base count up).mem = s.mem := by simp [State.posDue]
@[simp] theorem State.setSw_mem (s : State) (num : Nat) (val : Sw) :
    (State.setSw s num val).mem = s.mem := by simp only [State.setSw]
@[simp] theorem State.setAn_mem (s : State) (num : Nat) (val : An) :
    (State.setAn s num val).mem = s.mem := by simp only [State.setAn]
@[simp] theorem State.setConv_mem (s : State) (c : Nat) (val : Conv) :
    (State.setConv s c val).mem = s.mem := by simp only [State.setConv]
@[simp] theorem State.setPc_mem (s : State) (key : Nat) (val : Pc) :
    (State.setPc s key val).mem = s.mem := by simp only [State.setPc]
@[simp] theorem State.setIsoCh_mem (s : State) (num : Nat) (val : IsoCh) :
    (State.setIsoCh s num val).mem = s.mem := by simp only [State.setIsoCh]
@[simp] theorem State.swAccept_mem (s : State) (num : Nat) (level : Bool) :
    (State.swAccept s num level).mem = s.mem := by simp [State.swAccept]
@[simp] theorem State.adcTrig_mem (s : State) (c : Nat) (an : Nat) (code : Nat) (trig : Nat) :
    (State.adcTrig s c an code trig).2.mem = s.mem := by unfold State.adcTrig; simp; (repeat' split) <;> simp_all
@[simp] theorem State.pcEdge_mem (s : State) (k : Nat) (a : Bool) (b : Bool) :
    (State.pcEdge s k a b).mem = s.mem := by unfold State.pcEdge; simp; (repeat' split) <;> simp_all
@[simp] theorem State.pcAccept_mem (s : State) (i : Nat) (level : Bool) :
    (State.pcAccept s i level).mem = s.mem := by simp [State.pcAccept]
@[simp] theorem State.isoSet_mem (s : State) (num : Nat) (v : Bool) :
    (State.isoSet s num v).mem = s.mem := by simp [State.isoSet]
@[simp] theorem State.isoOff_mem (s : State) (p : Nat → Bool) :
    (State.isoOff s p).mem = s.mem := by simp [State.isoOff]
@[simp] theorem State.wref_mem (s : State) :
    (State.wref s).mem = s.mem := by simp only [State.wref]
@[simp] theorem State.isoApply_mem (s : State) (w : IsoWr) :
    (State.isoApply s w).mem = s.mem := by unfold State.isoApply; (repeat' split) <;> simp
@[simp] theorem State.isoArrive_mem (s : State) (w : IsoWr) :
    (State.isoArrive s w).mem = s.mem := by simp [State.isoArrive]
@[simp] theorem State.isoWaits_mem (s : State) :
    (State.isoWaits s).mem = s.mem := by simp [State.isoWaits]
@[simp] theorem State.isoLatch_mem (s : State) (num : Nat) (cause : Nat) :
    (State.isoLatch s num cause).mem = s.mem := by simp [State.isoLatch]
@[simp] theorem State.isoAccept_mem (s : State) (num : Nat) (level : Bool) :
    (State.isoAccept s num level).mem = s.mem := by simp [State.isoAccept]
@[simp] theorem State.inSample_mem (s : State) (tt : Nat) (raw : Bool) (trig : Nat) :
    (State.inSample s tt raw trig).2.mem = s.mem := by unfold State.inSample; simp; (repeat' split) <;> simp_all
@[simp] theorem State.askNormal_mem (s : State) (g : Nat) (tag : Nat) (origin : Nat) :
    (State.askNormal s g tag origin).mem = s.mem := by unfold State.askNormal; split <;> simp
@[simp] theorem State.wakeSeg_mem (s : State) (g : Nat) :
    (State.wakeSeg s g).mem = s.mem := by simp [State.wakeSeg]
@[simp] theorem State.penSof_mem (s : State) (g : Nat) (typ : Nat) :
    (State.penSof s g typ).mem = s.mem := by simp [State.penSof]
@[simp] theorem State.penAbortEnd_mem (s : State) (g : Nat) :
    (State.penAbortEnd s g).mem = s.mem := by simp [State.penAbortEnd]
@[simp] theorem State.sendPen_mem (s : State) (g : Nat) (typ : Nat) :
    (State.sendPen s g typ).mem = s.mem := by simp [State.sendPen]
@[simp] theorem State.indicate_mem (s : State) (g : Nat) :
    (State.indicate s g).mem = s.mem := by simp [State.indicate]
@[simp] theorem State.indCheck_mem (s : State) :
    (State.indCheck s).mem = s.mem := by simp [State.indCheck]
@[simp] theorem State.indOver_mem (s : State) (i : Ind) :
    (State.indOver s i).mem = s.mem := by simp [State.indOver]
@[simp] theorem State.roundChecked_mem (s : State) (g : Nat) :
    (State.roundChecked s g).mem = s.mem := by unfold State.roundChecked; (repeat' split) <;> simp
@[simp] theorem State.roundFailed_mem (s : State) (g : Nat) :
    (State.roundFailed s g).mem = s.mem := by simp [State.roundFailed]
@[simp] theorem State.segEvent_mem (s : State) (g : Nat) :
    (State.segEvent s g).mem = s.mem := by simp [State.segEvent]
@[simp] theorem State.segWake_mem (s : State) (g : Nat) :
    (State.segWake s g).mem = s.mem := by simp [State.segWake]
@[simp] theorem State.wakeStart_mem (s : State) :
    (State.wakeStart s).mem = s.mem := by simp only [State.wakeStart]
@[simp] theorem State.sleepEnds_mem (s : State) :
    (State.sleepEnds s).mem = s.mem := by simp [State.sleepEnds]
@[simp] theorem State.wokenSeg_mem (s : State) (g : Nat) :
    (State.wokenSeg s g).mem = s.mem := by simp [State.wokenSeg]
@[simp] theorem State.cancelTx_mem (s : State) (c : Nat) :
    (State.cancelTx s c).mem = s.mem := by simp [State.cancelTx]
@[simp] theorem State.updErr_mem (s : State) (c : Nat) :
    (State.updErr s c).mem = s.mem := by simp [State.updErr]
@[simp] theorem State.endBusOff_mem (s : State) (c : Nat) :
    (State.endBusOff s c).mem = s.mem := by simp [State.endBusOff]
@[simp] theorem State.enterMode_mem (s : State) (c : Nat) (m : Nat) :
    (State.enterMode s c m).mem = s.mem := by simp [State.enterMode]
@[simp] theorem State.dropWant_mem (s : State) (c : Nat) :
    (State.dropWant s c).mem = s.mem := by simp [State.dropWant]
@[simp] theorem State.holdCan_mem (s : State) (c : Nat) :
    (State.holdCan s c).mem = s.mem := by simp [State.holdCan]
@[simp] theorem State.unholdCan_mem (s : State) (c : Nat) :
    (State.unholdCan s c).mem = s.mem := by unfold State.unholdCan; simp; (repeat' split) <;> simp_all
@[simp] theorem State.queueTx_mem (s : State) (o : Nat) (hd : Option Hdr) (data : List Byte) (xl : List Byte) :
    (State.queueTx s o hd data xl).mem = s.mem := by unfold State.queueTx; simp; (repeat' split) <;> simp_all
@[simp] theorem State.canTx_mem (s : State) (hd : Hdr) (obj : Nat) (d : List Byte) :
    (State.canTx s hd obj d).mem = s.mem := by simp [State.canTx]
@[simp] theorem State.canRef_mem (s : State) (num : Nat) (c : Nat) (trigCyc : Nat) :
    (State.canRef s num c trigCyc).2.mem = s.mem := by unfold State.canRef; simp; (repeat' split) <;> simp_all
@[simp] theorem State.setRoute_mem (s : State) (ent : Nat) (val : Route) :
    (State.setRoute s ent val).mem = s.mem := by simp only [State.setRoute]
@[simp] theorem State.brgCnt_mem (s : State) (key : Nat) :
    (State.brgCnt s key).mem = s.mem := by simp only [State.brgCnt]
@[simp] theorem State.dropCopy_mem (s : State) (ent : Nat) (key : Nat) :
    (State.dropCopy s ent key).mem = s.mem := by simp [State.dropCopy]
@[simp] theorem State.delivered_mem (s : State) (ent : Nat) :
    (State.delivered s ent).mem = s.mem := by simp [State.delivered]
@[simp] theorem State.ageRouted_mem (s : State) (c : Nat) :
    (State.ageRouted s c).mem = s.mem := by simp [State.ageRouted]
@[simp] theorem State.offer_mem (s : State) (qq : Nat) (f : InF) :
    (State.offer s qq f).mem = s.mem := by simp [State.offer]
@[simp] theorem State.storeObj_mem (s : State) (o : Nat) (f : CanFrame) (data : List Byte) (len : Nat) (auth : Bool) (tt : Nat) :
    (State.storeObj s o f data len auth tt).mem = s.mem := by simp [State.storeObj]
@[simp] theorem State.matchFrame_mem (s : State) (c : Nat) (f : CanFrame) (auth : Option Nat) (tt : Nat) :
    (State.matchFrame s c f auth tt).mem = s.mem := by unfold State.matchFrame; simp; (repeat' split) <;> simp_all
@[simp] theorem State.rxError_mem (s : State) (c : Nat) (kind : Nat) (dominant : Bool) :
    (State.rxError s c kind dominant).mem = s.mem := by simp [State.rxError]
@[simp] theorem State.unroute_mem (s : State) (c : Nat) (rr : Rtd) :
    (State.unroute s c rr).mem = s.mem := by simp [State.unroute]
@[simp] theorem State.startObj_mem (s : State) (c : Nat) (o : Nat) :
    (State.startObj s c o).mem = s.mem := by unfold State.startObj; simp; (repeat' split) <;> simp_all
@[simp] theorem State.startRouted_mem (s : State) (c : Nat) (rr : Rtd) :
    (State.startRouted s c rr).mem = s.mem := by unfold State.startRouted; split <;> simp
@[simp] theorem State.startFrame_mem (s : State) (c : Nat) (arg : Nat) :
    (State.startFrame s c arg).mem = s.mem := by
  induction arg generalizing s with
  | zero => rfl
  | succ n ih => simp only [State.startFrame]; (repeat' split) <;> simp [ih]
@[simp] theorem State.txError_mem (s : State) (c : Nat) (kind : Nat) (exc : Bool) :
    (State.txError s c kind exc).mem = s.mem := by unfold State.txError; split <;> simp
@[simp] theorem State.linStart_mem (s : State) (l : Nat) (tt : Nat) :
    (State.linStart s l tt).mem = s.mem := by simp [State.linStart]
@[simp] theorem State.linErr_mem (s : State) (l : Nat) :
    (State.linErr s l).mem = s.mem := by simp [State.linErr]
@[simp] theorem State.linBufCheck_mem (s : State) (l : Nat) (fid : Nat) :
    (State.linBufCheck s l fid).mem = s.mem := by unfold State.linBufCheck; (repeat' split) <;> simp
@[simp] theorem State.linPublishSlot_mem (s : State) (l : Nat) (key : Nat) (diag : Bool) (err : Bool) :
    (State.linPublishSlot s l key diag err).mem = s.mem := by unfold State.linPublishSlot; simp; (repeat' split) <;> simp_all
@[simp] theorem State.linHeaderSlot_mem (s : State) (l : Nat) (key : Nat) (err : Bool) :
    (State.linHeaderSlot s l key err).mem = s.mem := by simp [State.linHeaderSlot]
@[simp] theorem State.dropSleeping_mem (s : State) (g : Nat) :
    (State.dropSleeping s g).mem = s.mem := by
  unfold State.dropSleeping; simp only; (repeat' split) <;> simp
@[simp] theorem State.linCommit_mem (s : State) (l : Nat) :
    (State.linCommit s l).mem = s.mem := by simp [State.linCommit]
@[simp] theorem State.linStore_mem (s : State) (l : Nat) (fid : Nat) (data : List Byte) (tt : Nat) :
    (State.linStore s l fid data tt).mem = s.mem := by unfold State.linStore; split <;> simp
@[simp] theorem State.xcvrNormal_mem (s : State) (hd : Hdr) (g : Nat) :
    (State.xcvrNormal s hd g).mem = s.mem := by simp [State.xcvrNormal]
@[simp] theorem State.listen_mem (s : State) (g : Nat) :
    (State.listen s g).mem = s.mem := by simp [State.listen]
@[simp] theorem State.unlisten_mem (s : State) (g : Nat) :
    (State.unlisten s g).mem = s.mem := by simp [State.unlisten]
@[simp] theorem State.startRound_mem (s : State) (g : Nat) :
    (State.startRound s g).mem = s.mem := by simp [State.startRound]
@[simp] theorem State.writeRoute_mem (s : State) (ent : Nat) (rr : List Byte) (written : Bool) :
    (State.writeRoute s ent rr written).mem = s.mem := by simp [State.writeRoute]
@[simp] theorem State.toCan_mem (s : State) (d : Nat) (c : Rtd) :
    (State.toCan s d c).mem = s.mem := by unfold State.toCan; split <;> simp
@[simp] theorem State.toLin_mem (s : State) (l : Nat) (c : Rtd) :
    (State.toLin s l c).mem = s.mem := by unfold State.toLin; split <;> simp
@[simp] theorem State.copyTo_mem (s : State) (ent : Nat) (qq : Nat) (f : InF) (i : Nat) :
    (State.copyTo s ent qq f i).mem = s.mem := by unfold State.copyTo; simp; (repeat' split) <;> simp_all
@[simp] theorem State.saveRequest_mem (s : State) :
    (State.saveRequest s).mem = s.mem := by simp [State.saveRequest]
@[simp] theorem State.tenChanged_mem (s : State) :
    (State.tenChanged s).mem = s.mem := by simp [State.tenChanged]
@[simp] theorem State.spoilSlot_wf (s : State) (i : Nat) (h : Memory.wf s.mem = true) :
    Memory.wf (State.spoilSlot s i).mem = true := by unfold State.spoilSlot; simp; simp_all
@[simp] theorem State.slotDone_wf (s : State) (hd : Hdr) (slot : Nat) (ok : Bool) (h : Memory.wf s.mem = true) :
    Memory.wf (State.slotDone s hd slot ok).mem = true := by unfold State.slotDone; simp; (repeat' split) <;> simp_all
@[simp] theorem State.keyWriteEnd_wf (s : State) (hd : Hdr) (slot : Nat) (content : List Byte) (ok : Bool) (h : Memory.wf s.mem = true) :
    Memory.wf (State.keyWriteEnd s hd slot content ok).mem = true := by unfold State.keyWriteEnd; exact State.slotDone_wf _ _ _ _ (State.writeSlot_wf _ _ _ _ _ _ h)
@[simp] theorem State.keyDeriveEnd_wf (s : State) (hd : Hdr) (slot : Nat) (ktype : Nat) (label : List Byte) (ok : Bool) (h : Memory.wf s.mem = true) :
    Memory.wf (State.keyDeriveEnd s hd slot ktype label ok).mem = true := by unfold State.keyDeriveEnd; exact State.slotDone_wf _ _ _ _ (State.writeSlot_wf _ _ _ _ _ _ h)
@[simp] theorem State.keyEraseEnd_wf (s : State) (hd : Hdr) (slot : Nat) (ok : Bool) (h : Memory.wf s.mem = true) :
    Memory.wf (State.keyEraseEnd s hd slot ok).mem = true := by unfold State.keyEraseEnd; exact State.slotDone_wf _ _ _ _ (by simp [State.eraseSlot_wf, h])
@[simp] theorem State.useSlot_mem (s : State) (hd : Hdr) (i : Nat) (key : Nat) (u : Nat) (g : Nat) (pre : List Chk) (effect : State → State) (hf7 : ∀ x0, (effect x0).mem = x0.mem) :
    (State.useSlot s hd i key u g pre effect).mem = s.mem := by unfold State.useSlot; simp; (repeat' split) <;> simp_all
@[simp] theorem State.useSlot_wf (s : State) (hd : Hdr) (i : Nat) (key : Nat) (u : Nat) (g : Nat) (pre : List Chk) (effect : State → State) (hf7 : ∀ x0, Memory.wf x0.mem = true → Memory.wf (effect x0).mem = true) (h : Memory.wf s.mem = true) :
    Memory.wf (State.useSlot s hd i key u g pre effect).mem = true := by unfold State.useSlot; simp; (repeat' split) <;> simp_all
@[simp] theorem State.output_wf (s : State) (hd : Hdr) (out : Nat) (bs : List Byte) (h : Memory.wf s.mem = true) :
    Memory.wf (State.output s hd out bs).mem = true := by unfold State.output; simp; simp_all
@[simp] theorem State.signed_mem (s : State) :
    (State.signed s).mem = s.mem := by simp [State.signed]
@[simp] theorem State.keySignEnd_wf (s : State) (hd : Hdr) (o : Op) (out : Nat) (h : Memory.wf s.mem = true) :
    Memory.wf (State.keySignEnd s hd o out).mem = true := by unfold State.keySignEnd; exact State.output_wf _ _ _ _ (by simp [h])
@[simp] theorem State.attestEnd_wf (s : State) (hd : Hdr) (o : Op) (out : Nat) (h : Memory.wf s.mem = true) :
    Memory.wf (State.attestEnd s hd o out).mem = true := by unfold State.attestEnd; simp; simp_all
@[simp] theorem State.mirrorLog_wf (s : State) (h : Memory.wf s.mem = true) :
    Memory.wf (State.mirrorLog s).mem = true := by unfold State.mirrorLog; simp; (repeat' split) <;> simp_all
@[simp] theorem State.logclrEnd_wf (s : State) (hd : Hdr) (count : Nat) (h : Memory.wf s.mem = true) :
    Memory.wf (State.logclrEnd s hd count).mem = true := by unfold State.logclrEnd; simp; (repeat' split) <;> simp_all
@[simp] theorem State.setLog_mem (s : State) (src : Nat) (info : Nat) (f : LogEnt → LogEnt) :
    (State.setLog s src info f).mem = s.mem := by simp only [State.setLog]
@[simp] theorem State.reactionDone_mem (s : State) :
    (State.reactionDone s).mem = s.mem := by unfold State.reactionDone; split <;> simp
@[simp] theorem State.releaseHolds_mem (s : State) (drop : HoldBy → Bool) :
    (State.releaseHolds s drop).mem = s.mem := by simp [State.releaseHolds]
@[simp] theorem State.driveSafe_mem (s : State) :
    (State.driveSafe s).mem = s.mem := by simp [State.driveSafe]
@[simp] theorem State.forget_mem (s : State) (l : List (Nat × Nat)) :
    (State.forget s l).mem = s.mem := by simp only [State.forget]
@[simp] theorem State.setEv_mem (s : State) (num : Nat) (val : EvLine) :
    (State.setEv s num val).mem = s.mem := by simp only [State.setEv]
@[simp] theorem State.evReject_mem (s : State) :
    (State.evReject s).mem = s.mem := by simp only [State.evReject]
@[simp] theorem State.evWrite_mem (s : State) (tag : Nat) (num : Nat) (k : State) (hk : k.mem = s.mem) :
    (State.evWrite s tag num k).mem = s.mem := by unfold State.evWrite; simp; simp_all
@[simp] theorem State.evWrite_wf (s : State) (tag : Nat) (num : Nat) (k : State) (hk : Memory.wf k.mem = true) (h : Memory.wf s.mem = true) :
    Memory.wf (State.evWrite s tag num k).mem = true := by unfold State.evWrite; simp; (repeat' split) <;> simp_all
@[simp] theorem execEventCfgWrite_mem (arg : Nat) (tag : Nat) (num : Nat) (value : Nat) (s : State) :
    outMem s (execEventCfgWrite arg tag num value s) := by simp [execEventCfgWrite]
@[simp] theorem execEventPendClear_mem (arg : Nat) (tag : Nat) (num : Nat) (value : Nat) (s : State) :
    outMem s (execEventPendClear arg tag num value s) := by simp [execEventPendClear]
@[simp] theorem execEventSwtrig_mem (arg : Nat) (tag : Nat) (num : Nat) (value : Nat) (s : State) :
    outMem s (execEventSwtrig arg tag num value s) := by simp [execEventSwtrig]
@[simp] theorem State.ringWrite_wf (s : State) (n : Nat) (a : Nat) (bs : List Byte) (h : Memory.wf s.mem = true) :
    Memory.wf (State.ringWrite s n a bs).mem = true := by unfold State.ringWrite; simp; (repeat' split) <;> simp_all
@[simp] theorem State.writeControl_wf (s : State) (num : Nat) (h : Memory.wf s.mem = true) :
    Memory.wf (State.writeControl s num).mem = true := by unfold State.writeControl; simp; simp_all
@[simp] theorem State.publish_wf (s : State) (num : Nat) (h : Memory.wf s.mem = true) :
    Memory.wf (State.publish s num).mem = true := by
  unfold State.publish; simp only; split
  · exact h
  · have e : ∀ t : State, Memory.wf t.mem = true → ∀ (b : Bool) n, Memory.wf (if b then t.pulse n else t).mem = true := fun t ht b n => by
      split <;> simp [ht]
    split
    · exact h
    · split
      · rw [State.release_mem]; exact e _ (State.writeControl_wf _ _ (by simp [State.ringWrite_wf, h])) _ _
      · exact e _ (State.writeControl_wf _ _ (by simp [State.ringWrite_wf, h])) _ _
@[simp] theorem State.publishAll_wf (s : State) (num : Nat) (arg : Nat) (h : Memory.wf s.mem = true) :
    Memory.wf (State.publishAll s num arg).mem = true := by
  induction arg generalizing s with
  | zero => exact h
  | succ n ih => exact ih _ (State.publish_wf _ _ h)
@[simp] theorem State.doorbell_mem (s : State) (ini : Nat) (tag : Nat) (num : Nat) (k : State) (hk : k.mem = s.mem) :
    (State.doorbell s ini tag num k).mem = s.mem := by unfold State.doorbell; (repeat' split) <;> simp [hk]
@[simp] theorem State.doorbell_wf (s : State) (ini : Nat) (tag : Nat) (num : Nat) (k : State) (hk : Memory.wf k.mem = true) (h : Memory.wf s.mem = true) :
    Memory.wf (State.doorbell s ini tag num k).mem = true := by unfold State.doorbell; (repeat' split) <;> simp [hk, h]
@[simp] theorem State.ringErr_mem (s : State) (num : Nat) (ent : Nat) :
    (State.ringErr s num ent).mem = s.mem := by simp [State.ringErr]
@[simp] theorem execCmdDb_mem (arg : Nat) (tag : Nat) (num : Nat) (value : Nat) (s : State) :
    outMem s (execCmdDb arg tag num value s) := by simp [execCmdDb]
@[simp] theorem execCplDb_mem (arg : Nat) (tag : Nat) (num : Nat) (value : Nat) (s : State) :
    outMem s (execCplDb arg tag num value s) := by simp [execCplDb]
@[simp] theorem execRingAttach_wf (ini : Nat) (tag : Nat) (num : Nat) (size : Nat) (hi : Nat) (s : State) (h : Memory.wf s.mem = true) :
    outWf (execRingAttach ini tag num size hi s) := by
  have e : ∀ k, Memory.wf (s.ringErr num k).mem = true := fun k => by simp [h]
  unfold execRingAttach
  refine unitEvent_wf _ _ (State.doorbell_wf _ _ _ _ _ ?_ h)
  dsimp only
  split
  · exact e 5
  · split
    · exact e 3
    · split
      · exact e 4
      · split
        · exact e 2
        · exact State.writeControl_wf _ _ (by simp [h])
@[simp] theorem State.detach_wf (s : State) (num : Nat) (h : Memory.wf s.mem = true) :
    Memory.wf (State.detach s num).mem = true := by
  unfold State.detach; simp only [State.drained_mem]
  exact foldl_wf _ (fun t c e => by split <;> simp [e]) _ _ (by simp [State.publishAll_wf, h])
@[simp] theorem execRingDetach_wf (ini : Nat) (tag : Nat) (num : Nat) (s : State) (h : Memory.wf s.mem = true) :
    outWf (execRingDetach ini tag num s) := by
  unfold execRingDetach
  refine unitEvent_wf _ _ (State.doorbell_wf _ _ _ _ _ ?_ h)
  split <;> simp [h]
@[simp] theorem State.cleared_wf (s : State) (kind : Nat) (i : Nat) (h : Memory.wf s.mem = true) :
    Memory.wf (State.cleared s kind i).mem = true := by unfold State.cleared; simp; (repeat' split) <;> simp_all
@[simp] theorem State.moveUnit_wf (s : State) (hd : Hdr) (kind : Nat) (tag : Nat) (i : Nat) (h : Memory.wf s.mem = true) :
    Memory.wf (State.moveUnit s hd kind tag i).mem = true := by unfold State.moveUnit; simp; (repeat' split) <;> simp_all
@[simp] theorem State.assign_wf (s : State) (hd : Hdr) (kind : Nat) (tag : Nat) (index : Nat) (count : Nat) (l : List Nat) (h : Memory.wf s.mem = true) :
    Memory.wf (State.assign s hd kind tag index count l).mem = true := by
  have e : Memory.wf (l.foldl (fun s i => s.moveUnit hd kind tag i) s).mem = true := foldl_wf _ (by simp +contextual) _ _ h
  unfold State.assign; simp only; (repeat' split) <;> first | (refine State.farWrite_wf _ _ _ _ _ _ ?_ h; simp [e]) | simp [e]
@[simp] theorem State.setBezel_mem (s : State) (rr : Nat) (b : Bezel) :
    (State.setBezel s rr b).mem = s.mem := by simp only [State.setBezel]
@[simp] theorem State.zeroFill_wf (s : State) (rr : Nat) (b : Bezel) (h : Memory.wf s.mem = true) :
    Memory.wf (State.zeroFill s rr b).mem = true := filter_wfFrom _ _ _ h
@[simp] theorem State.applyBezel_mem (s : State) (hd : Hdr) (rr : Nat) (b : Bezel) :
    (State.applyBezel s hd rr b).mem = s.mem := by simp [State.applyBezel]
@[simp] theorem State.bezNext_mem (s : State) (arg : Nat) :
    (State.bezNext s arg).mem = s.mem := by
  induction arg generalizing s with
  | zero => rfl
  | succ n ih => simp only [State.bezNext]; (repeat' split) <;> simp [ih]
@[simp] theorem State.setClasp_mem (s : State) (c : Nat) (val : Clasp) :
    (State.setClasp s c val).mem = s.mem := by simp only [State.setClasp]
@[simp] theorem State.setGate_mem (s : State) (g : Nat) (val : Gate) :
    (State.setGate s g val).mem = s.mem := by simp only [State.setGate]
@[simp] theorem State.cutGate_mem (s : State) (g : Nat) :
    (State.cutGate s g).mem = s.mem := by simp [State.cutGate]

end Sys2Proof.Machine
end

