-- ==== Sys2Proof/Laws/FrameNet.lean ====
section
/-! SUPPORT. What the operations of the frame bus and the switch do to memory: an operation that stores nothing leaves it as it
was (_mem); one that stores keeps its canonical form (_wf). -/
namespace Sys2Proof.Machine
open Sys2Proof

@[simp] theorem State.pollTaken_mem (s : State) :
    (State.pollTaken s).mem = s.mem := by simp [State.pollTaken]
@[simp] theorem State.keepAlive_mem (s : State) (d : Nat) :
    (State.keepAlive s d).mem = s.mem := by simp [State.keepAlive]
@[simp] theorem State.pollGood_mem (s : State) (die : Nat) (hot : Nat) :
    (State.pollGood s die hot).mem = s.mem := by simp [State.pollGood]
@[simp] theorem State.pollBad_mem (s : State) (die : Nat) (code : Nat) :
    (State.pollBad s die code).mem = s.mem := by simp [State.pollBad]
@[simp] theorem State.captureOut_wf (s : State) (tag : Nat) (a : Nat) (bs : List Byte) (h : Memory.wf s.mem = true) :
    Memory.wf (State.captureOut s tag a bs).mem = true := by unfold State.captureOut; simp; (repeat' split) <;> simp_all
@[simp] theorem State.requestLink_mem (s : State) (p : Nat) (tag : Nat) (origin : Nat) :
    (State.requestLink s p tag origin).mem = s.mem := by simp [State.requestLink]
@[simp] theorem State.linkWanted_mem (s : State) (p : Nat) :
    (State.linkWanted s p).mem = s.mem := by simp [State.linkWanted]
@[simp] theorem State.portUp_mem (s : State) (p : Nat) :
    (State.portUp s p).mem = s.mem := by simp [State.portUp]
@[simp] theorem State.setBank_mem (s : State) (key : Nat) (b : Bank) :
    (State.setBank s key b).mem = s.mem := by simp only [State.setBank]
@[simp] theorem State.freeCells_mem (s : State) (o : Nat) (c : Nat) (num : Nat) :
    (State.freeCells s o c num).mem = s.mem := by simp only [State.freeCells]
@[simp] theorem State.credits_mem (s : State) (p : Nat) :
    (State.credits s p).mem = s.mem := by simp [State.credits]
@[simp] theorem State.setSa_mem (s : State) (i : Nat) (val : Sa) :
    (State.setSa s i val).mem = s.mem := by simp only [State.setSa]
@[simp] theorem State.dropHeads_mem (s : State) (p : Nat) (c : Nat) (arg : Nat) :
    (State.dropHeads s p c arg).mem = s.mem := by
  induction arg generalizing s with
  | zero => rfl
  | succ n ih => simp only [State.dropHeads]; (repeat' split) <;> simp [ih]
@[simp] theorem State.fragmentEnd_mem (s : State) (p : Nat) :
    (State.fragmentEnd s p).mem = s.mem := by unfold State.fragmentEnd; simp; (repeat' split) <;> simp_all
@[simp] theorem State.useSa_mem (s : State) (p : Nat) (an : Nat) :
    (State.useSa s p an).mem = s.mem := by simp [State.useSa]
@[simp] theorem State.startTx_mem (s : State) (p : Nat) (c : Nat) (f : Nat) (express : Bool) (stomp : Bool) :
    (State.startTx s p c f express stomp).mem = s.mem := by unfold State.startTx; simp; (repeat' split) <;> simp_all
@[simp] theorem State.deliverFrame_wf (s : State) (dma : Nat) (buf : Nat) (owner : Nat) (bs : List Byte) (h : Memory.wf s.mem = true) :
    Memory.wf (State.deliverFrame s dma buf owner bs).mem = true := by unfold State.deliverFrame; simp; (repeat' split) <;> simp_all
@[simp] theorem State.setGates_mem (s : State) (p : Nat) :
    (State.setGates s p).mem = s.mem := by simp [State.setGates]
@[simp] theorem State.setLane_mem (s : State) (key : Nat) (l : Lane) :
    (State.setLane s key l).mem = s.mem := by simp only [State.setLane]
@[simp] theorem State.cellEcc_mem (s : State) (key : Nat) (ecc : Nat) :
    (State.cellEcc s key ecc).mem = s.mem := by simp [State.cellEcc]
@[simp] theorem State.frameDone_mem (s : State) (o : Nat) (i : Nat) (c : Nat) (cells : List Cell) :
    (State.frameDone s o i c cells).mem = s.mem := by simp [State.frameDone]
@[simp] theorem State.deliver_mem (s : State) (o : Nat) (i : Nat) (c : Nat) (cell : Cell) :
    (State.deliver s o i c cell).mem = s.mem := by simp [State.deliver]
@[simp] theorem State.releaseRun_mem (s : State) (o : Nat) (i : Nat) (c : Nat) (arg : Nat) :
    (State.releaseRun s o i c arg).mem = s.mem := by
  induction arg generalizing s with
  | zero => rfl
  | succ n ih => simp only [State.releaseRun]; split <;> simp [ih]
@[simp] theorem State.resequence_mem (s : State) (o : Nat) (cell : Cell) :
    (State.resequence s o cell).mem = s.mem := by simp [State.resequence]
@[simp] theorem State.waitTick_mem (s : State) :
    (State.waitTick s).mem = s.mem := by simp only [State.waitTick]
@[simp] theorem State.auditBank_mem (s : State) (key : Nat) :
    (State.auditBank s key).mem = s.mem := by simp [State.auditBank]
@[simp] theorem State.auditTick_mem (s : State) :
    (State.auditTick s).mem = s.mem := by simp [State.auditTick]
@[simp] theorem State.macsecRx_mem (s : State) (p : Nat) (l : List Byte) :
    (State.macsecRx s p l).2.mem = s.mem := by
  unfold State.macsecRx; split
  · rfl
  · simp only; split <;> simp
@[simp] theorem State.setFilt_mem (s : State) (i : Nat) (val : Filt) :
    (State.setFilt s i val).mem = s.mem := by simp only [State.setFilt]
@[simp] theorem State.filterActs_mem (s : State) (i : Nat) (len : Nat) :
    (State.filterActs s i len).2.mem = s.mem := by simp [State.filterActs]
@[simp] theorem State.setFdb_mem (s : State) (i : Nat) (val : Fdb) :
    (State.setFdb s i val).mem = s.mem := by simp only [State.setFdb]
@[simp] theorem State.learn_mem (s : State) (p : Nat) (mac : Nat) (vid : Nat) :
    (State.learn s p mac vid).mem = s.mem := by unfold State.learn; (repeat' split) <;> simp
@[simp] theorem State.setCb_mem (s : State) (i : Nat) (val : Cb) :
    (State.setCb s i val).mem = s.mem := by simp only [State.setCb]
@[simp] theorem State.recovery_mem (s : State) (i : Nat) (l : List Byte) :
    (State.recovery s i l).2.mem = s.mem := by unfold State.recovery; simp; (repeat' split) <;> simp_all
@[simp] theorem State.admitCopy_mem (s : State) (o : Nat) (c : Nat) (maxc : Nat) :
    (State.admitCopy s o c maxc).2.mem = s.mem := by unfold State.admitCopy; split <;> simp
@[simp] theorem State.admitAll_mem (s : State) (c : Nat) (maxc : Nat) (arg : List Nat) :
    (State.admitAll s c maxc arg).2.mem = s.mem := by
  induction arg generalizing s with
  | nil => rfl
  | cons o r ih => simp [State.admitAll, ih]
@[simp] theorem State.placeFrame_mem (s : State) (x : Frame) (k : Nat) :
    (State.placeFrame s x k).mem = s.mem := by simp [State.placeFrame]
@[simp] theorem State.sendExpress_mem (s : State) (r : FReq) (o : Nat) :
    (State.sendExpress s r o).mem = s.mem := by unfold State.sendExpress; simp; (repeat' split) <;> simp_all
@[simp] theorem State.sendBanks_mem (s : State) (r : FReq) :
    (State.sendBanks s r).mem = s.mem := by simp [State.sendBanks]
@[simp] theorem State.sendRivals_mem (s : State) (l : List FReq) (o : Nat) :
    (State.sendRivals s l o).mem = s.mem := by unfold State.sendRivals; simp; (repeat' split) <;> simp_all
@[simp] theorem State.sendAll_mem (s : State) :
    (State.sendAll s).mem = s.mem := by simp [State.sendAll]
@[simp] theorem State.sendDue_mem (s : State) :
    (State.sendDue s).mem = s.mem := by simp [State.sendDue]
@[simp] theorem State.filterStep_mem (s : State) (fi : Option Nat) (x : Frame) :
    (State.filterStep s fi x).2.mem = s.mem := by unfold State.filterStep; (repeat' split) <;> simp
@[simp] theorem State.recoverStep_mem (s : State) (k : Option Nat) (x : Frame) :
    (State.recoverStep s k x).2.mem = s.mem := by unfold State.recoverStep; (repeat' split) <;> simp
@[simp] theorem State.sequenceStep_mem (s : State) (k : Option Nat) :
    (State.sequenceStep s k).mem = s.mem := by unfold State.sequenceStep; split <;> simp
@[simp] theorem State.lookup_mem (s : State) (p : Nat) (x : Frame) :
    (State.lookup s p x).mem = s.mem := by
  have learned : ∀ (c : Prop) [Decidable c] (t : State) a b, (if c then t.learn p a b else t).mem = t.mem := fun c _ t a b => by
    split <;> simp
  unfold State.lookup; dsimp only
  split
  · simp
  · split <;> simp only [State.sequenceStep_mem, State.recoverStep_mem, learned, State.filterStep_mem]
@[simp] theorem State.classify_mem (s : State) (p : Nat) (l : List Byte) (good : Bool) (tt : Nat) (tag : Option Nat) :
    (State.classify s p l good tt tag).mem = s.mem := by simp [State.classify]
@[simp] theorem State.received_mem (s : State) (p : Nat) (l : List Byte) (good : Bool) (ago : Nat) (frags : Nat) (tag : Option Nat) :
    (State.received s p l good ago frags tag).mem = s.mem := by
  have one : ∀ t : State, (if p ≤ 5 then (List.range frags).foldl (fun t _ => t.portCnt p 11) t else t).mem = t.mem := fun t => by
    split <;> simp
  have two : ∀ t : State, (if isT1s p then t.segEvent (p + 6) else t).mem = t.mem := fun t => by split <;> simp
  unfold State.received; dsimp only
  generalize hu : (if p ≤ 5 then (List.range frags).foldl (fun t _ => t.portCnt p 11) s else s) = u
  have eu : u.mem = s.mem := by rw [← hu]; exact one s
  generalize hv : (if isT1s p then u.segEvent (p + 6) else u) = v
  have ev : v.mem = s.mem := by rw [← hv, two, eu]
  have q := State.macsecRx_mem v p l
  (repeat' split) <;> first | rfl | (rename_i e; rw [e] at q; simp_all) | simp_all
@[simp] theorem State.receive_mem (s : State) (p : Nat) (data : List Byte) (good : Bool) (ago : Nat) (dma : Nat) (frags : Nat) :
    (State.receive s p data good ago dma frags).mem = s.mem := by unfold State.receive; (repeat' split) <;> simp
@[simp] theorem State.usxCheck_mem (s : State) (p : Nat) :
    (State.usxCheck s p).mem = s.mem := by simp [State.usxCheck]
@[simp] theorem State.enablePort_mem (s : State) (p : Nat) :
    (State.enablePort s p).mem = s.mem := by simp [State.enablePort]
@[simp] theorem State.disablePort_mem (s : State) (p : Nat) :
    (State.disablePort s p).mem = s.mem := by simp [State.disablePort]
@[simp] theorem State.lostLink_mem (s : State) (p : Nat) :
    (State.lostLink s p).mem = s.mem := by simp [State.lostLink]
@[simp] theorem State.sleepAborted_mem (s : State) (p : Nat) :
    (State.sleepAborted s p).mem = s.mem := by simp [State.sleepAborted]
@[simp] theorem State.latchMod_mem (s : State) (i : Nat) :
    (State.latchMod s i).mem = s.mem := by simp only [State.latchMod]
@[simp] theorem State.tc10Wake_mem (s : State) (p : Nat) :
    (State.tc10Wake s p).mem = s.mem := by simp [State.tc10Wake]
@[simp] theorem State.wakeAccepted_mem (s : State) (hd : Hdr) (key : Nat) :
    (State.wakeAccepted s hd key).mem = s.mem := by unfold State.wakeAccepted; (repeat' split) <;> simp
@[simp] theorem State.tsnApply_mem (s : State) (tt : Nat) (p : Nat) (base : Nat) (rr : List Byte) :
    (State.tsnApply s tt p base rr).mem = s.mem := by
  unfold State.tsnApply; simp only; (repeat' split) <;> simp
@[simp] theorem State.saInstall_mem (s : State) (port : Nat) (an : Nat) (dir : Nat) (locket : Nat) (sci : Nat) (ssci : Nat) (pn : Nat) :
    (State.saInstall s port an dir locket sci ssci pn).mem = s.mem := by simp [State.saInstall]
@[simp] theorem State.saOff_mem (s : State) (port : Nat) (an : Nat) (dir : Nat) (removed : Bool) :
    (State.saOff s port an dir removed).mem = s.mem := by simp [State.saOff]
@[simp] theorem State.saOn_mem (s : State) (port : Nat) (an : Nat) (dir : Nat) :
    (State.saOn s port an dir).mem = s.mem := by unfold State.saOn; (repeat' split) <;> simp
@[simp] theorem State.setKtask_mem (s : State) (key : Nat) (tt : KTask) :
    (State.setKtask s key tt).mem = s.mem := by simp only [State.setKtask]
@[simp] theorem State.captured_mem (s : State) (tag : Nat) (obj : Nat) (index : Nat) (num : Nat) :
    (State.captured s tag obj index num).mem = s.mem := by simp [State.captured]

end Sys2Proof.Machine
end

