-- ==== Sys2Proof/Laws/FrameKeore.lean ====
section
/-! SUPPORT. What the operations of the Keore engine, resets, boot, accesses and the transport do to memory: an operation that stores nothing leaves it as it
was (_mem); one that stores keeps its canonical form (_wf). -/
namespace Sys2Proof.Machine
open Sys2Proof

@[simp] theorem State.iwrite_wf (s : State) (a : Nat) (bs : List Byte) (h : Memory.wf s.mem = true) :
    Memory.wf (State.iwrite s a bs).mem = true := memPutAll_wf _ _ _ h
@[simp] theorem State.latchBytes_wf (s : State) (a : Nat) (bs : List Byte) (h : Memory.wf s.mem = true) :
    Memory.wf (State.latchBytes s a bs).mem = true := by unfold State.latchBytes; simp; (repeat' split) <;> simp_all
@[simp] theorem State.latchBit_wf (s : State) (b : Nat) (v : Bool) (h : Memory.wf s.mem = true) :
    Memory.wf (State.latchBit s b v).mem = true := by unfold State.latchBit; simp; simp_all
@[simp] theorem State.discard_mem (s : State) (hit : Force → Bool) :
    (State.discard s hit).mem = s.mem := by simp only [State.discard]
@[simp] theorem State.markDirty_mem (s : State) (key : Nat) (a : Nat) (num : Nat) :
    (State.markDirty s key a num).mem = s.mem := by simp [State.markDirty]
@[simp] theorem State.kStore_wf (s : State) (key : Nat) (a : Nat) (bs : List Byte) (h : Memory.wf s.mem = true) :
    Memory.wf (State.kStore s key a bs).mem = true := by unfold State.kStore; simp; (repeat' split) <;> simp_all
@[simp] theorem State.kStoreBit_wf (s : State) (key : Nat) (a : Nat) (i : Nat) (v : Bool) (h : Memory.wf s.mem = true) :
    Memory.wf (State.kStoreBit s key a i v).mem = true := by unfold State.kStoreBit; simp; (repeat' split) <;> simp_all
@[simp] theorem State.cancelEngine_mem (s : State) (o : Nat) :
    (State.cancelEngine s o).mem = s.mem := by simp [State.cancelEngine]
@[simp] theorem State.cancelXchg_mem (s : State) :
    (State.cancelXchg s).mem = s.mem := by simp [State.cancelXchg]
@[simp] theorem State.holdOutputs_mem (s : State) :
    (State.holdOutputs s).mem = s.mem := by simp [State.holdOutputs]
@[simp] theorem State.keoTrace_mem (s : State) (code k : Nat) : (State.keoTrace s code k).mem = s.mem := by
  unfold State.keoTrace; split <;> rfl
@[simp] theorem State.kHalt_mem (s : State) (cause : Nat) (key : Nat) (pc : Nat) :
    (State.kHalt s cause key pc).mem = s.mem := by simp [State.kHalt]
@[simp] theorem State.kSwitch_mem (s : State) (key : Nat) (sw : Nat) :
    (State.kSwitch s key sw).mem = s.mem := by unfold State.kSwitch; simp only; split <;> simp
@[simp] theorem State.kPick_mem (s : State) :
    (State.kPick s).mem = s.mem := by unfold State.kPick; split <;> simp
@[simp] theorem State.latchEntry_wf (s : State) (m : List Byte) (v : Option Nat) (h : Memory.wf s.mem = true) :
    Memory.wf (State.latchEntry s m v).mem = true := by
  unfold State.latchEntry; cases v <;> simp only <;> (repeat' split) <;> simp [h]
@[simp] theorem State.consumeRx_mem (s : State) (m : List Byte) :
    (State.consumeRx s m).mem = s.mem := by simp [State.consumeRx]
@[simp] theorem State.consumeAll_mem (s : State) (p : List Byte) (k : Nat) (caps : List LatchCap) :
    (State.consumeAll s p k caps).mem = s.mem := by simp [State.consumeAll]
@[simp] theorem State.kLatch_wf (s : State) (k : Nat) (caps : List LatchCap) (h : Memory.wf s.mem = true) :
    Memory.wf (State.kLatch s k caps).mem = true := by unfold State.kLatch; exact foldl_wf _ (by simp +contextual) _ _ h
@[simp] theorem State.kRun_mem (s : State) (i : Instr) (cost : KTask → Nat) (f : State → Nat → KTask → State) (hf3 : ∀ x0 x1 x2, (f x0 x1 x2).mem = x0.mem) :
    outMem s (State.kRun s i cost f) := by unfold State.kRun; simp; (repeat' split) <;> simp_all
@[simp] theorem State.kRun_wf (s : State) (i : Instr) (cost : KTask → Nat) (f : State → Nat → KTask → State) (hf3 : ∀ x0 x1 x2, Memory.wf x0.mem = true → Memory.wf (f x0 x1 x2).mem = true) (h : Memory.wf s.mem = true) :
    outWf (State.kRun s i cost f) := by unfold State.kRun; simp; (repeat' split) <;> simp_all
@[simp] theorem State.kGo_mem (s : State) (key : Nat) (tt : KTask) (pc : Nat) :
    (State.kGo s key tt pc).mem = s.mem := by simp [State.kGo]
@[simp] theorem State.kNext_mem (s : State) (key : Nat) (tt : KTask) :
    (State.kNext s key tt).mem = s.mem := by simp [State.kNext]
@[simp] theorem State.kReg_mem (s : State) (i : Instr) (f : KTask → KTask) :
    outMem s (State.kReg s i f) := by unfold State.kReg; exact State.kRun_mem _ _ _ _ (by simp)
@[simp] theorem State.kFree_mem (s : State) (i : Instr) (f : KTask → Nat → KTask) :
    outMem s (State.kFree s i f) := by unfold State.kFree; exact State.kRun_mem _ _ _ _ (by simp)
@[simp] theorem State.kAccess_mem (s : State) (key : Nat) (tt : KTask) (base : Nat) (off : Nat) (num : Nat) (align : Nat) (f : State → Nat → State) (hf7 : ∀ x0 x1, (f x0 x1).mem = x0.mem) :
    (State.kAccess s key tt base off num align f).mem = s.mem := by unfold State.kAccess; simp; (repeat' split) <;> simp_all
@[simp] theorem State.kAccess_wf (s : State) (key : Nat) (tt : KTask) (base : Nat) (off : Nat) (num : Nat) (align : Nat) (f : State → Nat → State) (hf7 : ∀ x0 x1, Memory.wf x0.mem = true → Memory.wf (f x0 x1).mem = true) (h : Memory.wf s.mem = true) :
    Memory.wf (State.kAccess s key tt base off num align f).mem = true := by unfold State.kAccess; simp; (repeat' split) <;> simp_all
@[simp] theorem State.wrefCh_mem (s : State) (num : Nat) :
    (State.wrefCh s num).mem = s.mem := by simp [State.wrefCh]
@[simp] theorem State.outChan_mem (s : State) (m : List Byte) :
    (State.outChan s m).mem = s.mem := by simp [State.outChan]
@[simp] theorem State.outIso_mem (s : State) (m : List Byte) :
    (State.outIso s m).mem = s.mem := by simp [State.outIso]
@[simp] theorem State.outSignal_mem (s : State) (m : List Byte) :
    (State.outSignal s m).mem = s.mem := by simp [State.outSignal]
@[simp] theorem State.outSend_mem (s : State) (m : List Byte) :
    (State.outSend s m).mem = s.mem := by unfold State.outSend; simp; (repeat' split) <;> simp_all
@[simp] theorem State.outEvent_mem (s : State) (m : List Byte) :
    (State.outEvent s m).mem = s.mem := by simp [State.outEvent]
@[simp] theorem State.outEntry_mem (s : State) (m : List Byte) :
    (State.outEntry s m).mem = s.mem := by unfold State.outEntry; split <;> simp
@[simp] theorem State.outLoop_mem (s : State) (key : Nat) (budget : Nat) (arg : List (List Byte)) :
    (State.outLoop s key budget arg).2.mem = s.mem := by
  induction arg generalizing s with
  | nil => rfl
  | cons m r ih => simp only [State.outLoop]; split <;> simp [ih]
@[simp] theorem State.setHand_mem (s : State) (val : List Byte × List Nat) :
    (State.setHand s val).mem = s.mem := by simp only [State.setHand]
@[simp] theorem State.kEnd_mem (s : State) (key : Nat) :
    (State.kEnd s key).mem = s.mem := by
  unfold State.kEnd; simp only
  split
  all_goals (rename_i e; have q := congrArg (fun r => r.2.mem) e; simp at q)
  · simp [q]
  · (repeat' split) <;> simp [q]
@[simp] theorem State.endFirst_mem (s : State) (k : Nat) :
    (State.endFirst s k).mem = s.mem := by simp [State.endFirst]
@[simp] theorem State.kRelease_wf (s : State) (k : Nat) (relT : Nat) (caps : List LatchCap) (h : Memory.wf s.mem = true) :
    Memory.wf (State.kRelease s k relT caps).mem = true := by unfold State.kRelease; simp; (repeat' split) <;> simp_all
@[simp] theorem State.kBitOp_mem (s : State) (i : Instr) (base : Nat) (byte : Nat) (bit_ : Nat) (f : State → Nat → KTask → Nat → Bool → State) (hf5 : ∀ x0 x1 x2 x3 x4, (f x0 x1 x2 x3 x4).mem = x0.mem) :
    outMem s (State.kBitOp s i base byte bit_ f) := by unfold State.kBitOp; exact State.kRun_mem _ _ _ _ (fun _ _ _ => State.kAccess_mem _ _ _ _ _ _ _ _ (by simp [hf5]))
@[simp] theorem State.kBitOp_wf (s : State) (i : Instr) (base : Nat) (byte : Nat) (bit_ : Nat) (f : State → Nat → KTask → Nat → Bool → State) (hf5 : ∀ x0 x1 x2 x3 x4, Memory.wf x0.mem = true → Memory.wf (f x0 x1 x2 x3 x4).mem = true) (h : Memory.wf s.mem = true) :
    outWf (State.kBitOp s i base byte bit_ f) := by unfold State.kBitOp; exact State.kRun_wf _ _ _ _ (fun _ _ _ e => State.kAccess_wf _ _ _ _ _ _ _ _ (fun _ _ => hf5 _ _ _ _ _) e) h
@[simp] theorem State.kBitTo_mem (s : State) (i : Instr) (d : Nat) (base : Nat) (byte : Nat) (bit_ : Nat) (f : Bool → Bool → Bool) :
    outMem s (State.kBitTo s i d base byte bit_ f) := by unfold State.kBitTo; exact State.kBitOp_mem _ _ _ _ _ _ (by simp)
@[simp] theorem State.kLoad_mem (s : State) (i : Instr) (d : Nat) (base : Nat) (tt : Nat) (off : KTask → Nat) :
    outMem s (State.kLoad s i d base tt off) := by unfold State.kLoad; exact State.kRun_mem _ _ _ _ (fun _ _ _ => State.kAccess_mem _ _ _ _ _ _ _ _ (by simp))
@[simp] theorem State.kPut_wf (s : State) (i : Instr) (d : Nat) (base : Nat) (tt : Nat) (off : KTask → Nat) (h : Memory.wf s.mem = true) :
    outWf (State.kPut s i d base tt off) := by unfold State.kPut; exact State.kRun_wf _ _ _ _ (fun _ _ _ e => State.kAccess_wf _ _ _ _ _ _ _ _ (by simp +contextual) e) h
@[simp] theorem State.kBin_mem (s : State) (i : Instr) (d : Nat) (a : Nat) (b : Nat) (f : W64 → W64 → KVal) :
    outMem s (State.kBin s i d a b f) := by unfold State.kBin; exact State.kReg_mem _ _ _
@[simp] theorem State.kUn_mem (s : State) (i : Instr) (d : Nat) (a : Nat) (f : W64 → KVal) :
    outMem s (State.kUn s i d a f) := by unfold State.kUn; exact State.kReg_mem _ _ _
@[simp] theorem State.kCmp_mem (s : State) (i : Instr) (d : Nat) (a : Nat) (b : Nat) (tt : Nat) (f : Option Ordering → Bool) :
    outMem s (State.kCmp s i d a b tt f) := by unfold State.kCmp; exact State.kBin_mem _ _ _ _ _ _
@[simp] theorem State.kJump_mem (s : State) (i : Instr) (disp : Nat) (c : KTask → Bool) :
    outMem s (State.kJump s i disp c) := by unfold State.kJump; exact State.kRun_mem _ _ _ _ (by simp)
@[simp] theorem State.kBlock_mem (s : State) (i : Instr) (base : Nat) (off : Nat) (num : Nat) (f : State → Nat → KTask → Nat → State) (hf5 : ∀ x0 x1 x2 x3, (f x0 x1 x2 x3).mem = x0.mem) :
    outMem s (State.kBlock s i base off num f) := by unfold State.kBlock; exact State.kRun_mem _ _ _ _ (fun _ _ _ => State.kAccess_mem _ _ _ _ _ _ _ _ (by simp [hf5]))
@[simp] theorem State.kBlock_wf (s : State) (i : Instr) (base : Nat) (off : Nat) (num : Nat) (f : State → Nat → KTask → Nat → State) (hf5 : ∀ x0 x1 x2 x3, Memory.wf x0.mem = true → Memory.wf (f x0 x1 x2 x3).mem = true) (h : Memory.wf s.mem = true) :
    outWf (State.kBlock s i base off num f) := by unfold State.kBlock; exact State.kRun_wf _ _ _ _ (fun _ _ _ e => State.kAccess_wf _ _ _ _ _ _ _ _ (by simp_all) e) h
@[simp] theorem State.kBlockEnd_mem (s : State) (key : Nat) (tt : KTask) :
    (State.kBlockEnd s key tt).mem = s.mem := by simp [State.kBlockEnd]
@[simp] theorem State.kTimer_wf (s : State) (i : Instr) (g : Nat) (base : Nat) (off : Nat) (f : Bool → Bool → Bool → Bool → Nat → Nat → Int → Nat → TimerRes) (h : Memory.wf s.mem = true) :
    outWf (State.kTimer s i g base off f) := by
  unfold State.kTimer
  refine State.kBlock_wf _ _ _ _ _ _ (fun x k t a e => ?_) h
  have e2 : Memory.wf x.draw.2.mem = true := by simp [e]
  simp only [State.kBlockEnd_mem]
  exact State.kStoreBit_wf _ _ _ _ _ (State.kStoreBit_wf _ _ _ _ _ (State.kStoreBit_wf _ _ _ _ _ (State.kStore_wf _ _ _ _ e2)))
@[simp] theorem State.kEdge_wf (s : State) (i : Instr) (g : Nat) (base : Nat) (off : Nat) (f : Bool → Bool → Bool) (h : Memory.wf s.mem = true) :
    outWf (State.kEdge s i g base off f) := by unfold State.kEdge; exact State.kBlock_wf _ _ _ _ _ _ (by simp +contextual) h
@[simp] theorem State.kCount_wf (s : State) (i : Instr) (g : Nat) (base : Nat) (off : Nat) (f : Bool → Bool → Int → Int → KVal) (qq : Int → Int → Bool) (h : Memory.wf s.mem = true) :
    outWf (State.kCount s i g base off f qq) := by unfold State.kCount; exact State.kBlock_wf _ _ _ _ _ _ (by simp +contextual) h
@[simp] theorem State.kBistable_wf (s : State) (i : Instr) (g : Nat) (base : Nat) (off : Nat) (f : Bool → Bool → Bool → Bool) (h : Memory.wf s.mem = true) :
    outWf (State.kBistable s i g base off f) := by unfold State.kBistable; exact State.kBlock_wf _ _ _ _ _ _ (by simp +contextual) h
@[simp] theorem State.acceptStage_mem (s : State) (slot : Nat) (r : List Byte) :
    (State.acceptStage s slot r).mem = s.mem := by simp [State.acceptStage]
@[simp] theorem State.unaccept_mem (s : State) (typ : Nat) (slot : Nat) :
    (State.unaccept s typ slot).mem = s.mem := by simp [State.unaccept]
@[simp] theorem State.updateEnd_wf (s : State) (hd : Hdr) (prefer : Nat) (r : List Byte) (ok : Bool) (h : Memory.wf s.mem = true) :
    Memory.wf (State.updateEnd s hd prefer r ok).mem = true := by unfold State.updateEnd; simp; (repeat' split) <;> simp_all
@[simp] theorem State.activate_mem (s : State) (b : Nat) (p : List Byte) :
    (State.activate s b p).mem = s.mem := by simp only [State.activate]
@[simp] theorem State.keoreLoadEnd_wf (s : State) (hd : Hdr) (r : List Byte) (ok : Bool) (h : Memory.wf s.mem = true) :
    Memory.wf (State.keoreLoadEnd s hd r ok).mem = true := by simp [State.keoreLoadEnd, h]
@[simp] theorem State.applyForce_wf (s : State) (f : Force) (h : Memory.wf s.mem = true) :
    Memory.wf (State.applyForce s f).mem = true := by unfold State.applyForce; simp; (repeat' split) <;> simp_all
@[simp] theorem State.applyForces_wf (s : State) (h : Memory.wf s.mem = true) :
    Memory.wf (State.applyForces s).mem = true := by unfold State.applyForces; exact foldl_wf _ (by simp +contextual) _ _ h
@[simp] theorem State.recordEpochs_mem (s : State) :
    (State.recordEpochs s).mem = s.mem := by simp only [State.recordEpochs]
@[simp] theorem State.freshTasks_mem (s : State) (next : KTask → Nat) :
    (State.freshTasks s next).mem = s.mem := by simp only [State.freshTasks]
@[simp] theorem State.readopt_mem (s : State) (num : Nat) (a : Act) :
    (State.readopt s num a).mem = s.mem := by unfold State.readopt; cases a <;> simp
@[simp] theorem State.adopt_mem (s : State) (warm : Bool) (cmds : List Nat) (m : List Byte) :
    (State.adopt s warm cmds m).mem = s.mem := by unfold State.adopt; simp; (repeat' split) <;> simp_all
@[simp] theorem State.dropKeoreHolds_mem (s : State) :
    (State.dropKeoreHolds s).mem = s.mem := by simp [State.dropKeoreHolds]
@[simp] theorem State.kStop_mem (s : State) :
    (State.kStop s).mem = s.mem := by simp [State.kStop]
@[simp] theorem State.dropCopiesKeore_wf (s : State) (h : Memory.wf s.mem = true) :
    Memory.wf (State.dropCopiesKeore s).mem = true := by unfold State.dropCopiesKeore; simp; simp_all
@[simp] theorem State.startDone_wf (s : State) (h : Memory.wf s.mem = true) :
    Memory.wf (State.startDone s).mem = true := by
  have e : ∀ d, Memory.wf ((s.iwrite 0 d).applyForces).mem = true := fun d => State.applyForces_wf _ (State.iwrite_wf _ _ _ h)
  unfold State.startDone; simp only; (repeat' split) <;> simp [e]
@[simp] theorem State.kArrive_wf (s : State) (k : Nat) (relT : Nat) (h : Memory.wf s.mem = true) :
    Memory.wf (State.kArrive s k relT).mem = true := by unfold State.kArrive; simp; (repeat' split) <;> simp_all
@[simp] theorem State.passStart_wf (s : State) (h : Memory.wf s.mem = true) :
    Memory.wf (State.passStart s).mem = true := by unfold State.passStart; simp; simp_all
@[simp] theorem State.passWrite_wf (s : State) (c : Nat) (h : Memory.wf s.mem = true) :
    Memory.wf (State.passWrite s c).mem = true := by unfold State.passWrite; exact State.store_wf _ _ _ (State.store_wf _ _ _ (State.store_wf _ _ _ h))
@[simp] theorem State.setForce_wf (s : State) (tag : Nat) (typ : Nat) (value : Nat) (v : List Byte) (h : Memory.wf s.mem = true) :
    Memory.wf (State.setForce s tag typ value v).mem = true := by unfold State.setForce; simp; (repeat' split) <;> simp_all
@[simp] theorem State.doForce_wf (s : State) (hd : Hdr) (tag : Nat) (typ : Nat) (value : Nat) (h : Memory.wf s.mem = true) :
    Memory.wf (State.doForce s hd tag typ value).mem = true := by
  unfold State.doForce; split
  · simp [h]
  · exact State.guarded_wf _ _ _ _ (by simp [h]) h
@[simp] theorem State.doUnforce_mem (s : State) (hd : Hdr) (tag : Nat) :
    (State.doUnforce s hd tag).mem = s.mem := by unfold State.doUnforce; (repeat' split) <;> simp
@[simp] theorem State.doLater_wf (s : State) (arg : Instr) (h : Memory.wf s.mem = true) :
    Memory.wf (State.doLater s arg).mem = true := by unfold State.doLater; split <;> simp [h]
@[simp] theorem State.endXchg_mem (s : State) :
    (State.endXchg s).mem = s.mem := by simp only [State.endXchg]
@[simp] theorem State.injectHome_mem (s : State) (src : Nat) :
    (State.injectHome s src).mem = s.mem := by simp [State.injectHome]
@[simp] theorem State.finishFuse_mem (s : State) (o : Op) :
    (State.finishFuse s o).mem = s.mem := by unfold State.finishFuse; (repeat' split) <;> simp
@[simp] theorem State.cutMem_wf (s : State) (t : State) (v : Nat) (a : Nat) (n : Nat) (h : Memory.wf s.mem = true) :
    Memory.wf (State.cutMem s t v a n).mem = true :=
  foldl_wf _ (fun u i e => by split <;> simp [e]) _ _ h
@[simp] theorem State.cutOp_wf (s : State) (o : Op) (h : Memory.wf s.mem = true) :
    Memory.wf (State.cutOp s o).mem = true := by unfold State.cutOp; simp; (repeat' split) <;> simp_all
@[simp] theorem State.cutFuse_mem (s : State) (o : Op) :
    (State.cutFuse s o).mem = s.mem := by unfold State.cutFuse; split <;> simp
@[simp] theorem State.survives_wf (s : State) (h : Memory.wf s.mem = true) :
    Memory.wf (State.survives s).mem = true := filter_wfFrom _ _ _ h
@[simp] theorem State.cdieReset_wf (s : State) (cause : Nat) (h : Memory.wf s.mem = true) :
    Memory.wf (State.cdieReset s cause).mem = true := by
  unfold State.cdieReset; exact State.survives_wf _ (foldl_wf _ (by simp +contextual) _ _ h)
@[simp] theorem State.dropDies_mem (s : State) :
    (State.dropDies s).mem = s.mem := by simp only [State.dropDies]
@[simp] theorem State.fullReset_wf (s : State) (cause : Nat) (h : Memory.wf s.mem = true) :
    Memory.wf (State.fullReset s cause).mem = true := by
  unfold State.fullReset; simp only [State.dropDies_mem]
  exact State.survives_wf _ (foldl_wf _ (by simp +contextual) _ _ h)
@[simp] theorem State.resetPair_wf (s : State) (key : Nat) (h : Memory.wf s.mem = true) :
    Memory.wf (State.resetPair s key).mem = true := memClear_wf _ _ _ h
@[simp] theorem State.resetCluster_mem (s : State) :
    (State.resetCluster s).mem = s.mem := by simp [State.resetCluster]
@[simp] theorem State.resetDone_mem (s : State) (hd : Hdr) (u : Nat) (held : Bool) :
    (State.resetDone s hd u held).mem = s.mem := by simp [State.resetDone]
@[simp] theorem State.restoreLog_mem (s : State) :
    (State.restoreLog s).mem = s.mem := by simp [State.restoreLog]
@[simp] theorem State.outputsOff_mem (s : State) :
    (State.outputsOff s).mem = s.mem := by simp [State.outputsOff]
@[simp] theorem State.stageAt_mem (s : State) (base : Nat) (area : Nat) :
    (State.stageAt s base area).2.mem = s.mem := by
  unfold State.stageAt; split
  · rename_i e; have q := congrArg (fun r => r.2.mem) e; simp at q; exact q.symm
  · rename_i e; have q := congrArg (fun r => r.2.mem) e; simp at q; split
    · exact q.symm
    · split
      all_goals (rename_i e; have q := congrArg (fun r => r.2.mem) e; simp at q; simp_all)
@[simp] theorem State.tryStage_mem (s : State) (typ : Nat) (base : Nat) (area : Nat) (ok : List Byte → Bool) :
    (State.tryStage s typ base area ok).2.mem = s.mem := by
  unfold State.tryStage; split
  · rename_i e; have q := congrArg (fun r => r.2.mem) e; simp at q; simp [q]
  · rename_i e; have q := congrArg (fun r => r.2.mem) e; simp at q; split <;> simp [q]
@[simp] theorem State.tryTwo_mem (s : State) (typ : Nat) (a : Nat) (b : Nat) (area : Nat) (ok : List Byte → Bool) :
    (State.tryTwo s typ a b area ok).2.mem = s.mem := by
  unfold State.tryTwo; split
  · rename_i e; have q := congrArg (fun r => r.2.mem) e; simp at q; simp [q]
  · rename_i e; have q := congrArg (fun r => r.2.mem) e; simp at q; split
    all_goals (rename_i e; have r := congrArg (fun r => r.2.mem) e; simp at r; simp_all)
@[simp] theorem State.tryCopies_mem (s : State) (typ : Nat) :
    (State.tryCopies s typ).2.mem = s.mem := by
  unfold State.tryCopies; simp only; split
  all_goals (rename_i q; have := congrArg (fun r => r.2.mem) q; simp at this; simp [this])
@[simp] theorem State.measured_mem (s : State) (n : Nat) (slot : Nat) (r : List Byte) :
    (State.measured s n slot r).mem = s.mem := by simp [State.measured]
@[simp] theorem State.askDdr_mem (s : State) :
    (State.askDdr s).mem = s.mem := by simp [State.askDdr]
@[simp] theorem State.applyTable_mem (s : State) (good : Bool) :
    (State.applyTable s good).mem = s.mem := by simp [State.applyTable]
@[simp] theorem State.scanSlots_wf (s : State) (h : Memory.wf s.mem = true) :
    Memory.wf (State.scanSlots s).mem = true := by unfold State.scanSlots; simp; (repeat' split) <;> simp_all
@[simp] theorem State.bcrXcvr_mem (s : State) (g : Nat) (st : Nat) :
    (State.bcrXcvr s g st).mem = s.mem := by simp [State.bcrXcvr]
@[simp] theorem State.bcrPort_mem (s : State) (p : Nat) (rr : List Byte) :
    (State.bcrPort s p rr).mem = s.mem := by simp [State.bcrPort]
@[simp] theorem State.bcrItem_mem (s : State) (i : BcrItem) :
    (State.bcrItem s i).mem = s.mem := by unfold State.bcrItem; split <;> simp
@[simp] theorem State.wakeLatched_mem (s : State) :
    (State.wakeLatched s).mem = s.mem := by simp [State.wakeLatched]
@[simp] theorem State.holdUnstarted_mem (s : State) :
    (State.holdUnstarted s).mem = s.mem := by simp [State.holdUnstarted]
@[simp] theorem State.leftReset_mem (s : State) (u : Nat) :
    (State.leftReset s u).mem = s.mem := by simp [State.leftReset]
@[simp] theorem State.loadStage_wf (s : State) (r : List Byte) (h : Memory.wf s.mem = true) :
    Memory.wf (State.loadStage s r).mem = true := by unfold State.loadStage; simp; (repeat' split) <;> simp_all
@[simp] theorem State.tryLate_wf (s : State) (typ : Nat) (base : Nat) (area : Nat) (h : Memory.wf s.mem = true) :
    Memory.wf (State.tryLate s typ base area).2.mem = true := by
  have q := State.stageAt_mem s base area
  unfold State.tryLate
  generalize s.stageAt base area = x at q ⊢
  obtain ⟨o, t⟩ := x
  have ht : Memory.wf t.mem = true := by rw [show t.mem = s.mem from q]; exact h
  cases o with
  | none => exact ht
  | some r =>
    have w := State.loadStage_wf t r ht
    dsimp only
    generalize t.loadStage r = u at w ⊢
    split
    · exact ht
    · split <;> exact w
@[simp] theorem State.lateStage_wf (s : State) (typ : Nat) (at0 : Nat) (at1 : Nat) (h : Memory.wf s.mem = true) :
    Memory.wf (State.lateStage s typ at0 at1).2.2.mem = true := by
  have one : ∀ (c : Bool) (t : State) (b n : Nat), Memory.wf t.mem = true →
      Memory.wf (if c then (none, t) else t.tryLate typ b n : Option (List Byte) × State).2.mem = true := fun c t b n ht => by
    split
    · exact ht
    · exact State.tryLate_wf _ _ _ _ ht
  have q := one (s.cut 0x10) s (0x60000000 + at0) (0x10000000 - at0) h
  unfold State.lateStage; dsimp only; split
  all_goals (rename_i t e; rw [e] at q)
  · exact q
  · have q2 := one (t.cut 0x11) t (0x70000000 + at1) (0x10000000 - at1) q
    split
    all_goals (rename_i e2; rw [e2] at q2; exact q2)
@[simp] theorem State.lateRt_wf (s : State) (k : Nat) (at0 : Nat) (at1 : Nat) (h : Memory.wf s.mem = true) :
    Memory.wf (State.lateRt s k at0 at1).2.mem = true := by
  have e := State.lateStage_wf s (if k = 0 then 4 else 5) at0 at1 h
  unfold State.lateRt; simp only; split <;> simp [e]
@[simp] theorem State.lateApp_wf (s : State) (at0 : Nat) (at1 : Nat) (h : Memory.wf s.mem = true) :
    Memory.wf (State.lateApp s at0 at1).2.mem = true := by
  have e := State.lateStage_wf s 6 at0 at1 h
  unfold State.lateApp; simp only; split <;> simp [e]
@[simp] theorem State.profileDone_mem (s : State) (hd0 : Hdr) (hd : Nat) :
    (State.profileDone s hd0 hd).mem = s.mem := by simp [State.profileDone]
@[simp] theorem State.lifecycleEnd_mem (s : State) (hd : Hdr) (o : Op) :
    (State.lifecycleEnd s hd o).mem = s.mem := by simp [State.lifecycleEnd]
@[simp] theorem State.toSleep_mem (s : State) (g : Nat) :
    (State.toSleep s g).mem = s.mem := by simp [State.toSleep]
@[simp] theorem State.keoreSleep_mem (s : State) :
    (State.keoreSleep s).mem = s.mem := by simp [State.keoreSleep]
@[simp] theorem State.armSwitches_mem (s : State) :
    (State.armSwitches s).mem = s.mem := by unfold State.armSwitches; simp only; exact foldl_mem _ (by simp) _ _
@[simp] theorem State.sleepT0_mem (s : State) :
    (State.sleepT0 s).mem = s.mem := by simp [State.sleepT0]
@[simp] theorem State.wokenBy_mem (s : State) (src : Nat) :
    (State.wokenBy s src).mem = s.mem := by simp [State.wokenBy]
@[simp] theorem State.regReads_mem (s : State) (ini : Nat) (tag : Nat) (a : Nat) (num : Nat) :
    (State.regReads s ini tag a num).2.mem = s.mem := by
  unfold State.regReads; (repeat' split) <;> simp [Out.orElse, execDtLoRead]
@[simp] theorem State.regWrite_wf (s : State) (ini : Nat) (tag : Nat) (a : Nat) (v : Nat) (h : Memory.wf s.mem = true) :
    Memory.wf (State.regWrite s ini tag a v).mem = true := by unfold State.regWrite; simp; (repeat' split) <;> simp_all
@[simp] theorem State.regWrites_wf (s : State) (ini : Nat) (tag : Nat) (a : Nat) (d : List Byte) (h : Memory.wf s.mem = true) :
    Memory.wf (State.regWrites s ini tag a d).mem = true := by unfold State.regWrites; exact foldl_wf _ (fun t a e => by split <;> simp [e]) _ _ h
@[simp] theorem State.busErr_mem (s : State) :
    (State.busErr s).mem = s.mem := by simp only [State.busErr]
@[simp] theorem State.busOk_mem (s : State) (d : List Byte) :
    (State.busOk s d).mem = s.mem := by simp only [State.busOk]
@[simp] theorem State.refuseAccess_mem (s : State) (ini : Nat) (tag : Nat) (kind : Nat) (a : Nat) (num : Nat) :
    (State.refuseAccess s ini tag kind a num).mem = s.mem := by simp [State.refuseAccess]
@[simp] theorem State.access_wf (s : State) (ini : Nat) (tag : Nat) (kind : Nat) (a : Nat) (num : Nat) (data : List Byte) (h : Memory.wf s.mem = true) :
    Memory.wf (State.access s ini tag kind a num data).2.mem = true := by
  have e2 := State.store_wf s a (fitTo num data) h
  unfold State.access; (repeat' split) <;> (try simp [h]) <;> (rename_i e; have q := congrArg (fun r => Memory.wf r.2.mem) e; simp [h, e2] at q; simp [← q])
@[simp] theorem State.dbgUnit_mem (s : State) (op : Nat) (tag : Nat) (unit : Nat) (addr : Nat) (on : Bool) :
    (State.dbgUnit s op tag unit addr on).mem = s.mem := by simp [State.dbgUnit]
@[simp] theorem State.opEnds_wf (s : State) (o : Op) (ok : Bool) (h : Memory.wf s.mem = true) :
    ∀ t, State.opEnds s o ok = some t → Memory.wf t.mem = true := by unfold State.opEnds; simp; (repeat' split) <;> simp_all
@[simp] theorem State.changeDisp_mem (s : State) (num : Nat) (f : Disp → Disp) :
    (State.changeDisp s num f).mem = s.mem := by simp only [State.changeDisp]
@[simp] theorem State.dropDisp_mem (s : State) (num : Nat) :
    (State.dropDisp s num).mem = s.mem := by simp only [State.dropDisp]
@[simp] theorem State.leaveToChan_mem (s : State) (m : Nat) (hd : Nat) (granted : Bool) (o : Origin) :
    (State.leaveToChan s m hd granted o).mem = s.mem := by unfold State.leaveToChan; split <;> simp
@[simp] theorem State.chanAction_mem (s : State) (num : Nat) (d : Disp) :
    (State.chanAction s num d).mem = s.mem := by simp [State.chanAction]
@[simp] theorem State.keoreRel_wf (s : State) (key : Nat) (trig : Nat) (h : Memory.wf s.mem = true) :
    Memory.wf (State.keoreRel s key trig).2.mem = true := by unfold State.keoreRel; (repeat' split) <;> simp [h]
@[simp] theorem State.otherAction_wf (s : State) (num : Nat) (d : Disp) (smp : Nat) (h : Memory.wf s.mem = true) :
    Memory.wf (State.otherAction s num d smp).2.mem = true := by unfold State.otherAction; simp; (repeat' split) <;> simp_all
@[simp] theorem State.takeEntry_mem (s : State) (num : Nat) (b : List Byte) (fw : Bool) (i : Nat) :
    (State.takeEntry s num b fw i).mem = s.mem := by simp only [State.takeEntry]
@[simp] theorem State.tickClk_mem (s : State) :
    (State.tickClk s).mem = s.mem := by simp only [State.tickClk]
@[simp] theorem State.tickDies_mem (s : State) :
    (State.tickDies s).mem = s.mem := by simp [State.tickDies]
@[simp] theorem State.tickSlot_mem (s : State) :
    (State.tickSlot s).mem = s.mem := by simp only [State.tickSlot]
@[simp] theorem State.tick_mem (s : State) :
    (State.tick s).mem = s.mem := by simp [State.tick]
theorem State.startCmd_wf (s : State) (n : Nat) (b : List Byte) (r : PktRow) (hr : ∀ e p u, Memory.wf u.mem = true → outWf (r.run e p u)) (h : Memory.wf s.mem = true) :
    Memory.wf (State.startCmd s n b r).mem = true := by
  unfold State.startCmd; simp only; split
  · simp [h]
  · exact Out.orElse_wf _ _ (hr _ _ _ (by simp [h])) (by simp [h])

end Sys2Proof.Machine
end

