-- ==== Sys2Proof/Laws/Keore.lean ====
section
/-! SUPPORT. What one instruction of the Keore engine does, said once: the frame of kRun, the accesses and the stores. -/
namespace Sys2Proof.Machine
open Sys2Proof

@[simp] theorem ktask_setKtask_same (s : State) (k : Nat) (t : KTask) : (s.setKtask k t).ktask k = t := by
  simp [State.setKtask, State.ktask]

@[simp] theorem setKtask_setKtask (s : State) (k : Nat) (t u : KTask) : (s.setKtask k t).setKtask k u = s.setKtask k u := by
  simp [State.setKtask]

/-- A register instruction's end, written once for all. -/
theorem kCharge_kNext (s : State) (k cost : Nat) (t : KTask) :
    (s.kCharge k cost).kNext k t = (s.setKtask k { t with pc := t.pc + 1 }).kPick := by
  simp [State.kCharge, State.kNext, State.kGo]

/-- Everything kRun can do for the instruction that stands at the running task. -/
theorem kRun_runs {s : State} {k : Nat} {i : Instr} {cost : KTask → Nat} (f : State → Nat → KTask → State)
    (h : s.kRuns k i (cost (s.ktask k)) = true) :
    s.kRun i cost f = .next (f (s.kCharge k (cost (s.ktask k))) k (s.kPaid k (cost (s.ktask k)))) := by
  simp only [State.kRuns, Bool.and_eq_true, beq_iff_eq, decide_eq_true_eq] at h
  obtain ⟨⟨h1, h2⟩, h3⟩ := h
  simp [State.kRun, h1, h2, Nat.not_lt.mpr h3, State.kCharge, State.kPaid]

@[simp] theorem kCharge_run (s : State) (k c : Nat) : (s.kCharge k c).keo.run = s.keo.run := rfl
@[simp] theorem kCharge_mem (s : State) (k c : Nat) : (s.kCharge k c).mem = s.mem := rfl
@[simp] theorem kCharge_ecc (s : State) (k c : Nat) : (s.kCharge k c).ecc = s.ecc := rfl
@[simp] theorem kPaid_ib (s : State) (k c : Nat) : (s.kPaid k c).ib = (s.ktask k).ib := rfl
@[simp] theorem kPaid_w (s : State) (k c : Nat) : (s.kPaid k c).w = (s.ktask k).w := rfl
@[simp] theorem kPaid_pc (s : State) (k c : Nat) : (s.kPaid k c).pc = (s.ktask k).pc := rfl
@[simp] theorem kPaid_reg (s : State) (k c n : Nat) : (s.kPaid k c).reg n = (s.ktask k).reg n := rfl

/-- A register instruction runs: nothing changes but the task's record, and the engine picks. -/
theorem kReg_runs {s : State} {k : Nat} {i : Instr} (f : KTask → KTask) (hp : (f (s.kPaid k (kCost i))).pc = (s.ktask k).pc)
    (h : s.kRuns k i (kCost i) = true) : s.kReg i f = .next (s.kAfter k (kCost i) f) := by
  rw [State.kReg, kRun_runs (cost := fun _ => kCost i) _ h, kCharge_kNext]
  simp only [hp]; rfl

/-- The same with a free value drawn. -/
theorem kFree_runs {s : State} {k : Nat} {i : Instr} (f : KTask → Nat → KTask)
    (hp : ∀ v, (f (s.kPaid k (kCost i)) v).pc = (s.ktask k).pc) (h : s.kRuns k i (kCost i) = true) :
    s.kFree i f = .next (s.drawn.kAfter k (kCost i) fun t => f t (Config.freeValue s.clk.free)) := by
  rw [State.kFree, kRun_runs (cost := fun _ => kCost i) _ h]
  simp only [State.draw, State.kNext, State.kGo, hp]
  simp [State.kCharge, State.kAfter, State.drawn, State.setKtask]
  rfl

/-- An access that traps nothing goes through. -/
theorem kAccess_clear {s : State} {k base off n align : Nat} (t : KTask) (f : State → Nat → State) (h : s.kClear k base off n align = true)
    (ht : t.ib = (s.ktask k).ib) (s' : State) (hr : s'.keo.run = s.keo.run) (he : s'.ecc = s.ecc) :
    s'.kAccess k t base off n align f = f s' (s.kAt k base off) := by
  have ha : kAddr s'.keo.run t base off = s.kAt k base off := by simp [kAddr, State.kAt, hr, ht]
  have htr : s'.kTrap base (s.kAt k base off) n align = none := by
    have := h; simp only [State.kClear, beq_iff_eq] at this; rw [← this]; simp only [State.kTrap, hr, he]
  simp [State.kAccess, ha, htr]

/-- An access of the charged task that traps nothing goes through. -/
theorem kAccess_paid {s : State} {k c base off n align : Nat} (f : State → Nat → State) (h : s.kClear k base off n align = true) :
    (s.kCharge k c).kAccess k (s.kPaid k c) base off n align f = f (s.kCharge k c) (s.kAt k base off) :=
  kAccess_clear (s.kPaid k c) f h rfl (s.kCharge k c) rfl rfl

theorem setVal_plain (t : KTask) (n : Nat) (v : W64) : t.setVal n { v := v } = t.setReg n v := by simp [KTask.setVal, KTask.setReg]

/-- The record of the charged task. -/
@[simp] theorem ktask_kCharge (s : State) (k c : Nat) : (s.kCharge k c).ktask k = s.kPaid k c := by simp [State.kCharge]

theorem ktask_discard (s : State) (p : Force → Bool) (k : Nat) : (s.discard p).ktask k = s.ktask k := rfl

/-- A bit store changes of the task's record the list of changed bytes alone. -/
theorem kStoreBit_task (s : State) (k a i : Nat) (v : Bool) :
    { s.ktask k with dirty := ((s.kStoreBit k a i v).ktask k).dirty } = (s.kStoreBit k a i v).ktask k := by
  unfold State.kStoreBit
  dsimp only
  split
  · rw [ktask_discard]
  · simp only [State.markDirty, ktask_setKtask_same]
    rfl

/-- The same of a store. -/
theorem kStore_task (s : State) (k a : Nat) (bs : List Byte) :
    { s.ktask k with dirty := ((s.kStore k a bs).ktask k).dirty } = (s.kStore k a bs).ktask k := by
  unfold State.kStore
  dsimp only
  split
  · rw [ktask_discard]
  · simp only [State.markDirty, ktask_setKtask_same]
    rfl

/-- A bit instruction runs: `f` has the charged machine, the byte's offset and the bit. -/
theorem kBitOp_runs {s : State} {k base byte i : Nat} {ins : Instr} (f : State → Nat → KTask → Nat → Bool → State)
    (hc : s.kClear k base byte 1 1 = true) (h : s.kRuns k ins 1 = true) :
    s.kBitOp ins base byte i f = .next (f (s.kCharge k 1) k (s.kPaid k 1) (s.kAt k base byte) (s.kSees k base byte i)) := by
  rw [State.kBitOp, kRun_runs (cost := fun _ => 1) _ h, kAccess_paid _ hc]
  rfl

/-- A bit instruction with a result in Wd. -/
theorem kBitTo_runs {s : State} {k d base byte i : Nat} {ins : Instr} (f : Bool → Bool → Bool)
    (hc : s.kClear k base byte 1 1 = true) (h : s.kRuns k ins 1 = true) :
    s.kBitTo ins d base byte i f =
      .next (s.kAfter k 1 fun t => t.setReg d (BitVec.ofNat 64 (b2n (f (s.kFlag k d) (s.kSees k base byte i))))) := by
  rw [State.kBitTo, kBitOp_runs _ hc h, kCharge_kNext, boolVal, setVal_plain]
  rfl

/-- A block call runs. -/
theorem kBlock_runs {s : State} {k base off n : Nat} {ins : Instr} (f : State → Nat → KTask → Nat → State)
    (hc : s.kClear k base off n 8 = true) (h : s.kRuns k ins (kCost ins) = true) :
    s.kBlock ins base off n f = .next (f (s.kCharge k (kCost ins)) k (s.kPaid k (kCost ins)) (s.kAt k base off)) := by
  rw [State.kBlock, kRun_runs (cost := fun _ => kCost ins) _ h, kAccess_paid _ hc]

end Sys2Proof.Machine
end

