-- ==== Sys2Proof/Laws/State.lean ====
section
/-! SUPPORT. What each update of one unit does to every field of State: the unit read back, the other units of its kind, and the other
fields. -/
namespace Sys2Proof.Machine
open Sys2Proof

@[simp] theorem State.setKtask_frame (s : State) (n : Nat) (x : KTask) :
    (s.setKtask n x).clk = s.clk ∧ (s.setKtask n x).sys = s.sys ∧ (s.setKtask n x).hal = s.hal ∧ (s.setKtask n x).adm = s.adm ∧
      (s.setKtask n x).lch = s.lch ∧ (s.setKtask n x).sch = s.sch ∧ (s.setKtask n x).inp = s.inp ∧ (s.setKtask n x).iso = s.iso ∧
      (s.setKtask n x).net = s.net ∧ (s.setKtask n x).fab = s.fab ∧ (s.setKtask n x).flt = s.flt ∧ (s.setKtask n x).ten = s.ten ∧
      (s.setKtask n x).dbg = s.dbg ∧ (s.setKtask n x).fb = s.fb ∧ (s.setKtask n x).can = s.can ∧ (s.setKtask n x).wake = s.wake ∧
      (s.setKtask n x).brg = s.brg ∧ (s.setKtask n x).key = s.key ∧ (s.setKtask n x).bus = s.bus ∧ (s.setKtask n x).mem = s.mem ∧
      (s.setKtask n x).ecc = s.ecc ∧ (s.setKtask n x).pending = s.pending :=
  ⟨rfl, rfl, rfl, rfl, rfl, rfl, rfl, rfl, rfl, rfl, rfl, rfl, rfl, rfl, rfl, rfl, rfl, rfl, rfl, rfl, rfl, rfl⟩
@[simp] theorem State.setKtask_ktask (s : State) (n : Nat) (x : KTask) : (s.setKtask n x).ktask n = x := look_put_same _ _ _ _
theorem State.setKtask_ktask_ne (s : State) {n m : Nat} (x : KTask) (h : m ≠ n) : (s.setKtask n x).ktask m = s.ktask m := look_put_ne _ _ _ h
@[simp] theorem State.setCobj_frame (s : State) (n : Nat) (x : CObj) :
    (s.setCobj n x).clk = s.clk ∧ (s.setCobj n x).sys = s.sys ∧ (s.setCobj n x).hal = s.hal ∧ (s.setCobj n x).adm = s.adm ∧
      (s.setCobj n x).lch = s.lch ∧ (s.setCobj n x).sch = s.sch ∧ (s.setCobj n x).inp = s.inp ∧ (s.setCobj n x).iso = s.iso ∧
      (s.setCobj n x).net = s.net ∧ (s.setCobj n x).fab = s.fab ∧ (s.setCobj n x).flt = s.flt ∧ (s.setCobj n x).ten = s.ten ∧
      (s.setCobj n x).dbg = s.dbg ∧ (s.setCobj n x).fb = s.fb ∧ (s.setCobj n x).wake = s.wake ∧ (s.setCobj n x).brg = s.brg ∧
      (s.setCobj n x).key = s.key ∧ (s.setCobj n x).keo = s.keo ∧ (s.setCobj n x).bus = s.bus ∧ (s.setCobj n x).mem = s.mem ∧
      (s.setCobj n x).ecc = s.ecc ∧ (s.setCobj n x).pending = s.pending :=
  ⟨rfl, rfl, rfl, rfl, rfl, rfl, rfl, rfl, rfl, rfl, rfl, rfl, rfl, rfl, rfl, rfl, rfl, rfl, rfl, rfl, rfl, rfl⟩
@[simp] theorem State.setCobj_cobj (s : State) (n : Nat) (x : CObj) : (s.setCobj n x).cobj n = x := look_put_same _ _ _ _
theorem State.setCobj_cobj_ne (s : State) {n m : Nat} (x : CObj) (h : m ≠ n) : (s.setCobj n x).cobj m = s.cobj m := look_put_ne _ _ _ h
@[simp] theorem State.setBezel_frame (s : State) (n : Nat) (x : Bezel) :
    (s.setBezel n x).clk = s.clk ∧ (s.setBezel n x).sys = s.sys ∧ (s.setBezel n x).hal = s.hal ∧ (s.setBezel n x).adm = s.adm ∧
      (s.setBezel n x).lch = s.lch ∧ (s.setBezel n x).sch = s.sch ∧ (s.setBezel n x).inp = s.inp ∧ (s.setBezel n x).iso = s.iso ∧
      (s.setBezel n x).net = s.net ∧ (s.setBezel n x).fab = s.fab ∧ (s.setBezel n x).flt = s.flt ∧ (s.setBezel n x).dbg = s.dbg ∧
      (s.setBezel n x).fb = s.fb ∧ (s.setBezel n x).can = s.can ∧ (s.setBezel n x).wake = s.wake ∧ (s.setBezel n x).brg = s.brg ∧
      (s.setBezel n x).key = s.key ∧ (s.setBezel n x).keo = s.keo ∧ (s.setBezel n x).bus = s.bus ∧ (s.setBezel n x).mem = s.mem ∧
      (s.setBezel n x).ecc = s.ecc ∧ (s.setBezel n x).pending = s.pending :=
  ⟨rfl, rfl, rfl, rfl, rfl, rfl, rfl, rfl, rfl, rfl, rfl, rfl, rfl, rfl, rfl, rfl, rfl, rfl, rfl, rfl, rfl, rfl⟩
@[simp] theorem State.setBezel_bezel (s : State) (n : Nat) (x : Bezel) : (s.setBezel n x).bezel n = x := look_put_same _ _ _ _
theorem State.setBezel_bezel_ne (s : State) {n m : Nat} (x : Bezel) (h : m ≠ n) : (s.setBezel n x).bezel m = s.bezel m := look_put_ne _ _ _ h
@[simp] theorem State.setClasp_frame (s : State) (n : Nat) (x : Clasp) :
    (s.setClasp n x).clk = s.clk ∧ (s.setClasp n x).sys = s.sys ∧ (s.setClasp n x).hal = s.hal ∧ (s.setClasp n x).adm = s.adm ∧
      (s.setClasp n x).lch = s.lch ∧ (s.setClasp n x).sch = s.sch ∧ (s.setClasp n x).inp = s.inp ∧ (s.setClasp n x).iso = s.iso ∧
      (s.setClasp n x).net = s.net ∧ (s.setClasp n x).fab = s.fab ∧ (s.setClasp n x).flt = s.flt ∧ (s.setClasp n x).dbg = s.dbg ∧
      (s.setClasp n x).fb = s.fb ∧ (s.setClasp n x).can = s.can ∧ (s.setClasp n x).wake = s.wake ∧ (s.setClasp n x).brg = s.brg ∧
      (s.setClasp n x).key = s.key ∧ (s.setClasp n x).keo = s.keo ∧ (s.setClasp n x).bus = s.bus ∧ (s.setClasp n x).mem = s.mem ∧
      (s.setClasp n x).ecc = s.ecc ∧ (s.setClasp n x).pending = s.pending :=
  ⟨rfl, rfl, rfl, rfl, rfl, rfl, rfl, rfl, rfl, rfl, rfl, rfl, rfl, rfl, rfl, rfl, rfl, rfl, rfl, rfl, rfl, rfl⟩
@[simp] theorem State.setClasp_clasp (s : State) (n : Nat) (x : Clasp) : (s.setClasp n x).clasp n = x := look_put_same _ _ _ _
theorem State.setClasp_clasp_ne (s : State) {n m : Nat} (x : Clasp) (h : m ≠ n) : (s.setClasp n x).clasp m = s.clasp m := look_put_ne _ _ _ h
@[simp] theorem State.setGate_frame (s : State) (n : Nat) (x : Gate) :
    (s.setGate n x).clk = s.clk ∧ (s.setGate n x).sys = s.sys ∧ (s.setGate n x).hal = s.hal ∧ (s.setGate n x).adm = s.adm ∧
      (s.setGate n x).lch = s.lch ∧ (s.setGate n x).sch = s.sch ∧ (s.setGate n x).inp = s.inp ∧ (s.setGate n x).iso = s.iso ∧
      (s.setGate n x).net = s.net ∧ (s.setGate n x).fab = s.fab ∧ (s.setGate n x).flt = s.flt ∧ (s.setGate n x).dbg = s.dbg ∧
      (s.setGate n x).fb = s.fb ∧ (s.setGate n x).can = s.can ∧ (s.setGate n x).wake = s.wake ∧ (s.setGate n x).brg = s.brg ∧
      (s.setGate n x).key = s.key ∧ (s.setGate n x).keo = s.keo ∧ (s.setGate n x).bus = s.bus ∧ (s.setGate n x).mem = s.mem ∧
      (s.setGate n x).ecc = s.ecc ∧ (s.setGate n x).pending = s.pending :=
  ⟨rfl, rfl, rfl, rfl, rfl, rfl, rfl, rfl, rfl, rfl, rfl, rfl, rfl, rfl, rfl, rfl, rfl, rfl, rfl, rfl, rfl, rfl⟩
@[simp] theorem State.setGate_gate (s : State) (n : Nat) (x : Gate) : (s.setGate n x).gate n = x := look_put_same _ _ _ _
theorem State.setGate_gate_ne (s : State) {n m : Nat} (x : Gate) (h : m ≠ n) : (s.setGate n x).gate m = s.gate m := look_put_ne _ _ _ h
@[simp] theorem State.setFilt_frame (s : State) (n : Nat) (x : Filt) :
    (s.setFilt n x).clk = s.clk ∧ (s.setFilt n x).sys = s.sys ∧ (s.setFilt n x).hal = s.hal ∧ (s.setFilt n x).adm = s.adm ∧
      (s.setFilt n x).lch = s.lch ∧ (s.setFilt n x).sch = s.sch ∧ (s.setFilt n x).inp = s.inp ∧ (s.setFilt n x).iso = s.iso ∧
      (s.setFilt n x).fab = s.fab ∧ (s.setFilt n x).flt = s.flt ∧ (s.setFilt n x).ten = s.ten ∧ (s.setFilt n x).dbg = s.dbg ∧
      (s.setFilt n x).fb = s.fb ∧ (s.setFilt n x).can = s.can ∧ (s.setFilt n x).wake = s.wake ∧ (s.setFilt n x).brg = s.brg ∧
      (s.setFilt n x).key = s.key ∧ (s.setFilt n x).keo = s.keo ∧ (s.setFilt n x).bus = s.bus ∧ (s.setFilt n x).mem = s.mem ∧
      (s.setFilt n x).ecc = s.ecc ∧ (s.setFilt n x).pending = s.pending :=
  ⟨rfl, rfl, rfl, rfl, rfl, rfl, rfl, rfl, rfl, rfl, rfl, rfl, rfl, rfl, rfl, rfl, rfl, rfl, rfl, rfl, rfl, rfl⟩
@[simp] theorem State.setFilt_filt (s : State) (n : Nat) (x : Filt) : (s.setFilt n x).filt n = x := look_put_same _ _ _ _
theorem State.setFilt_filt_ne (s : State) {n m : Nat} (x : Filt) (h : m ≠ n) : (s.setFilt n x).filt m = s.filt m := look_put_ne _ _ _ h
@[simp] theorem State.setFdb_frame (s : State) (n : Nat) (x : Fdb) :
    (s.setFdb n x).clk = s.clk ∧ (s.setFdb n x).sys = s.sys ∧ (s.setFdb n x).hal = s.hal ∧ (s.setFdb n x).adm = s.adm ∧
      (s.setFdb n x).lch = s.lch ∧ (s.setFdb n x).sch = s.sch ∧ (s.setFdb n x).inp = s.inp ∧ (s.setFdb n x).iso = s.iso ∧
      (s.setFdb n x).fab = s.fab ∧ (s.setFdb n x).flt = s.flt ∧ (s.setFdb n x).ten = s.ten ∧ (s.setFdb n x).dbg = s.dbg ∧
      (s.setFdb n x).fb = s.fb ∧ (s.setFdb n x).can = s.can ∧ (s.setFdb n x).wake = s.wake ∧ (s.setFdb n x).brg = s.brg ∧
      (s.setFdb n x).key = s.key ∧ (s.setFdb n x).keo = s.keo ∧ (s.setFdb n x).bus = s.bus ∧ (s.setFdb n x).mem = s.mem ∧
      (s.setFdb n x).ecc = s.ecc ∧ (s.setFdb n x).pending = s.pending :=
  ⟨rfl, rfl, rfl, rfl, rfl, rfl, rfl, rfl, rfl, rfl, rfl, rfl, rfl, rfl, rfl, rfl, rfl, rfl, rfl, rfl, rfl, rfl⟩
@[simp] theorem State.setFdb_fdb (s : State) (n : Nat) (x : Fdb) : (s.setFdb n x).fdb n = x := look_put_same _ _ _ _
theorem State.setFdb_fdb_ne (s : State) {n m : Nat} (x : Fdb) (h : m ≠ n) : (s.setFdb n x).fdb m = s.fdb m := look_put_ne _ _ _ h
@[simp] theorem State.setCb_frame (s : State) (n : Nat) (x : Cb) :
    (s.setCb n x).clk = s.clk ∧ (s.setCb n x).sys = s.sys ∧ (s.setCb n x).hal = s.hal ∧ (s.setCb n x).adm = s.adm ∧
      (s.setCb n x).lch = s.lch ∧ (s.setCb n x).sch = s.sch ∧ (s.setCb n x).inp = s.inp ∧ (s.setCb n x).iso = s.iso ∧
      (s.setCb n x).fab = s.fab ∧ (s.setCb n x).flt = s.flt ∧ (s.setCb n x).ten = s.ten ∧ (s.setCb n x).dbg = s.dbg ∧
      (s.setCb n x).fb = s.fb ∧ (s.setCb n x).can = s.can ∧ (s.setCb n x).wake = s.wake ∧ (s.setCb n x).brg = s.brg ∧
      (s.setCb n x).key = s.key ∧ (s.setCb n x).keo = s.keo ∧ (s.setCb n x).bus = s.bus ∧ (s.setCb n x).mem = s.mem ∧
      (s.setCb n x).ecc = s.ecc ∧ (s.setCb n x).pending = s.pending :=
  ⟨rfl, rfl, rfl, rfl, rfl, rfl, rfl, rfl, rfl, rfl, rfl, rfl, rfl, rfl, rfl, rfl, rfl, rfl, rfl, rfl, rfl, rfl⟩
@[simp] theorem State.setCb_cb (s : State) (n : Nat) (x : Cb) : (s.setCb n x).cb n = x := look_put_same _ _ _ _
theorem State.setCb_cb_ne (s : State) {n m : Nat} (x : Cb) (h : m ≠ n) : (s.setCb n x).cb m = s.cb m := look_put_ne _ _ _ h
@[simp] theorem State.setLane_frame (s : State) (n : Nat) (x : Lane) :
    (s.setLane n x).clk = s.clk ∧ (s.setLane n x).sys = s.sys ∧ (s.setLane n x).hal = s.hal ∧ (s.setLane n x).adm = s.adm ∧
      (s.setLane n x).lch = s.lch ∧ (s.setLane n x).sch = s.sch ∧ (s.setLane n x).inp = s.inp ∧ (s.setLane n x).iso = s.iso ∧
      (s.setLane n x).net = s.net ∧ (s.setLane n x).flt = s.flt ∧ (s.setLane n x).ten = s.ten ∧ (s.setLane n x).dbg = s.dbg ∧
      (s.setLane n x).fb = s.fb ∧ (s.setLane n x).can = s.can ∧ (s.setLane n x).wake = s.wake ∧ (s.setLane n x).brg = s.brg ∧
      (s.setLane n x).key = s.key ∧ (s.setLane n x).keo = s.keo ∧ (s.setLane n x).bus = s.bus ∧ (s.setLane n x).mem = s.mem ∧
      (s.setLane n x).ecc = s.ecc ∧ (s.setLane n x).pending = s.pending :=
  ⟨rfl, rfl, rfl, rfl, rfl, rfl, rfl, rfl, rfl, rfl, rfl, rfl, rfl, rfl, rfl, rfl, rfl, rfl, rfl, rfl, rfl, rfl⟩
@[simp] theorem State.setLane_lane (s : State) (n : Nat) (x : Lane) : (s.setLane n x).lane n = x := look_put_same _ _ _ _
theorem State.setLane_lane_ne (s : State) {n m : Nat} (x : Lane) (h : m ≠ n) : (s.setLane n x).lane m = s.lane m := look_put_ne _ _ _ h
@[simp] theorem State.setRing_frame (s : State) (n : Nat) (x : Ring) :
    (s.setRing n x).clk = s.clk ∧ (s.setRing n x).sys = s.sys ∧ (s.setRing n x).adm = s.adm ∧ (s.setRing n x).lch = s.lch ∧
      (s.setRing n x).sch = s.sch ∧ (s.setRing n x).inp = s.inp ∧ (s.setRing n x).iso = s.iso ∧ (s.setRing n x).net = s.net ∧
      (s.setRing n x).fab = s.fab ∧ (s.setRing n x).flt = s.flt ∧ (s.setRing n x).ten = s.ten ∧ (s.setRing n x).dbg = s.dbg ∧
      (s.setRing n x).fb = s.fb ∧ (s.setRing n x).can = s.can ∧ (s.setRing n x).wake = s.wake ∧ (s.setRing n x).brg = s.brg ∧
      (s.setRing n x).key = s.key ∧ (s.setRing n x).keo = s.keo ∧ (s.setRing n x).bus = s.bus ∧ (s.setRing n x).mem = s.mem ∧
      (s.setRing n x).ecc = s.ecc ∧ (s.setRing n x).pending = s.pending :=
  ⟨rfl, rfl, rfl, rfl, rfl, rfl, rfl, rfl, rfl, rfl, rfl, rfl, rfl, rfl, rfl, rfl, rfl, rfl, rfl, rfl, rfl, rfl⟩
@[simp] theorem State.setRing_ring (s : State) (n : Nat) (x : Ring) : (s.setRing n x).ring n = x := look_put_same _ _ _ _
theorem State.setRing_ring_ne (s : State) {n m : Nat} (x : Ring) (h : m ≠ n) : (s.setRing n x).ring m = s.ring m := look_put_ne _ _ _ h
@[simp] theorem State.setEv_frame (s : State) (n : Nat) (x : EvLine) :
    (s.setEv n x).clk = s.clk ∧ (s.setEv n x).sys = s.sys ∧ (s.setEv n x).hal = s.hal ∧ (s.setEv n x).adm = s.adm ∧
      (s.setEv n x).lch = s.lch ∧ (s.setEv n x).sch = s.sch ∧ (s.setEv n x).inp = s.inp ∧ (s.setEv n x).iso = s.iso ∧
      (s.setEv n x).net = s.net ∧ (s.setEv n x).fab = s.fab ∧ (s.setEv n x).ten = s.ten ∧ (s.setEv n x).dbg = s.dbg ∧
      (s.setEv n x).fb = s.fb ∧ (s.setEv n x).can = s.can ∧ (s.setEv n x).wake = s.wake ∧ (s.setEv n x).brg = s.brg ∧
      (s.setEv n x).key = s.key ∧ (s.setEv n x).keo = s.keo ∧ (s.setEv n x).bus = s.bus ∧ (s.setEv n x).mem = s.mem ∧
      (s.setEv n x).ecc = s.ecc ∧ (s.setEv n x).pending = s.pending :=
  ⟨rfl, rfl, rfl, rfl, rfl, rfl, rfl, rfl, rfl, rfl, rfl, rfl, rfl, rfl, rfl, rfl, rfl, rfl, rfl, rfl, rfl, rfl⟩
@[simp] theorem State.setEv_evLine (s : State) (n : Nat) (x : EvLine) : (s.setEv n x).evLine n = x := look_put_same _ _ _ _
theorem State.setEv_evLine_ne (s : State) {n m : Nat} (x : EvLine) (h : m ≠ n) : (s.setEv n x).evLine m = s.evLine m := look_put_ne _ _ _ h
@[simp] theorem State.setPort_frame (s : State) (n : Nat) (x : Port) :
    (s.setPort n x).clk = s.clk ∧ (s.setPort n x).sys = s.sys ∧ (s.setPort n x).hal = s.hal ∧ (s.setPort n x).adm = s.adm ∧
      (s.setPort n x).lch = s.lch ∧ (s.setPort n x).sch = s.sch ∧ (s.setPort n x).inp = s.inp ∧ (s.setPort n x).iso = s.iso ∧
      (s.setPort n x).fab = s.fab ∧ (s.setPort n x).flt = s.flt ∧ (s.setPort n x).ten = s.ten ∧ (s.setPort n x).dbg = s.dbg ∧
      (s.setPort n x).fb = s.fb ∧ (s.setPort n x).can = s.can ∧ (s.setPort n x).wake = s.wake ∧ (s.setPort n x).brg = s.brg ∧
      (s.setPort n x).key = s.key ∧ (s.setPort n x).keo = s.keo ∧ (s.setPort n x).bus = s.bus ∧ (s.setPort n x).mem = s.mem ∧
      (s.setPort n x).ecc = s.ecc ∧ (s.setPort n x).pending = s.pending :=
  ⟨rfl, rfl, rfl, rfl, rfl, rfl, rfl, rfl, rfl, rfl, rfl, rfl, rfl, rfl, rfl, rfl, rfl, rfl, rfl, rfl, rfl, rfl⟩
@[simp] theorem State.setPort_port (s : State) (n : Nat) (x : Port) : (s.setPort n x).port n = x := look_put_same _ _ _ _
theorem State.setPort_port_ne (s : State) {n m : Nat} (x : Port) (h : m ≠ n) : (s.setPort n x).port m = s.port m := look_put_ne _ _ _ h
@[simp] theorem State.setSeg_frame (s : State) (n : Nat) (x : Seg) :
    (s.setSeg n x).clk = s.clk ∧ (s.setSeg n x).sys = s.sys ∧ (s.setSeg n x).hal = s.hal ∧ (s.setSeg n x).adm = s.adm ∧
      (s.setSeg n x).lch = s.lch ∧ (s.setSeg n x).sch = s.sch ∧ (s.setSeg n x).inp = s.inp ∧ (s.setSeg n x).iso = s.iso ∧
      (s.setSeg n x).net = s.net ∧ (s.setSeg n x).fab = s.fab ∧ (s.setSeg n x).flt = s.flt ∧ (s.setSeg n x).ten = s.ten ∧
      (s.setSeg n x).dbg = s.dbg ∧ (s.setSeg n x).fb = s.fb ∧ (s.setSeg n x).can = s.can ∧ (s.setSeg n x).brg = s.brg ∧
      (s.setSeg n x).key = s.key ∧ (s.setSeg n x).keo = s.keo ∧ (s.setSeg n x).bus = s.bus ∧ (s.setSeg n x).mem = s.mem ∧
      (s.setSeg n x).ecc = s.ecc ∧ (s.setSeg n x).pending = s.pending :=
  ⟨rfl, rfl, rfl, rfl, rfl, rfl, rfl, rfl, rfl, rfl, rfl, rfl, rfl, rfl, rfl, rfl, rfl, rfl, rfl, rfl, rfl, rfl⟩
@[simp] theorem State.setSeg_seg (s : State) (n : Nat) (x : Seg) : (s.setSeg n x).seg n = x := look_put_same _ _ _ _
theorem State.setSeg_seg_ne (s : State) {n m : Nat} (x : Seg) (h : m ≠ n) : (s.setSeg n x).seg m = s.seg m := look_put_ne _ _ _ h
@[simp] theorem State.setPhy_frame (s : State) (n : Nat) (x : Phy) :
    (s.setPhy n x).clk = s.clk ∧ (s.setPhy n x).sys = s.sys ∧ (s.setPhy n x).hal = s.hal ∧ (s.setPhy n x).adm = s.adm ∧
      (s.setPhy n x).lch = s.lch ∧ (s.setPhy n x).sch = s.sch ∧ (s.setPhy n x).inp = s.inp ∧ (s.setPhy n x).iso = s.iso ∧
      (s.setPhy n x).net = s.net ∧ (s.setPhy n x).fab = s.fab ∧ (s.setPhy n x).flt = s.flt ∧ (s.setPhy n x).ten = s.ten ∧
      (s.setPhy n x).dbg = s.dbg ∧ (s.setPhy n x).fb = s.fb ∧ (s.setPhy n x).can = s.can ∧ (s.setPhy n x).brg = s.brg ∧
      (s.setPhy n x).key = s.key ∧ (s.setPhy n x).keo = s.keo ∧ (s.setPhy n x).bus = s.bus ∧ (s.setPhy n x).mem = s.mem ∧
      (s.setPhy n x).ecc = s.ecc ∧ (s.setPhy n x).pending = s.pending :=
  ⟨rfl, rfl, rfl, rfl, rfl, rfl, rfl, rfl, rfl, rfl, rfl, rfl, rfl, rfl, rfl, rfl, rfl, rfl, rfl, rfl, rfl, rfl⟩
@[simp] theorem State.setPhy_phy (s : State) (n : Nat) (x : Phy) : (s.setPhy n x).phy n = x := look_put_same _ _ _ _
theorem State.setPhy_phy_ne (s : State) {n m : Nat} (x : Phy) (h : m ≠ n) : (s.setPhy n x).phy m = s.phy m := look_put_ne _ _ _ h
@[simp] theorem State.setLin_frame (s : State) (n : Nat) (x : Lin) :
    (s.setLin n x).clk = s.clk ∧ (s.setLin n x).sys = s.sys ∧ (s.setLin n x).hal = s.hal ∧ (s.setLin n x).adm = s.adm ∧
      (s.setLin n x).lch = s.lch ∧ (s.setLin n x).sch = s.sch ∧ (s.setLin n x).inp = s.inp ∧ (s.setLin n x).iso = s.iso ∧
      (s.setLin n x).net = s.net ∧ (s.setLin n x).fab = s.fab ∧ (s.setLin n x).flt = s.flt ∧ (s.setLin n x).ten = s.ten ∧
      (s.setLin n x).dbg = s.dbg ∧ (s.setLin n x).fb = s.fb ∧ (s.setLin n x).wake = s.wake ∧ (s.setLin n x).brg = s.brg ∧
      (s.setLin n x).key = s.key ∧ (s.setLin n x).keo = s.keo ∧ (s.setLin n x).bus = s.bus ∧ (s.setLin n x).mem = s.mem ∧
      (s.setLin n x).ecc = s.ecc ∧ (s.setLin n x).pending = s.pending :=
  ⟨rfl, rfl, rfl, rfl, rfl, rfl, rfl, rfl, rfl, rfl, rfl, rfl, rfl, rfl, rfl, rfl, rfl, rfl, rfl, rfl, rfl, rfl⟩
@[simp] theorem State.setLin_lin (s : State) (n : Nat) (x : Lin) : (s.setLin n x).lin n = x := look_put_same _ _ _ _
theorem State.setLin_lin_ne (s : State) {n m : Nat} (x : Lin) (h : m ≠ n) : (s.setLin n x).lin m = s.lin m := look_put_ne _ _ _ h
@[simp] theorem State.setCtl_frame (s : State) (n : Nat) (x : Ctl) :
    (s.setCtl n x).clk = s.clk ∧ (s.setCtl n x).sys = s.sys ∧ (s.setCtl n x).hal = s.hal ∧ (s.setCtl n x).adm = s.adm ∧
      (s.setCtl n x).lch = s.lch ∧ (s.setCtl n x).sch = s.sch ∧ (s.setCtl n x).inp = s.inp ∧ (s.setCtl n x).iso = s.iso ∧
      (s.setCtl n x).net = s.net ∧ (s.setCtl n x).fab = s.fab ∧ (s.setCtl n x).flt = s.flt ∧ (s.setCtl n x).ten = s.ten ∧
      (s.setCtl n x).dbg = s.dbg ∧ (s.setCtl n x).fb = s.fb ∧ (s.setCtl n x).wake = s.wake ∧ (s.setCtl n x).brg = s.brg ∧
      (s.setCtl n x).key = s.key ∧ (s.setCtl n x).keo = s.keo ∧ (s.setCtl n x).bus = s.bus ∧ (s.setCtl n x).mem = s.mem ∧
      (s.setCtl n x).ecc = s.ecc ∧ (s.setCtl n x).pending = s.pending :=
  ⟨rfl, rfl, rfl, rfl, rfl, rfl, rfl, rfl, rfl, rfl, rfl, rfl, rfl, rfl, rfl, rfl, rfl, rfl, rfl, rfl, rfl, rfl⟩
@[simp] theorem State.setCtl_ctl (s : State) (n : Nat) (x : Ctl) : (s.setCtl n x).ctl n = x := look_put_same _ _ _ _
theorem State.setCtl_ctl_ne (s : State) {n m : Nat} (x : Ctl) (h : m ≠ n) : (s.setCtl n x).ctl m = s.ctl m := look_put_ne _ _ _ h
@[simp] theorem State.setSw_frame (s : State) (n : Nat) (x : Sw) :
    (s.setSw n x).clk = s.clk ∧ (s.setSw n x).sys = s.sys ∧ (s.setSw n x).hal = s.hal ∧ (s.setSw n x).adm = s.adm ∧
      (s.setSw n x).lch = s.lch ∧ (s.setSw n x).sch = s.sch ∧ (s.setSw n x).iso = s.iso ∧ (s.setSw n x).net = s.net ∧
      (s.setSw n x).fab = s.fab ∧ (s.setSw n x).flt = s.flt ∧ (s.setSw n x).ten = s.ten ∧ (s.setSw n x).dbg = s.dbg ∧
      (s.setSw n x).fb = s.fb ∧ (s.setSw n x).can = s.can ∧ (s.setSw n x).wake = s.wake ∧ (s.setSw n x).brg = s.brg ∧
      (s.setSw n x).key = s.key ∧ (s.setSw n x).keo = s.keo ∧ (s.setSw n x).bus = s.bus ∧ (s.setSw n x).mem = s.mem ∧
      (s.setSw n x).ecc = s.ecc ∧ (s.setSw n x).pending = s.pending :=
  ⟨rfl, rfl, rfl, rfl, rfl, rfl, rfl, rfl, rfl, rfl, rfl, rfl, rfl, rfl, rfl, rfl, rfl, rfl, rfl, rfl, rfl, rfl⟩
@[simp] theorem State.setSw_sw (s : State) (n : Nat) (x : Sw) : (s.setSw n x).sw n = x := look_put_same _ _ _ _
theorem State.setSw_sw_ne (s : State) {n m : Nat} (x : Sw) (h : m ≠ n) : (s.setSw n x).sw m = s.sw m := look_put_ne _ _ _ h
@[simp] theorem State.setAn_frame (s : State) (n : Nat) (x : An) :
    (s.setAn n x).clk = s.clk ∧ (s.setAn n x).sys = s.sys ∧ (s.setAn n x).hal = s.hal ∧ (s.setAn n x).adm = s.adm ∧
      (s.setAn n x).lch = s.lch ∧ (s.setAn n x).sch = s.sch ∧ (s.setAn n x).iso = s.iso ∧ (s.setAn n x).net = s.net ∧
      (s.setAn n x).fab = s.fab ∧ (s.setAn n x).flt = s.flt ∧ (s.setAn n x).ten = s.ten ∧ (s.setAn n x).dbg = s.dbg ∧
      (s.setAn n x).fb = s.fb ∧ (s.setAn n x).can = s.can ∧ (s.setAn n x).wake = s.wake ∧ (s.setAn n x).brg = s.brg ∧
      (s.setAn n x).key = s.key ∧ (s.setAn n x).keo = s.keo ∧ (s.setAn n x).bus = s.bus ∧ (s.setAn n x).mem = s.mem ∧
      (s.setAn n x).ecc = s.ecc ∧ (s.setAn n x).pending = s.pending :=
  ⟨rfl, rfl, rfl, rfl, rfl, rfl, rfl, rfl, rfl, rfl, rfl, rfl, rfl, rfl, rfl, rfl, rfl, rfl, rfl, rfl, rfl, rfl⟩
@[simp] theorem State.setAn_an (s : State) (n : Nat) (x : An) : (s.setAn n x).an n = x := look_put_same _ _ _ _
theorem State.setAn_an_ne (s : State) {n m : Nat} (x : An) (h : m ≠ n) : (s.setAn n x).an m = s.an m := look_put_ne _ _ _ h
@[simp] theorem State.setConv_frame (s : State) (n : Nat) (x : Conv) :
    (s.setConv n x).clk = s.clk ∧ (s.setConv n x).sys = s.sys ∧ (s.setConv n x).hal = s.hal ∧ (s.setConv n x).adm = s.adm ∧
      (s.setConv n x).lch = s.lch ∧ (s.setConv n x).sch = s.sch ∧ (s.setConv n x).iso = s.iso ∧ (s.setConv n x).net = s.net ∧
      (s.setConv n x).fab = s.fab ∧ (s.setConv n x).flt = s.flt ∧ (s.setConv n x).ten = s.ten ∧ (s.setConv n x).dbg = s.dbg ∧
      (s.setConv n x).fb = s.fb ∧ (s.setConv n x).can = s.can ∧ (s.setConv n x).wake = s.wake ∧ (s.setConv n x).brg = s.brg ∧
      (s.setConv n x).key = s.key ∧ (s.setConv n x).keo = s.keo ∧ (s.setConv n x).bus = s.bus ∧ (s.setConv n x).mem = s.mem ∧
      (s.setConv n x).ecc = s.ecc ∧ (s.setConv n x).pending = s.pending :=
  ⟨rfl, rfl, rfl, rfl, rfl, rfl, rfl, rfl, rfl, rfl, rfl, rfl, rfl, rfl, rfl, rfl, rfl, rfl, rfl, rfl, rfl, rfl⟩
@[simp] theorem State.setConv_conv (s : State) (n : Nat) (x : Conv) : (s.setConv n x).conv n = x := look_put_same _ _ _ _
theorem State.setConv_conv_ne (s : State) {n m : Nat} (x : Conv) (h : m ≠ n) : (s.setConv n x).conv m = s.conv m := look_put_ne _ _ _ h
@[simp] theorem State.setPc_frame (s : State) (n : Nat) (x : Pc) :
    (s.setPc n x).clk = s.clk ∧ (s.setPc n x).sys = s.sys ∧ (s.setPc n x).hal = s.hal ∧ (s.setPc n x).adm = s.adm ∧
      (s.setPc n x).lch = s.lch ∧ (s.setPc n x).sch = s.sch ∧ (s.setPc n x).iso = s.iso ∧ (s.setPc n x).net = s.net ∧
      (s.setPc n x).fab = s.fab ∧ (s.setPc n x).flt = s.flt ∧ (s.setPc n x).ten = s.ten ∧ (s.setPc n x).dbg = s.dbg ∧
      (s.setPc n x).fb = s.fb ∧ (s.setPc n x).can = s.can ∧ (s.setPc n x).wake = s.wake ∧ (s.setPc n x).brg = s.brg ∧
      (s.setPc n x).key = s.key ∧ (s.setPc n x).keo = s.keo ∧ (s.setPc n x).bus = s.bus ∧ (s.setPc n x).mem = s.mem ∧
      (s.setPc n x).ecc = s.ecc ∧ (s.setPc n x).pending = s.pending :=
  ⟨rfl, rfl, rfl, rfl, rfl, rfl, rfl, rfl, rfl, rfl, rfl, rfl, rfl, rfl, rfl, rfl, rfl, rfl, rfl, rfl, rfl, rfl⟩
@[simp] theorem State.setPc_pc (s : State) (n : Nat) (x : Pc) : (s.setPc n x).pc n = x := look_put_same _ _ _ _
theorem State.setPc_pc_ne (s : State) {n m : Nat} (x : Pc) (h : m ≠ n) : (s.setPc n x).pc m = s.pc m := look_put_ne _ _ _ h
@[simp] theorem State.setIsoCh_frame (s : State) (n : Nat) (x : IsoCh) :
    (s.setIsoCh n x).clk = s.clk ∧ (s.setIsoCh n x).sys = s.sys ∧ (s.setIsoCh n x).hal = s.hal ∧ (s.setIsoCh n x).adm = s.adm ∧
      (s.setIsoCh n x).lch = s.lch ∧ (s.setIsoCh n x).sch = s.sch ∧ (s.setIsoCh n x).inp = s.inp ∧ (s.setIsoCh n x).net = s.net ∧
      (s.setIsoCh n x).fab = s.fab ∧ (s.setIsoCh n x).flt = s.flt ∧ (s.setIsoCh n x).ten = s.ten ∧ (s.setIsoCh n x).dbg = s.dbg ∧
      (s.setIsoCh n x).fb = s.fb ∧ (s.setIsoCh n x).can = s.can ∧ (s.setIsoCh n x).wake = s.wake ∧ (s.setIsoCh n x).brg = s.brg ∧
      (s.setIsoCh n x).key = s.key ∧ (s.setIsoCh n x).keo = s.keo ∧ (s.setIsoCh n x).bus = s.bus ∧ (s.setIsoCh n x).mem = s.mem ∧
      (s.setIsoCh n x).ecc = s.ecc ∧ (s.setIsoCh n x).pending = s.pending :=
  ⟨rfl, rfl, rfl, rfl, rfl, rfl, rfl, rfl, rfl, rfl, rfl, rfl, rfl, rfl, rfl, rfl, rfl, rfl, rfl, rfl, rfl, rfl⟩
@[simp] theorem State.setIsoCh_isoCh (s : State) (n : Nat) (x : IsoCh) : (s.setIsoCh n x).isoCh n = x := look_put_same _ _ _ _
theorem State.setIsoCh_isoCh_ne (s : State) {n m : Nat} (x : IsoCh) (h : m ≠ n) : (s.setIsoCh n x).isoCh m = s.isoCh m := look_put_ne _ _ _ h
@[simp] theorem State.setBank_frame (s : State) (n : Nat) (x : Bank) :
    (s.setBank n x).clk = s.clk ∧ (s.setBank n x).sys = s.sys ∧ (s.setBank n x).hal = s.hal ∧ (s.setBank n x).adm = s.adm ∧
      (s.setBank n x).lch = s.lch ∧ (s.setBank n x).sch = s.sch ∧ (s.setBank n x).inp = s.inp ∧ (s.setBank n x).iso = s.iso ∧
      (s.setBank n x).net = s.net ∧ (s.setBank n x).flt = s.flt ∧ (s.setBank n x).ten = s.ten ∧ (s.setBank n x).dbg = s.dbg ∧
      (s.setBank n x).fb = s.fb ∧ (s.setBank n x).can = s.can ∧ (s.setBank n x).wake = s.wake ∧ (s.setBank n x).brg = s.brg ∧
      (s.setBank n x).key = s.key ∧ (s.setBank n x).keo = s.keo ∧ (s.setBank n x).bus = s.bus ∧ (s.setBank n x).mem = s.mem ∧
      (s.setBank n x).ecc = s.ecc ∧ (s.setBank n x).pending = s.pending :=
  ⟨rfl, rfl, rfl, rfl, rfl, rfl, rfl, rfl, rfl, rfl, rfl, rfl, rfl, rfl, rfl, rfl, rfl, rfl, rfl, rfl, rfl, rfl⟩
@[simp] theorem State.setSa_frame (s : State) (n : Nat) (x : Sa) :
    (s.setSa n x).clk = s.clk ∧ (s.setSa n x).sys = s.sys ∧ (s.setSa n x).hal = s.hal ∧ (s.setSa n x).adm = s.adm ∧
      (s.setSa n x).lch = s.lch ∧ (s.setSa n x).sch = s.sch ∧ (s.setSa n x).inp = s.inp ∧ (s.setSa n x).iso = s.iso ∧
      (s.setSa n x).fab = s.fab ∧ (s.setSa n x).flt = s.flt ∧ (s.setSa n x).ten = s.ten ∧ (s.setSa n x).dbg = s.dbg ∧
      (s.setSa n x).fb = s.fb ∧ (s.setSa n x).can = s.can ∧ (s.setSa n x).wake = s.wake ∧ (s.setSa n x).brg = s.brg ∧
      (s.setSa n x).key = s.key ∧ (s.setSa n x).keo = s.keo ∧ (s.setSa n x).bus = s.bus ∧ (s.setSa n x).mem = s.mem ∧
      (s.setSa n x).ecc = s.ecc ∧ (s.setSa n x).pending = s.pending :=
  ⟨rfl, rfl, rfl, rfl, rfl, rfl, rfl, rfl, rfl, rfl, rfl, rfl, rfl, rfl, rfl, rfl, rfl, rfl, rfl, rfl, rfl, rfl⟩
@[simp] theorem State.setSa_sa (s : State) (n : Nat) (x : Sa) : (s.setSa n x).sa n = x := look_put_same _ _ _ _
theorem State.setSa_sa_ne (s : State) {n m : Nat} (x : Sa) (h : m ≠ n) : (s.setSa n x).sa m = s.sa m := look_put_ne _ _ _ h
@[simp] theorem State.setBudget_frame (s : State) (n : Nat) (x : Budget) :
    (s.setBudget n x).clk = s.clk ∧ (s.setBudget n x).sys = s.sys ∧ (s.setBudget n x).hal = s.hal ∧ (s.setBudget n x).lch = s.lch ∧
      (s.setBudget n x).sch = s.sch ∧ (s.setBudget n x).inp = s.inp ∧ (s.setBudget n x).iso = s.iso ∧ (s.setBudget n x).net = s.net ∧
      (s.setBudget n x).fab = s.fab ∧ (s.setBudget n x).flt = s.flt ∧ (s.setBudget n x).ten = s.ten ∧ (s.setBudget n x).dbg = s.dbg ∧
      (s.setBudget n x).fb = s.fb ∧ (s.setBudget n x).can = s.can ∧ (s.setBudget n x).wake = s.wake ∧ (s.setBudget n x).brg = s.brg ∧
      (s.setBudget n x).key = s.key ∧ (s.setBudget n x).keo = s.keo ∧ (s.setBudget n x).bus = s.bus ∧ (s.setBudget n x).mem = s.mem ∧
      (s.setBudget n x).ecc = s.ecc ∧ (s.setBudget n x).pending = s.pending :=
  ⟨rfl, rfl, rfl, rfl, rfl, rfl, rfl, rfl, rfl, rfl, rfl, rfl, rfl, rfl, rfl, rfl, rfl, rfl, rfl, rfl, rfl, rfl⟩
@[simp] theorem State.setBudget_budget (s : State) (n : Nat) (x : Budget) : (s.setBudget n x).budget n = x := look_put_same _ _ _ _
theorem State.setBudget_budget_ne (s : State) {n m : Nat} (x : Budget) (h : m ≠ n) : (s.setBudget n x).budget m = s.budget m := look_put_ne _ _ _ h
@[simp] theorem State.setAdmEnt_frame (s : State) (n : Nat) (x : AdmEnt) :
    (s.setAdmEnt n x).clk = s.clk ∧ (s.setAdmEnt n x).sys = s.sys ∧ (s.setAdmEnt n x).hal = s.hal ∧ (s.setAdmEnt n x).lch = s.lch ∧
      (s.setAdmEnt n x).sch = s.sch ∧ (s.setAdmEnt n x).inp = s.inp ∧ (s.setAdmEnt n x).iso = s.iso ∧ (s.setAdmEnt n x).net = s.net ∧
      (s.setAdmEnt n x).fab = s.fab ∧ (s.setAdmEnt n x).flt = s.flt ∧ (s.setAdmEnt n x).ten = s.ten ∧ (s.setAdmEnt n x).dbg = s.dbg ∧
      (s.setAdmEnt n x).fb = s.fb ∧ (s.setAdmEnt n x).can = s.can ∧ (s.setAdmEnt n x).wake = s.wake ∧ (s.setAdmEnt n x).brg = s.brg ∧
      (s.setAdmEnt n x).key = s.key ∧ (s.setAdmEnt n x).keo = s.keo ∧ (s.setAdmEnt n x).bus = s.bus ∧ (s.setAdmEnt n x).mem = s.mem ∧
      (s.setAdmEnt n x).ecc = s.ecc ∧ (s.setAdmEnt n x).pending = s.pending :=
  ⟨rfl, rfl, rfl, rfl, rfl, rfl, rfl, rfl, rfl, rfl, rfl, rfl, rfl, rfl, rfl, rfl, rfl, rfl, rfl, rfl, rfl, rfl⟩
@[simp] theorem State.setAdmEnt_admEnt (s : State) (n : Nat) (x : AdmEnt) : (s.setAdmEnt n x).admEnt n = x := look_put_same _ _ _ _
theorem State.setAdmEnt_admEnt_ne (s : State) {n m : Nat} (x : AdmEnt) (h : m ≠ n) : (s.setAdmEnt n x).admEnt m = s.admEnt m := look_put_ne _ _ _ h
@[simp] theorem State.setSent_frame (s : State) (n : Nat) (x : SEnt) :
    (s.setSent n x).clk = s.clk ∧ (s.setSent n x).sys = s.sys ∧ (s.setSent n x).hal = s.hal ∧ (s.setSent n x).adm = s.adm ∧
      (s.setSent n x).lch = s.lch ∧ (s.setSent n x).inp = s.inp ∧ (s.setSent n x).iso = s.iso ∧ (s.setSent n x).net = s.net ∧
      (s.setSent n x).fab = s.fab ∧ (s.setSent n x).flt = s.flt ∧ (s.setSent n x).ten = s.ten ∧ (s.setSent n x).dbg = s.dbg ∧
      (s.setSent n x).fb = s.fb ∧ (s.setSent n x).can = s.can ∧ (s.setSent n x).wake = s.wake ∧ (s.setSent n x).brg = s.brg ∧
      (s.setSent n x).key = s.key ∧ (s.setSent n x).keo = s.keo ∧ (s.setSent n x).bus = s.bus ∧ (s.setSent n x).mem = s.mem ∧
      (s.setSent n x).ecc = s.ecc ∧ (s.setSent n x).pending = s.pending :=
  ⟨rfl, rfl, rfl, rfl, rfl, rfl, rfl, rfl, rfl, rfl, rfl, rfl, rfl, rfl, rfl, rfl, rfl, rfl, rfl, rfl, rfl, rfl⟩
@[simp] theorem State.setSent_sent (s : State) (n : Nat) (x : SEnt) : (s.setSent n x).sent n = x := look_put_same _ _ _ _
theorem State.setSent_sent_ne (s : State) {n m : Nat} (x : SEnt) (h : m ≠ n) : (s.setSent n x).sent m = s.sent m := look_put_ne _ _ _ h
@[simp] theorem State.setRoute_frame (s : State) (n : Nat) (x : Route) :
    (s.setRoute n x).clk = s.clk ∧ (s.setRoute n x).sys = s.sys ∧ (s.setRoute n x).hal = s.hal ∧ (s.setRoute n x).adm = s.adm ∧
      (s.setRoute n x).lch = s.lch ∧ (s.setRoute n x).sch = s.sch ∧ (s.setRoute n x).inp = s.inp ∧ (s.setRoute n x).iso = s.iso ∧
      (s.setRoute n x).net = s.net ∧ (s.setRoute n x).fab = s.fab ∧ (s.setRoute n x).flt = s.flt ∧ (s.setRoute n x).ten = s.ten ∧
      (s.setRoute n x).dbg = s.dbg ∧ (s.setRoute n x).fb = s.fb ∧ (s.setRoute n x).can = s.can ∧ (s.setRoute n x).wake = s.wake ∧
      (s.setRoute n x).key = s.key ∧ (s.setRoute n x).keo = s.keo ∧ (s.setRoute n x).bus = s.bus ∧ (s.setRoute n x).mem = s.mem ∧
      (s.setRoute n x).ecc = s.ecc ∧ (s.setRoute n x).pending = s.pending :=
  ⟨rfl, rfl, rfl, rfl, rfl, rfl, rfl, rfl, rfl, rfl, rfl, rfl, rfl, rfl, rfl, rfl, rfl, rfl, rfl, rfl, rfl, rfl⟩
@[simp] theorem State.setRoute_route (s : State) (n : Nat) (x : Route) : (s.setRoute n x).route n = x := look_put_same _ _ _ _
theorem State.setRoute_route_ne (s : State) {n m : Nat} (x : Route) (h : m ≠ n) : (s.setRoute n x).route m = s.route m := look_put_ne _ _ _ h
@[simp] theorem State.setChan_frame (s : State) (n : Nat) (x : Chan) :
    (s.setChan n x).clk = s.clk ∧ (s.setChan n x).sys = s.sys ∧ (s.setChan n x).hal = s.hal ∧ (s.setChan n x).adm = s.adm ∧
      (s.setChan n x).sch = s.sch ∧ (s.setChan n x).inp = s.inp ∧ (s.setChan n x).iso = s.iso ∧ (s.setChan n x).net = s.net ∧
      (s.setChan n x).fab = s.fab ∧ (s.setChan n x).flt = s.flt ∧ (s.setChan n x).ten = s.ten ∧ (s.setChan n x).dbg = s.dbg ∧
      (s.setChan n x).fb = s.fb ∧ (s.setChan n x).can = s.can ∧ (s.setChan n x).wake = s.wake ∧ (s.setChan n x).brg = s.brg ∧
      (s.setChan n x).key = s.key ∧ (s.setChan n x).keo = s.keo ∧ (s.setChan n x).bus = s.bus ∧ (s.setChan n x).mem = s.mem ∧
      (s.setChan n x).ecc = s.ecc ∧ (s.setChan n x).pending = s.pending :=
  ⟨rfl, rfl, rfl, rfl, rfl, rfl, rfl, rfl, rfl, rfl, rfl, rfl, rfl, rfl, rfl, rfl, rfl, rfl, rfl, rfl, rfl, rfl⟩
@[simp] theorem State.setChan_chan (s : State) (n : Nat) (x : Chan) : (s.setChan n x).chan n = x := look_put_same _ _ _ _
theorem State.setChan_chan_ne (s : State) {n m : Nat} (x : Chan) (h : m ≠ n) : (s.setChan n x).chan m = s.chan m := look_put_ne _ _ _ h
@[simp] theorem State.setBunt_frame (s : State) (n : Nat) (x : BuntPos) :
    (s.setBunt n x).clk = s.clk ∧ (s.setBunt n x).sys = s.sys ∧ (s.setBunt n x).hal = s.hal ∧ (s.setBunt n x).adm = s.adm ∧
      (s.setBunt n x).sch = s.sch ∧ (s.setBunt n x).inp = s.inp ∧ (s.setBunt n x).iso = s.iso ∧ (s.setBunt n x).net = s.net ∧
      (s.setBunt n x).fab = s.fab ∧ (s.setBunt n x).flt = s.flt ∧ (s.setBunt n x).ten = s.ten ∧ (s.setBunt n x).dbg = s.dbg ∧
      (s.setBunt n x).fb = s.fb ∧ (s.setBunt n x).can = s.can ∧ (s.setBunt n x).wake = s.wake ∧ (s.setBunt n x).brg = s.brg ∧
      (s.setBunt n x).key = s.key ∧ (s.setBunt n x).keo = s.keo ∧ (s.setBunt n x).bus = s.bus ∧ (s.setBunt n x).mem = s.mem ∧
      (s.setBunt n x).ecc = s.ecc ∧ (s.setBunt n x).pending = s.pending :=
  ⟨rfl, rfl, rfl, rfl, rfl, rfl, rfl, rfl, rfl, rfl, rfl, rfl, rfl, rfl, rfl, rfl, rfl, rfl, rfl, rfl, rfl, rfl⟩
@[simp] theorem State.setBunt_bunt (s : State) (n : Nat) (x : BuntPos) : (s.setBunt n x).bunt n = x := look_put_same _ _ _ _
theorem State.setBunt_bunt_ne (s : State) {n m : Nat} (x : BuntPos) (h : m ≠ n) : (s.setBunt n x).bunt m = s.bunt m := look_put_ne _ _ _ h
@[simp] theorem State.setPdie_frame (s : State) (n : Nat) (x : Die) :
    (s.setPdie n x).clk = s.clk ∧ (s.setPdie n x).sys = s.sys ∧ (s.setPdie n x).hal = s.hal ∧ (s.setPdie n x).adm = s.adm ∧
      (s.setPdie n x).sch = s.sch ∧ (s.setPdie n x).inp = s.inp ∧ (s.setPdie n x).iso = s.iso ∧ (s.setPdie n x).net = s.net ∧
      (s.setPdie n x).fab = s.fab ∧ (s.setPdie n x).flt = s.flt ∧ (s.setPdie n x).ten = s.ten ∧ (s.setPdie n x).dbg = s.dbg ∧
      (s.setPdie n x).fb = s.fb ∧ (s.setPdie n x).can = s.can ∧ (s.setPdie n x).wake = s.wake ∧ (s.setPdie n x).brg = s.brg ∧
      (s.setPdie n x).key = s.key ∧ (s.setPdie n x).keo = s.keo ∧ (s.setPdie n x).bus = s.bus ∧ (s.setPdie n x).mem = s.mem ∧
      (s.setPdie n x).ecc = s.ecc ∧ (s.setPdie n x).pending = s.pending :=
  ⟨rfl, rfl, rfl, rfl, rfl, rfl, rfl, rfl, rfl, rfl, rfl, rfl, rfl, rfl, rfl, rfl, rfl, rfl, rfl, rfl, rfl, rfl⟩
@[simp] theorem State.setPdie_pdie (s : State) (n : Nat) (x : Die) : (s.setPdie n x).pdie n = x := look_put_same _ _ _ _
theorem State.setPdie_pdie_ne (s : State) {n m : Nat} (x : Die) (h : m ≠ n) : (s.setPdie n x).pdie m = s.pdie m := look_put_ne _ _ _ h
@[simp] theorem State.setGrp_frame (s : State) (n : Nat) (x : Group) :
    (s.setGrp n x).clk = s.clk ∧ (s.setGrp n x).sys = s.sys ∧ (s.setGrp n x).hal = s.hal ∧ (s.setGrp n x).adm = s.adm ∧
      (s.setGrp n x).sch = s.sch ∧ (s.setGrp n x).inp = s.inp ∧ (s.setGrp n x).iso = s.iso ∧ (s.setGrp n x).net = s.net ∧
      (s.setGrp n x).fab = s.fab ∧ (s.setGrp n x).flt = s.flt ∧ (s.setGrp n x).ten = s.ten ∧ (s.setGrp n x).dbg = s.dbg ∧
      (s.setGrp n x).fb = s.fb ∧ (s.setGrp n x).can = s.can ∧ (s.setGrp n x).wake = s.wake ∧ (s.setGrp n x).brg = s.brg ∧
      (s.setGrp n x).key = s.key ∧ (s.setGrp n x).keo = s.keo ∧ (s.setGrp n x).bus = s.bus ∧ (s.setGrp n x).mem = s.mem ∧
      (s.setGrp n x).ecc = s.ecc ∧ (s.setGrp n x).pending = s.pending :=
  ⟨rfl, rfl, rfl, rfl, rfl, rfl, rfl, rfl, rfl, rfl, rfl, rfl, rfl, rfl, rfl, rfl, rfl, rfl, rfl, rfl, rfl, rfl⟩
@[simp] theorem State.setGrp_grp (s : State) (n : Nat) (x : Group) : (s.setGrp n x).grp n = x := look_put_same _ _ _ _
theorem State.setGrp_grp_ne (s : State) {n m : Nat} (x : Group) (h : m ≠ n) : (s.setGrp n x).grp m = s.grp m := look_put_ne _ _ _ h

/-- The memory of the machine right after reset is in canonical form: it lists nothing. -/
theorem reset_mem : State.reset.mem = [] := rfl

end Sys2Proof.Machine
end

