-- ==== Sys2Proof/Tests/Slice0.lean ====
section
/-! SUPPORT. The model's own tests: a WellFormed smoke test for every row of the table, a witness for every statement that has hypotheses
(one for each clause, at a boundary value), and small tests whose expected values are the spec's. -/
namespace Sys2Proof.Tests
open Sys2Proof Sys2Proof.Machine

set_option Elab.async false

/-! ### WellFormed -/

/-- Each check of WellFormed refuses an operand at its bound. -/
theorem test_ill_formed_1 : ([
    .kLdb 16 0 0 0, .kLdb 0 4 0 0, .kLdb 0 0 32768 0, .kLdb 0 0 0 8, .kStb 16 0 0 0, .kStb 0 4 0 0, .kStb 0 0 32768 0, .kStb 0 0 0 8,
    .kSetb 16 0 0 0, .kSetb 0 4 0 0, .kSetb 0 0 32768 0, .kSetb 0 0 0 8, .kRstb 16 0 0 0, .kRstb 0 4 0 0, .kRstb 0 0 32768 0,
    .kRstb 0 0 0 8, .kAndb 16 0 0 0, .kAndb 0 4 0 0, .kAndb 0 0 32768 0, .kAndb 0 0 0 8, .kOrb 16 0 0 0, .kOrb 0 4 0 0, .kOrb 0 0 32768 0,
    .kOrb 0 0 0 8, .kXorb 16 0 0 0, .kXorb 0 4 0 0, .kXorb 0 0 32768 0, .kXorb 0 0 0 8, .kAndnb 16 0 0 0, .kAndnb 0 4 0 0,
    .kAndnb 0 0 32768 0, .kAndnb 0 0 0 8, .kLd 16 0 0 0, .kLd 0 4 0 0, .kLd 0 0 262144 0, .kLd 0 0 0 8, .kSt 16 0 0 0, .kSt 0 4 0 0,
    .kSt 0 0 262144 0, .kSt 0 0 0 8, .kLdx 16 0 0 0 0, .kLdx 0 4 0 0 0, .kLdx 0 0 16 0 0, .kLdx 0 0 0 16384 0, .kLdx 0 0 0 0 8,
    .kStx 16 0 0 0 0, .kStx 0 4 0 0 0, .kStx 0 0 16 0 0, .kStx 0 0 0 16384 0, .kStx 0 0 0 0 8, .kLea 16 0 0, .kLea 0 4 0,
    .kLea 0 0 262144, .kAdd 16 0 0 0, .kAdd 0 16 0 0, .kAdd 0 0 16 0, .kAdd 0 0 0 8, .kSub 16 0 0 0, .kSub 0 16 0 0, .kSub 0 0 16 0] : List Instr).all (fun i => i.wellFormed == false) = true := by decide

/-- Each check of WellFormed refuses an operand at its bound. -/
theorem test_ill_formed_2 : ([
    .kSub 0 0 0 8, .kMul 16 0 0 0, .kMul 0 16 0 0, .kMul 0 0 16 0, .kMul 0 0 0 8, .kDiv 16 0 0 0, .kDiv 0 16 0 0, .kDiv 0 0 16 0,
    .kDiv 0 0 0 8, .kMod 16 0 0 0, .kMod 0 16 0 0, .kMod 0 0 16 0, .kMod 0 0 0 8, .kMin 16 0 0 0, .kMin 0 16 0 0, .kMin 0 0 16 0,
    .kMin 0 0 0 8, .kMax 16 0 0 0, .kMax 0 16 0 0, .kMax 0 0 16 0, .kMax 0 0 0 8, .kNeg 16 0 0, .kNeg 0 16 0, .kNeg 0 0 8, .kAbs 16 0 0,
    .kAbs 0 16 0, .kAbs 0 0 8, .kAnd 16 0 0 0, .kAnd 0 16 0 0, .kAnd 0 0 16 0, .kAnd 0 0 0 8, .kOr 16 0 0 0, .kOr 0 16 0 0, .kOr 0 0 16 0,
    .kOr 0 0 0 8, .kXor 16 0 0 0, .kXor 0 16 0 0, .kXor 0 0 16 0, .kXor 0 0 0 8, .kNot 16 0 0, .kNot 0 16 0, .kNot 0 0 8, .kShl 16 0 0 0,
    .kShl 0 16 0 0, .kShl 0 0 16 0, .kShl 0 0 0 8, .kShr 16 0 0 0, .kShr 0 16 0 0, .kShr 0 0 16 0, .kShr 0 0 0 8, .kRol 16 0 0 0,
    .kRol 0 16 0 0, .kRol 0 0 16 0, .kRol 0 0 0 8, .kRor 16 0 0 0, .kRor 0 16 0 0, .kRor 0 0 16 0, .kRor 0 0 0 8, .kCeq 16 0 0 0,
    .kCeq 0 16 0 0] : List Instr).all (fun i => i.wellFormed == false) = true := by decide

/-- Each check of WellFormed refuses an operand at its bound. -/
theorem test_ill_formed_3 : ([
    .kCeq 0 0 16 0, .kCeq 0 0 0 8, .kCne 16 0 0 0, .kCne 0 16 0 0, .kCne 0 0 16 0, .kCne 0 0 0 8, .kClt 16 0 0 0, .kClt 0 16 0 0,
    .kClt 0 0 16 0, .kClt 0 0 0 8, .kCle 16 0 0 0, .kCle 0 16 0 0, .kCle 0 0 16 0, .kCle 0 0 0 8, .kCgt 16 0 0 0, .kCgt 0 16 0 0,
    .kCgt 0 0 16 0, .kCgt 0 0 0 8, .kCge 16 0 0 0, .kCge 0 16 0 0, .kCge 0 0 16 0, .kCge 0 0 0 8, .kSel 16 0 0 0, .kSel 0 16 0 0,
    .kSel 0 0 16 0, .kSel 0 0 0 8, .kCvt 16 0 0 0, .kCvt 0 16 0 0, .kCvt 0 0 8 0, .kCvt 0 0 0 8, .kSqrt 16 0 0, .kSqrt 0 16 0,
    .kSqrt 0 0 8, .kTrunc 16 0 0, .kTrunc 0 16 0, .kTrunc 0 0 8, .kMov 16 0 0, .kMov 0 16 0, .kMov 0 0 8, .kLdi 16 0, .kLdi 0 1048576,
    .kLui 16 0, .kLui 0 1048576, .kAddi 16 0, .kAddi 0 1048576, .kBfx 16 0 0 0, .kBfx 0 16 0 0, .kBfx 0 0 64 0, .kBfx 0 0 0 64,
    .kBfi 16 0 0 0, .kBfi 0 16 0 0, .kBfi 0 0 64 0, .kBfi 0 0 0 64, .kJmp 1048576, .kJt 16 0, .kJt 0 1048576, .kJf 16 0, .kJf 0 1048576,
    .kCall 16 0, .kCall 0 1048576] : List Instr).all (fun i => i.wellFormed == false) = true := by decide

/-- Each check of WellFormed refuses an operand at its bound. -/
theorem test_ill_formed_4 : ([
    .kNow 16, .kNowr 16, .kTon 16 0 0, .kTon 0 4 0, .kTon 0 0 262144, .kTof 16 0 0, .kTof 0 4 0, .kTof 0 0 262144, .kTp 16 0 0,
    .kTp 0 4 0, .kTp 0 0 262144, .kRtrig 16 0 0, .kRtrig 0 4 0, .kRtrig 0 0 262144, .kFtrig 16 0 0, .kFtrig 0 4 0, .kFtrig 0 0 262144,
    .kCtu 16 0 0, .kCtu 0 4 0, .kCtu 0 0 262144, .kCtd 16 0 0, .kCtd 0 4 0, .kCtd 0 0 262144, .kSr 16 0 0, .kSr 0 4 0, .kSr 0 0 262144,
    .kRs 16 0 0, .kRs 0 4 0, .kRs 0 0 262144, .kRamp 16 0 0, .kRamp 0 4 0, .kRamp 0 0 262144, .kPid 16 0 0, .kPid 0 4 0, .kPid 0 0 262144,
    .kLimit 16 0 0 0, .kLimit 0 16 0 0, .kLimit 0 0 16 0, .kLimit 0 0 0 8, .sysReset {} 256, .sysProfile {} 256, .sysPincfg {} 256 0 0,
    .sysPincfg {} 0 256 0, .sysPincfg {} 0 0 256, .sysLifecycle {} 1099511627776 0 0, .sysLifecycle {} 0 4294967296 0,
    .sysLifecycle {} 0 0 256, .sysFuse {} 256 0 0 (zeros 32), .sysFuse {} 0 256 0 (zeros 32), .sysFuse {} 0 0 256 (zeros 32),
    .sysFuse {} 0 0 0 [], .sysUpdate {} 1099511627776 0 0, .sysUpdate {} 0 4294967296 0, .sysUpdate {} 0 0 256, .sysFbpoll {} 256,
    .sysWdi {} 256 0 0, .sysWdi {} 0 4294967296 0, .sysWdi {} 0 0 4294967296, .chanSet {} 256 0 0 0, .chanSet {} 0 256 0 0] : List Instr).all (fun i => i.wellFormed == false) = true := by decide

/-- Each check of WellFormed refuses an operand at its bound. -/
theorem test_ill_formed_5 : ([
    .chanSet {} 0 0 65536 0, .chanSet {} 0 0 0 4294967296, .chanConfig {} 1099511627776 0 0, .chanConfig {} 0 4294967296 0,
    .chanConfig {} 0 0 256, .chanClear { ring := 16 } 0, .chanClear { ctag := 65536 } 0, .chanClear { epoch := 65536 } 0,
    .chanClear {} 256, .chanBond {} 256 [] [], .chanBond {} 0 [256] [], .chanBond {} 0 [] [65536], .chanUnbond {} 256,
    .chanCapture {} 1099511627776 0 0 0 0, .chanCapture {} 0 4294967296 0 0 0, .chanCapture {} 0 0 256 0 0, .chanCapture {} 0 0 0 256 0,
    .chanCapture {} 0 0 0 0 65536, .netPortcfg {} 1099511627776 0 0, .netPortcfg {} 0 4294967296 0, .netPortcfg {} 0 0 256,
    .netVlan {} 65536 0 0, .netVlan {} 0 16777216 0, .netVlan {} 0 0 16777216, .netFdb {} 256 0 0 0, .netFdb {} 0 281474976710656 0 0,
    .netFdb {} 0 0 65536 0, .netFdb {} 0 0 0 16777216, .netTsn {} 1099511627776 0 0 0 0, .netTsn {} 0 4294967296 0 0 0,
    .netTsn {} 0 0 256 0 0, .netTsn {} 0 0 0 256 0, .netTsn {} 0 0 0 0 18446744073709551616, .netMacsec {} 256 0 0 0 0 0 0 0,
    .netMacsec {} 0 256 0 0 0 0 0 0, .netMacsec {} 0 0 256 0 0 0 0 0, .netMacsec {} 0 0 0 256 0 0 0 0, .netMacsec {} 0 0 0 0 256 0 0 0,
    .netMacsec {} 0 0 0 0 0 18446744073709551616 0 0, .netMacsec {} 0 0 0 0 0 0 4294967296 0,
    .netMacsec {} 0 0 0 0 0 0 0 18446744073709551616, .netSleep {} 256, .netWake {} 256 0, .netWake {} 0 4294967296,
    .netGptp {} 1099511627776 0, .netGptp {} 0 4294967296, .canCtrl {} 1099511627776 0 0, .canCtrl {} 0 4294967296 0, .canCtrl {} 0 0 256,
    .canMode {} 256 0, .canMode {} 0 256, .canObj {} 65536 0 0 0 0, .canObj {} 0 256 0 0 0, .canObj {} 0 0 256 0 0,
    .canObj {} 0 0 0 4294967296 0, .canObj {} 0 0 0 0 256, .canTx {} 65536 false 0 0 [], .canTx {} 0 false 1099511627776 0 [],
    .canTx {} 0 false 0 4294967296 [], .canAuth {} 256 0 0 0 0] : List Instr).all (fun i => i.wellFormed == false) = true := by decide

/-- Each check of WellFormed refuses an operand at its bound. -/
theorem test_ill_formed_6 : ([
    .canAuth {} 0 256 0 0 0, .canAuth {} 0 0 4294967296 0 0, .canAuth {} 0 0 0 256 0, .canAuth {} 0 0 0 0 256, .canTmaster {} 256 0 0 0,
    .canTmaster {} 0 256 0 0, .canTmaster {} 0 0 65536 0, .canTmaster {} 0 0 0 4294967296, .canLin {} 1099511627776 0 0,
    .canLin {} 0 4294967296 0, .canLin {} 0 0 256, .canLinrun {} 256 0 0, .canLinrun {} 0 256 0, .canLinrun {} 0 0 256,
    .wakeSource {} 1099511627776 0, .wakeSource {} 0 4294967296, .wakeXcvr {} 256 0, .wakeXcvr {} 0 256, .wakeIndicate {} 4294967296 0 0,
    .wakeIndicate {} 0 4294967296 0, .wakeIndicate {} 0 0 256, .wakeInh {} 256 0, .wakeInh {} 0 256, .bridgeRoute {} 65536 (zeros 48),
    .bridgeRoute {} 0 [], .bridgeClear {} 65536, .bridgeWakelist {} 256 0 0, .bridgeWakelist {} 0 256 0, .bridgeWakelist {} 0 0 65536,
    .keoreLoad {} 1099511627776 0, .keoreLoad {} 0 4294967296, .keoreStart {} 256, .keoreExchange {} 1099511627776 0 0,
    .keoreExchange {} 0 4294967296 0, .keoreExchange {} 0 0 4294967296, .keoreForce {} 4294967296 0 0, .keoreForce {} 0 256 0,
    .keoreForce {} 0 0 18446744073709551616, .keoreUnforce {} 4294967296, .schedWrite {} 65536 (zeros 32), .schedWrite {} 0 [],
    .schedClear {} 65536, .schedArm {} 65536 0, .schedArm {} 0 18446744073709551616, .schedDisarm {} 65536, .schedTime {} 256 0,
    .schedTime {} 0 18446744073709551616, .admitRequest {} 256 0 0 0 0, .admitRequest {} 0 256 0 0 0, .admitRequest {} 0 0 4294967296 0 0,
    .admitRequest {} 0 0 0 4294967296 0, .admitRequest {} 0 0 0 0 4294967296, .admitRelease {} 65536, .admitBudget {} 256 0 0 0,
    .admitBudget {} 0 4294967296 0 0, .admitBudget {} 0 0 4294967296 0, .admitBudget {} 0 0 0 4294967296, .admitWindow {} 256 0 0 0 0,
    .admitWindow {} 0 4294967296 0 0 0, .admitWindow {} 0 0 4294967296 0 0] : List Instr).all (fun i => i.wellFormed == false) = true := by decide

/-- Each check of WellFormed refuses an operand at its bound. -/
theorem test_ill_formed_7 : ([
    .admitWindow {} 0 0 0 4294967296 0, .admitWindow {} 0 0 0 0 18446744073709551616, .inputSw {} 256 0 0 0 0 0 0,
    .inputSw {} 0 256 0 0 0 0 0, .inputSw {} 0 0 256 0 0 0 0, .inputSw {} 0 0 0 256 0 0 0, .inputSw {} 0 0 0 0 4294967296 0 0,
    .inputSw {} 0 0 0 0 0 65536 0, .inputSw {} 0 0 0 0 0 0 65536, .inputAn {} 256 0 0, .inputAn {} 0 256 0, .inputAn {} 0 0 256,
    .inputPc {} 256 0 0 0 0, .inputPc {} 0 256 0 0 0, .inputPc {} 0 0 256 0 0, .inputPc {} 0 0 0 256 0, .inputPc {} 0 0 0 0 4294967296,
    .inputClear {} 256 0, .inputClear {} 0 256, .isoCfg {} 256 0 0, .isoCfg {} 0 256 0, .isoCfg {} 0 0 256, .isoSet {} 256 0,
    .isoSet {} 0 256, .isoClear {} 256, .tenAssign {} 256 0 0 0, .tenAssign {} 0 256 0 0, .tenAssign {} 0 0 65536 0,
    .tenAssign {} 0 0 0 65536, .tenBezel {} 256 0 0 0 0 0, .tenBezel {} 0 256 0 0 0 0, .tenBezel {} 0 0 256 0 0 0,
    .tenBezel {} 0 0 0 256 0 0, .tenBezel {} 0 0 0 0 4294967296 0, .tenBezel {} 0 0 0 0 0 4294967296, .tenRingcfg {} 256 0 0 0 0,
    .tenRingcfg {} 0 256 0 0 0, .tenRingcfg {} 0 0 65536 0 0, .tenRingcfg {} 0 0 0 256 0, .tenRingcfg {} 0 0 0 0 65536,
    .tenClasp {} 256 0 0 0 0 0, .tenClasp {} 0 256 0 0 0 0, .tenClasp {} 0 0 256 0 0 0, .tenClasp {} 0 0 0 256 0 0,
    .tenClasp {} 0 0 0 0 65536 0, .tenClasp {} 0 0 0 0 0 65536, .tenPost {} 256 (zeros 32), .tenPost {} 0 [],
    .tenTake {} 1099511627776 0 0, .tenTake {} 0 4294967296 0, .tenTake {} 0 0 256, .tenGate {} 65536 0, .tenGate {} 0 256,
    .keyWrite {} 1099511627776 0 0, .keyWrite {} 0 4294967296 0, .keyWrite {} 0 0 256, .keyDerive {} 256 0 [], .keyDerive {} 0 256 [],
    .keyErase {} 256, .keyPermit {} 256 0] : List Instr).all (fun i => i.wellFormed == false) = true := by decide

/-- Each check of WellFormed refuses an operand at its bound. -/
theorem test_ill_formed_8 : ([
    .keyPermit {} 0 256, .keyAead {} 1099511627776 0 0 0 (zeros 12) 0 0, .keyAead {} 0 4294967296 0 0 (zeros 12) 0 0,
    .keyAead {} 0 0 256 0 (zeros 12) 0 0, .keyAead {} 0 0 0 256 (zeros 12) 0 0, .keyAead {} 0 0 0 0 [] 0 0,
    .keyAead {} 0 0 0 0 (zeros 12) 1099511627776 0, .keyAead {} 0 0 0 0 (zeros 12) 0 4294967296, .keyCmac {} 1099511627776 0 0 0 0,
    .keyCmac {} 0 4294967296 0 0 0, .keyCmac {} 0 0 256 0 0, .keyCmac {} 0 0 0 1099511627776 0, .keyCmac {} 0 0 0 0 4294967296,
    .keySign {} 1099511627776 0 0 0 0, .keySign {} 0 4294967296 0 0 0, .keySign {} 0 0 256 0 0, .keySign {} 0 0 0 1099511627776 0,
    .keySign {} 0 0 0 0 4294967296, .keyVerify {} 1099511627776 0, .keyVerify {} 0 4294967296, .keyPubkey {} 1099511627776 0 0,
    .keyPubkey {} 0 4294967296 0, .keyPubkey {} 0 0 256, .attestReport {} 1099511627776 0 (zeros 32),
    .attestReport {} 0 4294967296 (zeros 32), .attestReport {} 0 0 [], .attestExtend {} 256 (zeros 48), .attestExtend {} 0 [],
    .attestIdentity {} 1099511627776 0, .attestIdentity {} 0 4294967296, .faultCfg {} 65536 0 0 0, .faultCfg {} 0 256 0 0,
    .faultCfg {} 0 0 256 0, .faultCfg {} 0 0 0 65536, .faultLogclr {} 256, .faultInject {} 65536, .faultRelease {} 65536,
    .stateRead {} 1099511627776 0 0 0 0, .stateRead {} 0 4294967296 0 0 0, .stateRead {} 0 0 65536 0 0, .stateRead {} 0 0 0 65536 0,
    .stateRead {} 0 0 0 0 65536, .debugEnable {} 256 0, .debugEnable {} 0 256, .debugTrace {} 256 0, .debugTrace {} 0 256,
    .captureTrigger 40, .gateCutApply 65536, .debugPortAccess 16 0 0 0 0 [] false, .debugPortAccess 0 7 0 0 0 [] false,
    .debugPortAccess 0 0 256 0 0 [] false, .debugPortAccess 0 0 0 1099511627776 0 [] false, .debugPortAccess 0 0 0 0 4097 [] false,
    .cmdDb 256 0 0 0, .cmdDb 0 16 0 0, .cmdDb 0 0 16 0, .cmdDb 0 0 0 4294967296, .cplDb 256 0 0 0, .cplDb 0 16 0 0, .cplDb 0 0 16 0] : List Instr).all (fun i => i.wellFormed == false) = true := by decide

/-- Each check of WellFormed refuses an operand at its bound. -/
theorem test_ill_formed_9 : ([
    .cplDb 0 0 0 4294967296, .ringAttach 256 0 0 0 0, .ringAttach 0 16 0 0 0, .ringAttach 0 0 16 0 0, .ringAttach 0 0 0 16 0,
    .ringAttach 0 0 0 0 256, .ringDetach 256 0 0, .ringDetach 0 16 0, .ringDetach 0 0 16, .commandFetch 16, .completionPublish 16,
    .directCmdOff 256 0 0 0 0, .directCmdOff 0 16 0 0 0, .directCmdOff 0 0 40 0 0, .directCmdOff 0 0 0 65536 0, .directCmdOff 0 0 0 0 16,
    .directCmdOn 256 0 0 0 0, .directCmdOn 0 16 0 0 0, .directCmdOn 0 0 40 0 0, .directCmdOn 0 0 0 65536 0, .directCmdOn 0 0 0 0 16,
    .directCmdPwm 256 0 0 0 0 0, .directCmdPwm 0 16 0 0 0 0, .directCmdPwm 0 0 40 0 0 0, .directCmdPwm 0 0 0 65536 0 0,
    .directCmdPwm 0 0 0 0 16 0, .directCmdPwm 0 0 0 0 0 1024, .eventCfgWrite 256 0 0 0, .eventCfgWrite 0 16 0 0, .eventCfgWrite 0 0 512 0,
    .eventCfgWrite 0 0 0 4294967296, .eventPendClear 256 0 0 0, .eventPendClear 0 16 0 0, .eventPendClear 0 0 512 0,
    .eventPendClear 0 0 0 4294967296, .eventSwtrig 256 0 0 0, .eventSwtrig 0 16 0 0, .eventSwtrig 0 0 512 0,
    .eventSwtrig 0 0 0 4294967296, .registerWriteOther 256 0 0 0, .registerWriteOther 0 16 0 0, .registerWriteOther 0 0 1099511627776 0,
    .registerWriteOther 0 0 0 18446744073709551616, .dtLoRead 256, .mtagWrite 6 0, .mtagWrite 0 18446744073709551616,
    .memoryAccess 256 0 0 0 [] false, .memoryAccess 0 3 0 0 [] false, .memoryAccess 0 0 1099511627776 0 [] false,
    .memoryAccess 0 0 0 4097 [] false, .railsValid 65536, .bootLateStages (List.replicate 9 0) [], .bootLateStages [0x10000000] [],
    .bootLateStages [] [0x10000000], .mpFault 2, .rtPairFault 3 0, .rtPairFault 0 2,
    .syncReception false 10 0, .pcEdge 4 false false] : List Instr).all (fun i => i.wellFormed == false) = true := by decide

/-- Each check of WellFormed refuses an operand at its bound. -/
theorem test_ill_formed_10 : ([
    .pcZEdge 4, .schedDispatch 1024, .schedActionApply 1024 0, .schedActionApply 0 65536, .admitGrantEnd 512, .admitDeadline 256,
    .admitHold 5, .turnOnEnd 40, .slewDeadline 40, .turnOffEnd 40, .pwmPeriodStart 40, .pwmOffEdge 40, .protectOc 40, .protectSc 40,
    .protectOt 40 0, .protectDt 40 0, .retryRestart 40, .retryCounterReset 40, .currentSample 40 0 0 0 0,
    .currentSample 0 0 0 0 65536, .openLoadOn 40, .offStateTest 40 0 0, .buntingImbalance 40, .groupUndervoltage 4 0,
    .groupUndervoltage 0 131072, .groupUvRecover 4 0, .groupUvRecover 0 131072, .groupOvervoltage 4 0, .groupOvervoltage 0 131072,
    .reversePolarity 4 false, .dieTempHigh 2 0, .cDieAbsent 3, .cDiePresent 3, .orphanHoldEnd 40, .frameIngress 20 [] false 0 0 0,
    .frameIngress 0 [] false 16777216 0 0, .frameIngress 0 [] false 0 64 0, .frameIngress 0 [] false 0 0 256, .cellWrite 20 0,
    .cellWrite 0 3, .cellRead 20 0, .cellRead 0 4, .rsqGap 20 0 0, .rsqGap 0 20 0, .rsqGap 0 0 8, .transmitStart 20, .transmitEnd 20 0 0, .transmitEnd 0 64 0, .transmitEnd 0 0 1099511627776,
    .gateEntryChange 20, .gateListSwitch 20, .fdbAgeout 8192, .cbRecoveryReset 256, .linkTrainingDone 20, .linkTrainingTimeout 20,
    .linkRetryTimer 20, .linkLoss 20, .mdioPoll 2 false, .usxgmiiInbandWord 2 0, .usxgmiiInbandWord 0 65536, .tc10SleepRequestRx 20,
    .tc10SleepAckRx 20] : List Instr).all (fun i => i.wellFormed == false) = true := by decide

/-- Each check of WellFormed refuses an operand at its bound. -/
theorem test_ill_formed_11 : ([
    .tc10SleepAbort 20, .tc10WakeupRx 20, .canFrameReceive 12 {} 0, .canFrameReceive 0 {} 16777216, .canTxStart 12,
    .canTxDone 12 0, .canTxDone 0 256, .canTxError 12 0 false, .canTxError 0 6 true, .canBusIntegration 12, .canModeFrameEnd 12,
    .canBusoffRecoveryStart 12, .canBusoffRecoveryEnd 12, .canRefmsgTimeout 12, .freshnessSave 256, .d2dError 20, .linSlotStart 8 false,
    .linResponseRx 8 [] 0 0, .linResponseRx 0 [] 3 0, .linResponseRx 0 [] 0 268435456, .linNoResponse 8, .wakeDetect 34 0 0,
    .segmentSleepEntry 22, .pennantReadyRx 22 0 0 false, .pennantReadyRx 0 256 0 false, .pennantReadyRx 0 0 16 false,
    .pennantReadyTimeout 22, .pennantCommitPoint 22, .pennantRetry 22, .wakeIndicateDeadline 16 0, .wakeIndicateDeadline 0 65536,
    .sleepWettingPulse 281474976710656, .bridgeLinAgeExpiry 8 0, .bridgeLinAgeExpiry 0 64, .sp19AvtpduReceive 4096 0 false [],
    .sp19AvtpduReceive 0 65536 false [], .keoreTaskRelease 8, .inputLevelAccept 3 0 false, .inputLevelAccept 0 48 false,
    .inputStuckDetect 48, .chatterWindowEnd 48, .inputUnset 3 0, .inputUnset 0 48, .adcConversion 2 0 0, .adcConversion 0 24 0,
    .adcConversion 0 0 4096, .isoBlankingEnd 16, .isoMismatchDetect 16, .isoOverload 16 false, .vfieldOk 65536, .vfieldLoss 65536,
    .fbPoll 4 0 0, .fbPoll 0 3 0, .fbPoll 0 0 65536, .fbPostedWrite 256 0 0 0 0 0, .fbPostedWrite 0 16 0 0 0 0,
    .fbPostedWrite 0 0 40 0 0 0, .fbPostedWrite 0 0 0 4294967296 0 0, .fbPostedWrite 0 0 0 0 3 0, .fbPostedWrite 0 0 0 0 0 4] : List Instr).all (fun i => i.wellFormed == false) = true := by decide

/-- Each check of WellFormed refuses an operand at its bound. -/
theorem test_ill_formed_12 : ([
    .fbDataBurst 40 [] 0 0 0, .fbDataBurst 0 (List.replicate 17 (0, 0)) 0 0 0, .fbDataBurst 0 [] 4294967296 0 0, .fbDataBurst 0 [] 0 3 0, .fbDataBurst 0 [] 0 0 4,
    .eventPulse 512, .longRunningOperationEnd 16 0 false, .longRunningOperationEnd 0 65536 false, .canReceiveError 12 0 false,
    .canReceiveError 0 6 false, .currentLimiting 40 0 0, .currentLimiting 0 4294967296 0, .currentLimiting 0 0 65536, .dieTempNormal 2 0, .bestMasterClockDecision false false 10 0,
    .bestMasterClockDecision false false 0 18446744073709551616, .preemptionVerification 6 false, .netWakeDeadline 20, .machineModeEntry 6,
    .machineModeReturn 6, .traceSyncPacket 11] : List Instr).all (fun i => i.wellFormed == false) = true := by decide

/-- With zero operands every command is well formed. -/
theorem test_well_formed_1 : ([
    .kNop , .kLdb 0 0 0 0, .kStb 0 0 0 0, .kSetb 0 0 0 0, .kRstb 0 0 0 0, .kAndb 0 0 0 0, .kOrb 0 0 0 0, .kXorb 0 0 0 0, .kAndnb 0 0 0 0,
    .kLd 0 0 0 0, .kSt 0 0 0 0, .kLdx 0 0 0 0 0, .kStx 0 0 0 0 0, .kLea 0 0 0, .kAdd 0 0 0 0, .kSub 0 0 0 0, .kMul 0 0 0 0, .kDiv 0 0 0 0,
    .kMod 0 0 0 0, .kMin 0 0 0 0, .kMax 0 0 0 0, .kNeg 0 0 0, .kAbs 0 0 0, .kAnd 0 0 0 0, .kOr 0 0 0 0, .kXor 0 0 0 0, .kNot 0 0 0,
    .kShl 0 0 0 0, .kShr 0 0 0 0, .kRol 0 0 0 0, .kRor 0 0 0 0, .kCeq 0 0 0 0, .kCne 0 0 0 0, .kClt 0 0 0 0, .kCle 0 0 0 0, .kCgt 0 0 0 0,
    .kCge 0 0 0 0, .kSel 0 0 0 0, .kCvt 0 0 0 0, .kSqrt 0 0 0, .kTrunc 0 0 0, .kMov 0 0 0, .kLdi 0 0, .kLui 0 0, .kAddi 0 0,
    .kBfx 0 0 0 0, .kBfi 0 0 0 0, .kJmp 0, .kJt 0 0, .kJf 0 0, .kCall 0 0, .kRet , .kNow 0, .kNowr 0, .kEnd , .kTon 0 0 0, .kTof 0 0 0,
    .kTp 0 0 0, .kRtrig 0 0 0, .kFtrig 0 0 0] : List Instr).all (fun i => i.wellFormed == true) = true := by decide

/-- With zero operands every command is well formed. -/
theorem test_well_formed_2 : ([
    .kCtu 0 0 0, .kCtd 0 0 0, .kSr 0 0 0, .kRs 0 0 0, .kRamp 0 0 0, .kPid 0 0 0, .kLimit 0 0 0 0, .sysReset {} 0, .sysProfile {} 0,
    .sysPincfg {} 0 0 0, .sysLifecycle {} 0 0 0, .sysFuse {} 0 0 0 (zeros 32), .sysUpdate {} 0 0 0, .sysFbpoll {} 0, .sysWdi {} 0 0 0,
    .chanSet {} 0 0 0 0, .chanConfig {} 0 0 0, .chanClear {} 0, .chanBond {} 0 [] [], .chanUnbond {} 0, .chanCapture {} 0 0 0 0 0,
    .netPortcfg {} 0 0 0, .netVlan {} 0 0 0, .netFdb {} 0 0 0 0, .netTsn {} 0 0 0 0 0, .netMacsec {} 0 0 0 0 0 0 0 0, .netSleep {} 0,
    .netWake {} 0 0, .netGptp {} 0 0, .canCtrl {} 0 0 0, .canMode {} 0 0, .canObj {} 0 0 0 0 0, .canTx {} 0 false 0 0 [],
    .canAuth {} 0 0 0 0 0, .canTmaster {} 0 0 0 0, .canLin {} 0 0 0, .canLinrun {} 0 0 0, .wakeSource {} 0 0, .wakeXcvr {} 0 0,
    .wakeIndicate {} 0 0 0, .wakeModule {}, .wakeInh {} 0 0, .bridgeRoute {} 0 (zeros 48), .bridgeClear {} 0, .bridgeWakelist {} 0 0 0,
    .keoreLoad {} 0 0, .keoreStart {} 0, .keoreStop {}, .keoreExchange {} 0 0 0, .keoreForce {} 0 0 0, .keoreUnforce {} 0,
    .schedWrite {} 0 (zeros 32), .schedClear {} 0, .schedArm {} 0 0, .schedDisarm {} 0, .schedTime {} 0 0, .admitRequest {} 0 0 0 0 0,
    .admitRelease {} 0, .admitBudget {} 0 0 0 0, .admitWindow {} 0 0 0 0 0] : List Instr).all (fun i => i.wellFormed == true) = true := by decide

/-- With zero operands every command is well formed. -/
theorem test_well_formed_3 : ([
    .inputSw {} 0 0 0 0 0 0 0, .inputAn {} 0 0 0, .inputPc {} 0 0 0 0 0, .inputClear {} 0 0, .isoCfg {} 0 0 0, .isoSet {} 0 0,
    .isoClear {} 0, .tenAssign {} 0 0 0 0, .tenBezel {} 0 0 0 0 0 0, .tenRingcfg {} 0 0 0 0 0, .tenClasp {} 0 0 0 0 0 0,
    .tenPost {} 0 (zeros 32), .tenTake {} 0 0 0, .tenGate {} 0 0, .keyWrite {} 0 0 0, .keyDerive {} 0 0 [], .keyErase {} 0,
    .keyPermit {} 0 0, .keyAead {} 0 0 0 0 (zeros 12) 0 0, .keyCmac {} 0 0 0 0 0, .keySign {} 0 0 0 0 0, .keyVerify {} 0 0,
    .keyPubkey {} 0 0 0, .attestReport {} 0 0 (zeros 32), .attestExtend {} 0 (zeros 48), .attestIdentity {} 0 0, .faultCfg {} 0 0 0 0,
    .faultRecover {}, .faultLogclr {} 0, .faultInject {} 0, .faultRelease {} 0, .stateRead {} 0 0 0 0 0, .debugEnable {} 0 0,
    .debugTrace {} 0 0, .captureTrigger 0, .gateCutApply 0, .debugPortAccess 0 0 0 0 0 [] false, .cmdDb 0 0 0 0, .cplDb 0 0 0 0,
    .ringAttach 0 0 0 0 0, .ringDetach 0 0 0, .commandFetch 0, .completionPublish 0, .directCmdOff 0 0 0 0 0, .directCmdOn 0 0 0 0 0,
    .directCmdPwm 0 0 0 0 0 0, .eventCfgWrite 0 0 0 0, .eventPendClear 0 0 0 0, .eventSwtrig 0 0 0 0, .registerWriteOther 0 0 0 0,
    .dtLoRead 0, .mtagWrite 0 0, .memoryAccess 0 0 0 0 [] false, .railsValid 0, .bootBcrApply false [],
    .bootLateStages [0] [0], .mpFault 0, .rtPairFault 0 0, .cdieOvertemp 0, .safeNChange false] : List Instr).all (fun i => i.wellFormed == true) = true := by decide

/-- With zero operands every command is well formed. -/
theorem test_well_formed_4 : ([
    .syncReception false 0 0, .pcEdge 0 false false, .pcZEdge 0, .schedDispatch 0, .schedActionApply 0 0, .admitGrantEnd 0, .admitDeadline 0,
    .admitHold 0, .turnOnEnd 0, .slewDeadline 0, .turnOffEnd 0, .pwmPeriodStart 0, .pwmOffEdge 0, .protectOc 0, .protectSc 0,
    .protectOt 0 0, .protectDt 0 0, .retryRestart 0, .retryCounterReset 0, .currentSample 0 0 0 0 0, .openLoadOn 0,
    .offStateTest 0 0 0, .buntingImbalance 0, .groupUndervoltage 0 0, .groupUvRecover 0 0, .groupOvervoltage 0 0,
    .reversePolarity 0 false, .dieTempHigh 0 0, .cDieAbsent 0, .cDiePresent 0, .orphanHoldEnd 0, .frameIngress 0 [] false 0 0 0,
    .cellWrite 0 0, .cellRead 0 0, .rsqGap 0 0 0, .transmitStart 0, .transmitEnd 0 0 0, .gateEntryChange 0, .gateListSwitch 0, .fdbAgeout 0,
    .cbRecoveryReset 0, .linkTrainingDone 0, .linkTrainingTimeout 0, .linkRetryTimer 0, .linkLoss 0, .mdioPoll 0 false,
    .usxgmiiInbandWord 0 0, .tc10SleepRequestRx 0, .tc10SleepAckRx 0, .tc10SleepAbort 0, .tc10WakeupRx 0, .canFrameReceive 0 {} 0,
    .canTxStart 0, .canTxDone 0 0, .canTxError 0 0 false, .canBusIntegration 0, .canModeFrameEnd 0, .canBusoffRecoveryStart 0,
    .canBusoffRecoveryEnd 0, .canRefmsgTimeout 0] : List Instr).all (fun i => i.wellFormed == true) = true := by decide

/-- With zero operands every command is well formed. -/
theorem test_well_formed_5 : ([
    .freshnessSave 0, .d2dError 0, .linSlotStart 0 false, .linResponseRx 0 [] 0 0, .linNoResponse 0, .wakeDetect 0 0 0, .segmentSleepEntry 0,
    .pennantReadyRx 0 0 0 false, .pennantReadyTimeout 0, .pennantCommitPoint 0, .pennantRetry 0, .wakeIndicateDeadline 0 0,
    .sleepWettingPulse 0, .bridgeLinAgeExpiry 0 0, .sp19AvtpduReceive 0 0 false [], .keoreTaskRelease 0, .retainPassEnd false,
    .inputLevelAccept 0 0 false, .inputStuckDetect 0, .chatterWindowEnd 0, .inputUnset 0 0, .adcConversion 0 0 0, .isoBlankingEnd 0,
    .isoMismatchDetect 0, .isoOverload 0 false, .vfieldOk 0, .vfieldLoss 0, .fbPoll 0 0 0, .fbPostedWrite 0 0 0 0 0 0,
    .fbDataBurst 0 [] 0 0 0, .eventPulse 0, .longRunningOperationEnd 0 0 false, .canReceiveError 0 0 false,
    .currentLimiting 0 0 0, .dieTempNormal 0 0, .bestMasterClockDecision false false 0 0, .preemptionVerification 0 false,
    .netWakeDeadline 0, .machineModeEntry 0, .machineModeReturn 0, .traceSyncPacket 0, .profileTransitionEnd , .keoreStartComplete ,
    .exchangePrepared , .exchangeCommit , .exchangeSwapEnd , .exchangeTimeout , .bezelFillDone , .mpCommandStart , .vbatRise ,
    .powerOnReset , .porstNAssert , .resetNExternal , .faultResetDemand , .bootStart , .bootFusesRead , .bootPatchApply ,
    .bootKeorePrepare , .bootFirstRelease , .clkLoss ] : List Instr).all (fun i => i.wellFormed == true) = true := by decide

/-- With zero operands every command is well formed. -/
theorem test_well_formed_6 : ([
    .wdiToggle , .wdiTimeout , .syncTimeout , .holdoverTimeout , .admitRefill , .admitWindowOpen , .safeLineDemand , .leakAudit ,
    .fabricInitStart , .fabricInitDiscard , .fabricInitRebuild , .fabricInitEnd , .sleepTimer , .moduleSleepLatchCheck ,
    .moduleSleepPowerOff , .bridgeLookup , .retainPassStart , .isoLinkSilent , .isoOrphanTimeout , .tenancyTableSave ,
    .faultReactionStart , .faultLogMirror , .barrierLinkReturn , .gptpSyncTransmit false] : List Instr).all (fun i => i.wellFormed == true) = true := by decide

/-! ### States for the witnesses -/

/-- A module that is up: the management processor serves, life cycle DEV, real-time pairs and application cores released, device time and
elapsed time well past every start-up delay. -/
def up : State :=
  { State.reset with
    clk := { State.reset.clk with cyc := 10 ^ 12, dt := 10 ^ 12 * 2 ^ 32 }
    sys := { State.reset.sys with pwr := .valid, boot := 8, lcCur := 2, rtHeld := [], appHeld := false } }

/-- The packet header of ring 0 with no epoch. -/
def h0 : Hdr := {}

/-- `up` with channel `n` as given. -/
def withChan (n : Nat) (c : Chan) : State := up.setChan n c

/-- `up` with bytes `l` at the start of system SRAM. -/
def withBytes (l : List Byte) : State := { up with mem := memPutAll [] 0x10000000 l }

/-- The descriptor's read, and the conditions on the machine after it. -/
def read (s : State) (len : Nat) (f : List Byte → State → Bool) : Bool :=
  match s.descIn h0 0x10000000 len with
  | some (r, s1) => s.mpUp && f r s1
  | none => false

/-- The bytes `l`, and zeros up to `n` of them. -/
def padTo (n : Nat) (l : List Byte) : List Byte := l ++ zeros (n - l.length)

/-- An image of one task whose code is `w`: areas PI, GL, RT and IA of 64 bytes, task 0 with a budget of 32 cycles. -/
def image (w : List Nat) : List Byte :=
  zeros 7 ++ [1] ++ zeros 4 ++ (([64, 64, 64, 64, 68, 92, 4 * w.length] : List Nat).map (toLE 4)).flatten ++ zeros 28 ++
    ([0, 1, 0, 0] : List Byte) ++ toLE 4 1000 ++ zeros 8 ++ toLE 4 32 ++ toLE 4 192 ++ (w.map (toLE 4)).flatten

/-- The engine RUNNING that image, task 0 in charge at word `pc` with `used` cycles used. -/
def engine (w : List Nat) (used : Nat) (t : KTask := {}) : State :=
  { up with keo := { State.reset.keo with st := 2, run := image w, cur := some 0, task := [(0, { t with st := 2, ib := 192, used := used })] } }

/-- Task 0 runs `i` with exactly the budget that `cost` takes left. -/
def runsAt (i : Instr) (cost : Nat) (t : KTask := {}) : Bool := (engine [encodeWord i] (32 - cost) t).kRuns 0 i cost

/-- `up` with an entry of the admission table. -/
def withEntry (i : Nat) (e : AdmEnt) : State := up.setAdmEnt i e

/-- `up` with channels 38 and 39 bonded. -/
def bondedWith (p : BuntPos) : State := ((up.setChan 38 { bunt := 38 }).setChan 39 { bunt := 38 }).setBunt 38 p

/-- The same, as CHAN.BOND leaves it. -/
def bondedUp : State := bondedWith { count := 2 }

/-- A channel record whose open-load test runs off (09 R224). -/
def offTest : List Byte := padTo 64 (padTo 31 [1] ++ [0x40])

/-- A gPTP record: enabled, version 1, port 9 in the mask. -/
def gptpRecord : List Byte := setBytes gptpDefault 1 [7] |> fun r => setBytes r 20 [0xFF, 3, 0]

/-- A scheduler record: a one-shot action on channel 0. -/
def schedRecord : List Byte := padTo 32 [0, 1]

/-- `up` with VFIELD in range and isolated channel `n` as given. -/
def isoWith (n : Nat) (x : IsoCh) : State := { up with iso := { up.iso with vfok := true, ch := [(n, x)] } }

/-- A CAN controller record: version 1, BRP 1, TSEG1 63, TSEG2 16, SJW 16, nominal bit rate 1 Mbit/s; CAN FD with 80 / 10 clocks. -/
def canRecord : List Byte := padTo 64 [1, 1, 1, 0, 63, 0, 16, 16, 1, 7, 2, 2]

/-- `up` with CAN controller 11 as given. -/
def canWith (x : Ctl) : State := up.setCtl 11 x

/-- `up` with a message object as given, and controller 11 on its bus. -/
def objWith (o : Nat) (x : CObj) : State := (canWith { rcd := canRecord, mode := 1 }).setCobj o x

/-- `up` with the first bytes of a Locket's first copy as given. -/
def slotWith (i : Nat) (l : List Byte) : State := { up with mem := memPutAll [] (slotAddr i) l }

/-- A LIN record: 19 200 bit/s, one published frame of 8 bytes with identifier 1, one schedule of one slot of 20 ms. -/
def linRecord : List Byte := [1, 0, 0, 0x4B, 13, 1, 1] ++ zeros 9 ++ [1, 8, 2, 0xFF, 1, 0, 0, 20]

/-- `up` with LIN controller 7 as given and its segment awake. -/
def linWith (x : Lin) : State := (up.setLin 7 x).setSeg 15 { xst := 0 }

/-- `up` with segment `g` as given, a Pennant segment whose sixteen nodes take part. -/
def segWith (g : Nat) (x : Seg) : State :=
  let s := up.setSeg g x
  { s with wake := { s.wake with rcd := setBytes (1 :: zeros 719) (16 + 32 * g) [4, 0, 0, 0, 0, 0, 0xFF, 0xFF] } }

/-- `up` with segment 7 in Sleep as given, waking on the frame 0x123 whatever its length and data (13 R337). -/
def wufSeg (x : Seg) : State :=
  let s := up.setSeg 7 { x with xst := 3 }
  { s with wake := { s.wake with rcd := setBytes (setBytes (1 :: zeros 719) 240 [2]) 252 (toLE 4 0x123 ++ toLE 4 0x7FF) } }

/-- A routing entry from CAN controller 0, identifier 0x123, to LIN controller 0, frame 5. -/
def routeRecord : List Byte := padTo 48 (padTo 24 [0, 0, 1, 1, 0x23, 1] ++ [12, 0, 5])

/-- `up` with the fault collector as given. -/
def fltWith (x : Flt) : State := { up with flt := x }

/-- `up` with ring `n` attached as given: size 1 024 entries at the start of system SRAM. -/
def ringWith (n : Nat) (r : Ring) : State := up.setRing n { r with enabled := true, st := 1, size := 10, base := 0x10000000 }

/-- DMA channel 63 bound to tag 15. -/
def as15 (s : State) : State := s.setOwner 1 63 15

/-- `up` with Clasp 31 between tags 0 and 1. -/
def claspWith (ab ba : List Msg) : State := up.setClasp 31 { ex := true, tagB := 1, evA := 0xFFFF, evB := 0xFFFF, epoch := 7, ab := ab, ba := ba }

/-- `up` with a gate as given. -/
def gateWith (g : Nat) (x : Gate) : State := up.setGate g x

/-- `up` with port `p` as given. -/
def portWith (p : Nat) (x : Port) : State := up.setPort p x

/-- `up` with the fabric as given. -/
def fabWith (x : Fab) : State := { up with fab := x }

/-- `up` with the engine as given. -/
def keoWith (x : Keo) : State := { up with keo := x }

/-- An image with one variable: tag 5, an INT in the GL area, not a parameter. -/
def varImage : List Byte := image [0x7F000000] |> fun p => setBytes (setBytes p 60 (toLE 4 96)) 64 (toLE 2 1) ++ (toLE 4 5 ++ [1, 1, 0, 0] ++ zeros 8 : List Byte)

/-- The machine before `BOOT` step `n`. -/
def bootAt (n : Nat) : State := { up with sys := { up.sys with boot := n } }

/-- `up` with a long-running operation that runs. -/
def opWith (c : Instr) : State := { withEntry 7 { st := 2 } with hal := { up.hal with ops := [{ h := { ctag := 9 }, cmd := c, handle := 7, running := true }] } }

/-- Every byte of system SRAM may be reached under tags 0 and 1 where no range covers any. -/
theorem span_sram (s : State) (tag kind a n : Nat) (h0 : s.ten.bez = []) (h1 : s.ten.fill = none) (ht : tag ≤ 1) (ha : 0x10000000 ≤ a)
    (hn : a + n ≤ 0x11000000) : s.spanOK halyardIni tag kind a n = true := by
  simp only [State.spanOK, List.all_eq_true, List.mem_range]
  intro i hi
  have hr : s.region (a + i) = .sram := by
    unfold State.region
    repeat (first | rw [if_neg (by omega)] | rw [if_pos (by omega)])
  have hb : (s.bezels.filter fun b => b.covers (a + i)) = [] := by
    simp [State.bezels, h0, look, look?, Bezel.covers]
  simp [State.mayReach, hr, State.bezelAllows, hb, ht, State.filling, h1, isRv32, isDma, halyardIni]

/-- An output buffer in system SRAM can be written. -/
theorem out_sram (s : State) (out n : Nat) (h0 : s.ten.bez = []) (h1 : s.ten.fill = none) (ha : 0x10000000 ≤ out) (hn : out + n ≤ 0x11000000) :
    s.outOK 0 out n n = true := by
  have hs := span_sram s 0 1 out n h0 h1 (by decide) ha hn
  simp only [State.outOK, hs]
  simp
  omega

/-- A descriptor's read of system SRAM, where no range is in force and no word holds an error. -/
theorem read_sram (s : State) (n : Nat) (hb : s.ten.bez = []) (hf : s.ten.fill = none) (he : s.ecc = []) (hp : 0 < n) (hn : n ≤ 0x200000) :
    s.descIn h0 0x10000000 n = some (memRead s.mem 0x10000000 n, s) := by
  have hs := span_sram s 0 0 0x10000000 n hb hf (by decide) (by omega) (by omega)
  have hl : s.load 0x10000000 n = (some (memRead s.mem 0x10000000 n), s) := by
    simp [State.load, State.badWords, he, State.scrub]
  simp only [State.descIn]
  rw [if_neg]
  · rw [hl]
  · rintro (h | h | h)
    · omega
    · omega
    · exact absurd (hs.symm.trans h) (by decide)

/-! ### Witnesses of the statements -/

/-- Witnesses of KeoreBitInstructionsComplete: the last byte and bit of the GL area, the budget met exactly. -/
theorem witness_keore_bits : ([.kLdb 15 2 63 7, .kAndb 0 2 63 7, .kOrb 0 2 63 7, .kXorb 0 2 63 7, .kAndnb 0 2 63 7, .kStb 0 2 63 7,
    .kSetb 0 2 63 7, .kRstb 0 2 63 7] : List Instr).all (fun i => runsAt i 1 && (engine [encodeWord i] 31).kClear 0 2 63 1 1) = true := by decide

/-- Witnesses of KeoreLoadsAndStoresComplete: the last LINT of an area, direct and indexed by 8. -/
theorem witness_keore_memory : ([.kLd 1 3 56 4, .kSt 1 3 56 4] : List Instr).all (fun i => runsAt i 1 && (engine [encodeWord i] 31).kClear 0 3 56 8 8) = true ∧
    ([.kLdx 1 3 2 56 4, .kStx 1 3 2 56 4] : List Instr).all (fun i => runsAt i 1 && (engine [encodeWord i] 31).kClear 0 3 (xOff 2 56 {}) 8 8) = true ∧
    runsAt (.kLea 1 3 262143) 1 = true := by decide

/-- Witnesses of KeoreBinaryInstructionsComplete. -/
theorem witness_keore_binary : ([.kAdd 3 1 2 1, .kSub 3 1 2 3, .kMul 3 1 2 2, .kMin 3 1 2 1, .kMax 3 1 2 3, .kAnd 3 1 2 5, .kOr 3 1 2 6, .kXor 3 1 2 5,
    .kShl 3 1 2 5, .kShr 3 1 2 6, .kRol 3 1 2 5, .kRor 3 1 2 6, .kSel 3 1 2 4, .kLimit 3 1 2 1, .kCeq 3 1 2 3, .kCne 3 1 2 3, .kClt 3 1 2 2,
    .kCle 3 1 2 4, .kCgt 3 1 2 1, .kCge 3 1 2 6] : List Instr).all (fun i => runsAt i 1) = true ∧
    ([.kDiv 3 1 2 2, .kMod 3 1 2 1] : List Instr).all (fun i => runsAt i 8) = true := by decide

/-- Witnesses of KeoreUnaryInstructionsComplete. -/
theorem witness_keore_unary : ([.kNop, .kNeg 3 1 2, .kAbs 3 1 3, .kNot 3 1 5, .kCvt 3 1 2 3, .kTrunc 3 1 2, .kMov 3 1 0, .kLdi 3 1048575, .kLui 3 1048575,
    .kAddi 3 524288, .kBfx 3 1 63 0, .kBfi 3 1 0 63, .kNow 3, .kNowr 15] : List Instr).all (fun i => runsAt i 1) = true ∧
    runsAt (.kSqrt 3 1 3) 12 = true := by decide

/-- Witnesses of KeoreControlInstructionsComplete: a jump back to the word itself, a condition that holds and one that does not, a sixteenth
CALL with the last byte of IA as its base, and a RET to what the call left. -/
theorem witness_keore_control : runsAt (.kJmp 0xFFFFF) 2 = true ∧ runsAt (.kJt 1 0) 1 = true ∧ (engine [] 0).kFlag 0 1 = false ∧
    runsAt (.kJf 1 5) 2 = true ∧ runsAt (.kJt 1 0) 2 { w := List.replicate 16 1 } = true ∧
    (engine [] 0 { w := List.replicate 16 1 }).kFlag 0 1 = true ∧ runsAt (.kJf 1 5) 1 { w := List.replicate 16 1 } = true ∧
    runsAt (.kCall 2 3) 2 { w := List.replicate 16 255, stack := List.replicate 15 (0, 0) } = true ∧
    areaBase (image []) 3 = 192 ∧ imgIa (image []) = 64 ∧ runsAt .kRet 2 { stack := [(7, 200)] } = true := by decide

/-- Witnesses of KeoreEndCompletes: no output, no handover, the budget met exactly. -/
theorem witness_keore_end : (let s := engine [encodeWord .kEnd] 29
    s.kReady == some 0 && s.kFetch 0 == some .kEnd && ((s.kCharge 0 1).outLoop 0 32 (s.taskOuts 0)).1 && (s.taskOuts 0).isEmpty && (s.handOver 0).1 == 0) = true := by decide

/-- Witnesses of KeoreTimersComplete, KeoreSmallBlocksComplete and KeoreRampAndPidComplete: the last place each block's bytes fit. -/
theorem witness_keore_blocks : ([.kTon 13 3 48, .kTof 0 3 48, .kTp 0 3 48] : List Instr).all (fun i => runsAt i 2) = true ∧
    (engine [] 0).kClear 0 3 48 16 8 = true ∧
    ([.kRtrig 0 3 56, .kFtrig 0 3 56, .kSr 0 3 56, .kRs 0 3 56, .kCtu 0 3 56, .kCtd 0 3 56] : List Instr).all (fun i => runsAt i 1) = true ∧
    (engine [] 0).kClear 0 3 56 8 8 = true ∧ runsAt (.kRamp 0 3 48) 6 = true ∧ runsAt (.kPid 0 3 24) 16 = true ∧
    (engine [] 0).kClear 0 3 24 40 8 = true := by decide

/-- Witnesses of ChannelCommandsComplete. -/
theorem witness_channel_commands_complete :
    (readyChan [] (.chanSet h0 39 2 1023 10000000) up) = true ∧
    (readyChan [] (.chanSet h0 0 1 0 0) (withChan 0 { st := .retryWait })) = true ∧
    (read (withBytes (padTo 64 [1])) 64 fun r s => s.asksChan h0 39 && readyChan r (.chanConfig h0 0x10000000 64 39) s) = true ∧
    (readyChan [] (.chanClear h0 39) (withChan 39 { st := .retryWait }) && ((withChan 39 { st := .retryWait }).chan ((withChan 39 { st := .retryWait }).lead 39)).st != .latched) = true ∧
    (readyChan [] (.chanClear h0 0) (withChan 0 { st := .latched, tj := 64 }) && ((withChan 0 { st := .latched, tj := 64 }).chan ((withChan 0 { st := .latched, tj := 64 }).lead 0)).st == .latched) = true ∧
    (readyChan [] (.chanBond h0 2 [38, 39] [0, 0]) up) = true ∧
    (readyChan [] (.chanUnbond h0 39) bondedUp) = true ∧
    (readyChan [] (.chanCapture h0 0x10000000 80 39 1 16) up) = true ∧
    (readyChan [] (.chanCapture h0 0x10000000 20 0 0 1) up) = true ∧
    (readyChan [] (.captureTrigger 39) (withChan 39 { cap := some { kind := 1, trig := some (10 ^ 9, true) } })) = true ∧
    (let s := withChan 39 { cmdAt := some (10 ^ 12) }; s.live && s.asksChan h0 39 && !s.chTurn (s.lead 39) 4) = true ∧
    (readyChan [] (.directCmdOff 0x10 0 39 0 0) up) = true ∧
    (readyChan [] (.directCmdOn 0x10 0 39 0 0) up) = true ∧
    (readyChan [] (.directCmdPwm 0x10 0 39 0 0 1023) up) = true := by and_intros <;> decide +kernel

/-- Witnesses of AdmissionCommandsComplete. -/
theorem witness_admission_commands_complete :
    (readyAdmit (.admitRequest h0 8 4 100 1 10000000) up && up.admFree == some 0) = true ∧
    (readyAdmit (.admitRequest h0 1 0 1000 1 0) up) = true ∧
    (readyAdmit (.admitRelease h0 7) (withEntry 7 { st := 2 }) && (withEntry 7 { st := 2 }).handleIdx 7 == some 7) = true ∧
    (readyAdmit (.admitBudget h0 4 30000 0 0) up) = true ∧
    (readyAdmit (.admitBudget h0 0 400000 2000000 400000) up) = true ∧
    (readyAdmit (.admitWindow h0 1 1000000 999900 100 5) up) = true ∧
    (readyAdmit (.admitWindow h0 0 0 0 0 0) up) = true ∧
    (readyAdmit .admitRefill up) = true ∧
    (readyAdmit (.admitGrantEnd 255) (withEntry 255 { st := 2, endCyc := 10 ^ 12 })) = true ∧
    (readyAdmit (.admitGrantEnd (256 + 0)) { up with adm := { up.adm with outside := [{ endCyc := 10 ^ 12 }] } } && ({ up with adm := { up.adm with outside := [{ endCyc := 10 ^ 12 }] } } : State).adm.outside[0]? == some { endCyc := 10 ^ 12 }) = true ∧
    (readyAdmit .admitWindowOpen { up with adm := { up.adm with winEn := true, frame := 1000, length := 1000 } }) = true ∧
    (readyAdmit (.admitDeadline 0) (withEntry 0 { st := 1, deadCyc := 10 ^ 12 })) = true ∧
    (let s := withEntry 0 { st := 1, bud := 4 }; (s.admEnt 0).st == 1 && (s.admEnt 0).bud == 4 && (s.adm.tab.map (·.1)) == [0] && s.adm.tab.length == 1 && decide ((s.admEnt 0).arrCyc + msCyc 2 ≤ s.cyc) && (s.budget 4).hold == noHandle) = true := by and_intros <;> decide +kernel

/-- Witnesses of ChannelStateEventsComplete. -/
theorem witness_channel_state_events_complete :
    (readyChanEvent (.turnOnEnd 39) (withChan 39 { st := .turnOn, act := .pwm, bwinEnd := 10 ^ 12 }) && ((withChan 39 { st := .turnOn, act := .pwm }).chan 39).act == .pwm) = true ∧
    (readyChanEvent (.turnOnEnd 0) (withChan 0 { st := .turnOn, act := .on }) && ((withChan 0 { st := .turnOn, act := .on }).chan 0).act != .pwm) = true ∧
    (readyChanEvent (.turnOffEnd 39) (withChan 39 { st := .turnOff })) = true ∧
    (readyChanEvent (.turnOffEnd 0) (withChan 0 { st := .turnOff, clampShut := 3 }) && ((withChan 0 { st := .turnOff, clampShut := 3 }).chan 0).clampShut != 0) = true ∧
    (readyChanEvent (.slewDeadline 0) (withChan 0 { st := .turnOn, out := true, t0 := 10 ^ 12 - msCyc 10 - 200 })) = true ∧
    (readyChanEvent (.pwmPeriodStart 39) (withChan 39 { st := .pwm, per := 7 })) = true ∧
    (readyChanEvent (.pwmOffEdge 39) (withChan 39 { st := .pwm, out := true })) = true ∧
    (readyChanEvent (.protectOc 39) (withChan 39 { st := .on, limit := true, limAt := 10 ^ 12 - tlimCyc 39 })) = true ∧
    (readyChanEvent (.protectSc 39) (withChan 39 { st := .on, scOn := true, scAt := 10 ^ 12 - usCyc 20 })) = true ∧
    (readyChanEvent (.protectOt 39 175) (withChan 39 { st := .on })) = true ∧
    (readyChanEvent (.protectDt 39 85) (withChan 39 { st := .on })) = true ∧
    (readyChanEvent (.retryRestart 39) (withChan 39 { st := .retryWait, act := .on, shutCyc := 0 })) = true ∧
    (readyChanEvent (.retryCounterReset 39) (withChan 39 { st := .pwm, onCyc := 10 ^ 12 - msCyc 1000 })) = true ∧
    (readyChanEvent (.orphanHoldEnd 39) (withChan 39 { st := .orphanHold, orphanEnd := 10 ^ 12 })) = true := by and_intros <;> decide +kernel

/-- Witnesses of ChannelMeasurementEventsComplete. -/
theorem witness_channel_measurement_events_complete :
    (readyChanEvent (.currentLimiting 39 20000 0) (withChan 39 { st := .on, out := true })) = true ∧
    (readyChanEvent (.currentLimiting 0 0 0) (withChan 0 { st := .turnOn, out := true })) = true ∧
    (readyChanEvent (.currentSample 39 2048 2048 (-40) 6000) ((withChan 39 { smpNext := 10 ^ 9 }).setPdie 1 { dt := 10 ^ 9 * 2 ^ 32 })) = true ∧
    (readyChanEvent (.openLoadOn 39) (withChan 39 { st := .on, olLow := some (10 ^ 12 - msCyc 50) })) = true ∧
    (readyChanEvent (.openLoadOn 0) (withChan 0 { st := .on, olOn := true, olHigh := some 0 })) = true ∧
    (readyChanEvent (.offStateTest 39 1999 1999) (withChan 39 { offRead := 1, cfg := offTest, offAt := 10 ^ 12 - msCyc 10 }) && bit (le offTest 30 2) 14) = true ∧
    (readyChanEvent (.offStateTest 39 2000 1999) (withChan 39 { offRead := 2, cfg := offTest })) = true ∧
    (readyChanEvent (.offStateTest 39 2000 2000) (withChan 39 { offRead := 3, cfg := offTest })) = true ∧
    (let s := withChan 0 { stbAt := some 0 }; readyChanEvent (.offStateTest 0 0 0) s && !bit (le (s.chan 0).cfg 30 2) 14 && decide (((s.grp (chGroup 0)).mv2 : Int) * 2 ≤ 2 * 0) && ranFor (s.chan 0).stbAt (msCyc 10) s.cyc) = true ∧
    (readyChanEvent (.buntingImbalance 39) (bondedWith { count := 2, imbRun := 1, imbAt := 10 ^ 12 - msCyc 10 })) = true ∧
    (readyChanEvent (.buntingImbalance 38) (bondedWith { count := 2, imbal := true, imbRun := 2, imbAt := 10 ^ 12 - msCyc 100 })) = true ∧
    (readyChanEvent (.groupUndervoltage 3 4799) (up.setGrp 3 { uvLow := some (10 ^ 12 - usCyc 20) })) = true ∧
    (readyChanEvent (.groupUvRecover 3 5402) (up.setGrp 3 { uv := true, uvHigh := some (10 ^ 12 - msCyc 1) })) = true ∧
    (readyChanEvent (.groupOvervoltage 3 20002) (up.setGrp 3 { ovHigh := some (10 ^ 12 - usCyc 100) })) = true ∧
    (readyChanEvent (.groupOvervoltage 3 9600) (up.setGrp 3 { ov := true, ovLow := some (10 ^ 12 - msCyc 1) })) = true ∧
    (readyChanEvent (.reversePolarity 3 true) up) = true ∧
    (readyChanEvent (.dieTempHigh 1 150) up) = true ∧
    (readyChanEvent (.dieTempNormal 1 149) up) = true ∧
    (readyChanEvent (.cDieAbsent 1) (up.setPdie 1 { seen := true, lastKa := 10 ^ 12 - usCyc 200 })) = true ∧
    (readyChanEvent (.cDieAbsent 2) { up with iso := { up.iso with die := { seen := true } } }) = true ∧
    (readyChanEvent (.cDiePresent 1) (up.setPdie 1 { absent := true, absentAt := 1, lastKa := 2 })) = true ∧
    (readyChanEvent (.cDiePresent 2) { up with iso := { up.iso with die := { absent := true, lastKa := 2 } } }) = true := by and_intros <;> decide +kernel

/-- Witnesses of DeviceTimeCommandsComplete. -/
theorem witness_device_time_commands_complete :
    (readyTime (.syncReception false 9 0) { up with clk := { up.clk with disc := .locked, slavePort := 9, gptp := gptpRecord } }) = true ∧
    (readyTime .syncTimeout { up with clk := { up.clk with disc := .locked } }) = true ∧
    (readyTime .holdoverTimeout { up with clk := { up.clk with disc := .holdover } }) = true ∧
    (readyTime (.bestMasterClockDecision false true 9 0) { up with clk := { up.clk with gptp := gptpRecord } }) = true ∧
    (readyTime (.syncReception true 9 0) { up with clk := { up.clk with slavePort2 := 9, gptp := setBytes gptpRecord 1 [7] } }) = true ∧
    (readyTime (.bestMasterClockDecision true true 9 0) { up with clk := { up.clk with gptp := setBytes gptpRecord 1 [7] } }) = true ∧
    (readyTime (.gptpSyncTransmit true) { up with clk := { up.clk with gm2 := true, gptp := setBytes gptpRecord 1 [7] } }) = true ∧
    (readyTime (.gptpSyncTransmit false) { up with clk := { up.clk with disc := .gm } }) = true ∧
    (readyTime (.dtLoRead 0x10) up) = true ∧
    (readyTime (.schedTime h0 1 0) up) = true ∧
    (readyTime (.schedTime h0 0 5) { up with clk := { up.clk with disc := .gm } }) = true := by and_intros <;> decide +kernel

/-- Witnesses of SchedulerCommandsComplete. -/
theorem witness_scheduler_commands_complete :
    (readyTime (.schedWrite h0 1023 schedRecord) up) = true ∧
    (readyTime (.schedClear h0 1023) (up.setSent 1023 { st := 1 })) = true ∧
    (readyTime (.schedArm h0 1023 (2 ^ 63)) (up.setSent 1023 { st := 1 })) = true ∧
    (readyTime (.schedArm h0 0 2147483647) (up.setSent 0 { st := 3, rcd := padTo 32 [1] })) = true ∧
    (readyTime (.schedDisarm h0 1023) (up.setSent 1023 { st := 2 })) = true ∧
    (readyTime (.schedDispatch 1023) (up.setSent 1023 { st := 2, rcd := schedRecord, next := 10 ^ 12 })) = true := by and_intros <;> decide +kernel

/-- Witnesses of InputCommandsComplete. -/
theorem witness_input_commands_complete :
    (readyInput (.inputSw h0 47 13 65 3 86400000 2 60000) up) = true ∧
    (readyInput (.inputSw h0 0 0 0 0 0 0 0) up) = true ∧
    (readyInput (.inputStuckDetect 47) { up with inp := { up.inp with sw := [(47, { value := true, maxAct := 1, actAt := 10 ^ 12 - msCyc 1 })] } }) = true ∧
    (readyInput (.chatterWindowEnd 47) { up with inp := { up.inp with sw := [(47, { conf := true, win := 10, winAt := 10 ^ 12 - msCyc 10 })] } }) = true ∧
    (readyInput (.inputClear h0 47 3) { up with inp := { up.inp with sw := [(47, { stuck := true, chatF := true, chat := 3, lastWin := some 2 })] } }) = true ∧
    (readyInput (.inputClear h0 47 0) up) = true ∧
    (readyInput (.inputAn h0 23 1 65) up) = true ∧
    (readyInput (.adcConversion 1 23 4095) { up with inp := { up.inp with an := [(23, { conv := some 1 })], conv := [(1, { conf := true })] } }) = true ∧
    (readyInput (.inputPc h0 3 2 65 1 (2 ^ 31)) up) = true ∧
    (readyInput (.pcEdge 3 true false) { up with inp := { up.inp with pc := [(3, { conf := true, a := some false, b := some false })] } }) = true ∧
    (readyInput (.pcZEdge 3) { up with inp := { up.inp with pc := [(3, { conf := true, z := some false })] } }) = true ∧
    (readyInput (.inputLevelAccept 0 47 true) { up with inp := { up.inp with sw := [(47, { conf := true })] } }) = true ∧
    (readyInput (.inputLevelAccept 0 47 true) { up with inp := { up.inp with sw := [(47, { conf := true, chat := 2, win := 10, winCnt := 2, filt := some false })] } }) = true ∧
    (readyInput (.inputLevelAccept 1 11 true) { up with inp := { up.inp with pc := [(3, { conf := true })] } }) = true ∧
    (readyInput (.inputLevelAccept 2 15 true) (isoWith 15 { mode := 0 })) = true ∧
    (readyInput (.inputUnset 0 47) { up with inp := { up.inp with sw := [(47, { conf := true })] } }) = true ∧
    (readyInput (.inputUnset 2 15) (isoWith 15 { mode := 0 })) = true := by and_intros <;> decide +kernel

/-- Witnesses of IsolatedChannelCommandsComplete. -/
theorem witness_isolated_channel_commands_complete :
    (readyInput (.isoCfg h0 15 2 65) up) = true ∧
    (readyInput (.isoSet h0 15 1) (isoWith 15 { mode := 2, cmd := true })) = true ∧
    (readyInput (.isoSet h0 15 0) (isoWith 15 { mode := 2, cmd := true })) = true ∧
    (readyInput (.isoClear h0 15) (isoWith 15 { mode := 2 })) = true ∧
    (readyInput (.isoBlankingEnd 15) (isoWith 15 { blank := some (10 ^ 12) })) = true ∧
    (readyInput (.isoMismatchDetect 15) (isoWith 15 { mode := 2, cmd := true, filt := some false })) = true ∧
    (readyInput (.isoOverload 15 true) (isoWith 15 { mode := 2, cmd := true })) = true ∧
    (readyInput (.vfieldOk 16000) { up with iso := { up.iso with okRun := some 0 } }) = true ∧
    (readyInput (.vfieldLoss 13999) { up with iso := { up.iso with vfok := true, lowRun := some (10 ^ 12 - usCyc 100) } }) = true ∧
    (readyInput .isoLinkSilent { up with iso := { up.iso with linkok := true } }) = true ∧
    (readyInput .barrierLinkReturn up) = true ∧
    (readyInput .isoOrphanTimeout (isoWith 15 { hold := true })) = true := by and_intros <;> decide +kernel

/-- Witnesses of CanCommandsComplete. -/
theorem witness_can_commands_complete :
    (read (withBytes canRecord) 64 fun r s => readyCan r (.canCtrl h0 0x10000000 64 11) s) = true ∧
    (readyCan [] (.canMode h0 11 3) (canWith { rcd := canRecord })) = true ∧
    (readyCan [] (.canMode h0 0 0) up) = true ∧
    (readyCan [] (.canBusIntegration 11) (canWith { mode := 1, integ := true })) = true ∧
    (readyCan [] (.canModeFrameEnd 11) (canWith { mode := 1, want := some 2 })) = true ∧
    (readyCan [] (.canBusoffRecoveryStart 11) (canWith { mode := 1, err := 2, rcd := setBytes canRecord 18 [1] })) = true ∧
    (readyCan [] (.canBusoffRecoveryEnd 11) (canWith { mode := 1, err := 2, recov := true })) = true ∧
    (readyCan [] (.canObj h0 2559 0 1 0x7FF 11) (canWith { rcd := canRecord })) = true ∧
    (readyCan [] (.canObj h0 2048 0 1 63 19) up) = true ∧
    (readyCan [] (.canTx h0 2559 false 0 0 (zeros 8)) (objWith 2559 { conf := true, ctrl := 11 })) = true ∧
    (readyCan [] (.canTx h0 2048 false 0 0 (zeros 48)) (objWith 2048 { conf := true, ctrl := 11, fmt := 1 })) = true ∧
    (read (objWith 2559 { conf := true, ctrl := 11 }) 8 fun r s => readyCan r (.canTx h0 2559 true 0x10000000 8 []) s && readyCan r (.canTx h0 2559 true 0x10000000 8 []) (objWith 2559 { conf := true, ctrl := 11 })) = true ∧
    (readyCan [] (.canAuth h0 11 1 0x7FF 127 0) up) = true ∧
    (readyCan [] (.canAuth h0 11 0 0x7FF 127 16) (slotWith 127 [2, 3])) = true ∧
    (readyCan [] (.canTmaster h0 11 0 1023 0) up) = true ∧
    (readyCan [] (.canTmaster h0 11 1 1023 0x7FF) (up.setSent 1023 { st := 1, rcd := setBytes (zeros 32) 1 [6] |> fun r => setBytes r 4 [11] })) = true ∧
    (readyCan [] (.canRefmsgTimeout 11) (canWith { refQ := some (10 ^ 12 - msCyc 10) })) = true ∧
    (readyCan [] (.freshnessSave 0) { up with can := { up.can with prot := [{ due := true, granted := true }] } }) = true ∧
    (readyCan [] (.freshnessSave 0) { up with can := { up.can with prot := [{ due := true }] } }) = true := by and_intros <;> decide +kernel

/-- Witnesses of CanBusEventsComplete. -/
theorem witness_can_bus_events_complete :
    (readyCanBus (.canFrameReceive 11 { data := zeros 8 } 0) (canWith { mode := 2 })) = true ∧
    (readyCanBus (.canReceiveError 11 5 true) (canWith { mode := 1 })) = true ∧
    (let s := wufSeg {}; s.selWake 7 && validFrame { id := 0x123, data := [1] } && s.wakeUpFrame 7 { id := 0x123, data := [1] }) = true ∧
    ((wufSeg { wufErr := 31 }).selWake 7) = true ∧
    (readyCanBus (.canTxStart 11) (canWith { mode := 1 })) = true ∧
    (readyCanBus (.canTxDone 11 255) (canWith { tx := some {} })) = true ∧
    (readyCanBus (.canTxError 11 5 true) (canWith { tx := some {} })) = true ∧
    (readyCanBus (.d2dError 7) up) = true ∧
    (readyCanBus (.d2dError 19) up) = true := by and_intros <;> decide +kernel

/-- Witnesses of LinCommandsComplete. -/
theorem witness_lin_commands_complete :
    (read (withBytes linRecord) 24 fun r s => readyLin r (.canLin h0 0x10000000 24 7) s && s.owner 6 7 == h0.ring) = true ∧
    (readyLin [] (.canLinrun h0 7 0 1) (linWith { rcd := linRecord })) = true ∧
    (readyLin [] (.canLinrun h0 7 0xFF 0) up) = true ∧
    (readyLin [] (.linSlotStart 7 false) (linWith { rcd := linRecord, run := true, nextAt := 10 ^ 12 })) = true ∧
    (readyLin [] (.linResponseRx 7 (zeros 8) 0 0) (linWith { rcd := linRecord, wait := some 0 })) = true ∧
    (readyLin [] (.linResponseRx 7 [] 2 0) (linWith { rcd := linRecord, wait := some 0 })) = true ∧
    (readyLin [] (.linNoResponse 7) (linWith { rcd := linRecord, wait := some 0 })) = true ∧
    (readyLin [] (.bridgeLinAgeExpiry 7 63) (linWith { rcd := linRecord, buf := [(63, {})] })) = true := by and_intros <;> decide +kernel

/-- Witnesses of WakeCommandsComplete: its clauses on the pins. -/
theorem witness_wake_pins :
    (up.live && up.sys.pwr == .valid && !up.dbg.extest) = true ∧
    (let s : State := { up with sys := { up.sys with pwr := .aoOnly }, wake := { up.wake with inhOff := true } }; s.sys.pwr == .aoOnly && s.wake.inhOff) = true ∧
    (let s := segWith 21 { xst := 2 }; s.sys.pwr != .off && !s.wake.inhOff && decide ((s.seg 21).xst ≤ 2) && byteAt (s.segRec 21) 1 == 0) = true := by and_intros <;> decide +kernel

/-- Witnesses of WakeCommandsComplete. -/
theorem witness_wake_commands_complete :
    (∃ r, (withBytes [1]).descIn h0 0x10000000 720 = some (r, withBytes [1]) ∧ readyWake r (.wakeSource h0 0x10000000 720) (withBytes [1]) = true) ∧
    (readyWake [] (.wakeInh h0 15 15) up) = true ∧
    (readyWake [] (.wakeXcvr h0 21 3) up) = true ∧
    (readyWake [] (.wakeXcvr h0 0 1) up) = true ∧
    (readyWake [] (.segmentSleepEntry 21) (segWith 21 { xst := 2, sleepAt := some (10 ^ 12) })) = true ∧
    (readyWake [] (.wakeIndicate h0 (2 ^ 21) 0 15) (segWith 21 { xst := 3 })) = true ∧
    (readyWake [] (.pennantReadyRx 21 9 15 false) (segWith 21 { xst := 1, pst := 1, seq := 9, winAt := some (10 ^ 12 + 1) })) = true ∧
    (readyWake [] (.pennantReadyRx 21 9 15 true) (segWith 21 { xst := 0, pst := 1, seq := 9, winAt := some (10 ^ 12 + 1) })) = true ∧
    (readyWake [] (.pennantReadyTimeout 21) (segWith 21 { pst := 1, winAt := some (10 ^ 12) })) = true ∧
    (readyWake [] (.pennantCommitPoint 21) (segWith 21 { pst := 2, commitAt := some (10 ^ 12) })) = true ∧
    (readyWake [] (.pennantCommitPoint 8) (segWith 8 { pst := 2 })) = true ∧
    (readyWake [] (.pennantRetry 21) { segWith 21 { pst := 3, retryAt := some (10 ^ 12) } with wake := { (segWith 21 { pst := 3, retryAt := some (10 ^ 12) }).wake with ind := [{ mask := 2 ^ 21 }] } }) = true ∧
    (readyWake [] (.wakeIndicateDeadline 0 0) { up with wake := { up.wake with ind := [{ dead := 10 ^ 12 }] } }) = true := by
  and_intros
  · exact ⟨_, read_sram (withBytes [1]) 720 rfl rfl rfl (by decide) (by decide), by decide +kernel⟩
  all_goals decide +kernel

/-- Witnesses of FrameBridgeCommandsComplete. -/
theorem witness_frame_bridge_commands_complete :
    (readyBridge (.bridgeRoute h0 4095 routeRecord) up) = true ∧
    (readyBridge (.bridgeClear h0 4095) up) = true ∧
    (readyBridge (.bridgeWakelist h0 15 1 4095) up) = true ∧
    (readyBridge (.bridgeWakelist h0 15 0 4095) up) = true ∧
    (let s : State := { up with brg := { up.brg with inq := [(20, [{}])] } }; readyBridge .bridgeLookup s && s.nextQueue == some 20) = true ∧
    (readyBridge (.sp19AvtpduReceive 4094 1 false []) { up with net := { up.net with vlan := [(4094, { member := 2 ^ 19 })] } }) = true ∧
    (readyBridge (.sp19AvtpduReceive 4094 1 true []) { up with net := { up.net with vlan := [(4094, { member := 2 ^ 19 })] } }) = true := by and_intros <;> decide +kernel

/-- Witnesses of KeyCommandsComplete. -/
theorem witness_key_commands_complete :
    (read (withBytes [4, 5]) 64 fun r s => readyKey r (.keyWrite h0 0x10000000 64 127) s && readyKey r (.keyWrite h0 0x10000000 64 127) (withBytes [4, 5])) = true ∧
    (readyKey [] (.keyDerive h0 127 4 (zeros 48)) up) = true ∧
    (readyKey [] (.keyErase h0 127) up) = true ∧
    (readyKey [] (.keyPermit h0 127 1) up) = true ∧
    (read (slotWith 127 [1, 1]) 4 fun r s => readyKey r (.keyAead h0 0x10000000 4 127 0 (zeros 12) 0x10000100 16) s && readyKey r (.keyAead h0 0x10000000 4 127 0 (zeros 12) 0x10000100 16) (slotWith 127 [1, 1])) = true ∧
    (read (slotWith 127 [1, 2]) 20 fun r s => readyKey r (.keyAead h0 0x10000000 20 127 1 (zeros 12) 0x10000100 0) s && readyKey r (.keyAead h0 0x10000000 20 127 1 (zeros 12) 0x10000100 0) (slotWith 127 [1, 2])) = true ∧
    (read (slotWith 127 [2, 1]) 1 fun r s => readyKey r (.keyCmac h0 0x10000000 1 127 0x10000100 16) s && readyKey r (.keyCmac h0 0x10000000 1 127 0x10000100 16) (slotWith 127 [2, 1])) = true ∧
    (readyKey [] (.keySign h0 0x10000000 1 127 0x10000100 3309) up) = true ∧
    (∃ r, up.descIn h0 0x10000000 5261 = some (r, up) ∧ up.mpUp && readyKey r (.keyVerify h0 0x10000000 5261) up = true) ∧
    (readyKey [] (.keyPubkey h0 0x10000100 1952 127) (slotWith 127 [4, 4])) = true ∧
    (readyKey [] (.attestReport h0 0x10000100 4016 (zeros 32)) up) = true ∧
    (readyKey [] (.attestExtend h0 48 (zeros 48)) up) = true ∧
    (readyKey [] (.attestExtend h0 1 (zeros 48)) up) = true ∧
    (readyKey [] (.attestIdentity h0 0x10000100 1952) up) = true := by
  and_intros
  rotate_left 7
  · have h : (up).outOK h0.ring 0x10000100 3309 3309 = true := out_sram _ _ _ rfl rfl (by decide) (by decide); simp only [readyKey, h]; decide +kernel
  · exact ⟨_, read_sram up 5261 rfl rfl rfl (by decide) (by decide), by decide⟩
  · have h : (slotWith 127 [4, 4]).outOK h0.ring 0x10000100 1952 1952 = true := out_sram _ _ _ rfl rfl (by decide) (by decide); simp only [readyKey, h]; decide +kernel
  · have h : (up).outOK h0.ring 0x10000100 4016 4016 = true := out_sram _ _ _ rfl rfl (by decide) (by decide); simp only [readyKey, h]; decide +kernel
  rotate_left 2
  · have h : (up).outOK h0.ring 0x10000100 1952 1952 = true := out_sram _ _ _ rfl rfl (by decide) (by decide); simp only [readyKey, h]; decide +kernel
  all_goals decide +kernel

/-- Witnesses of FaultCommandsComplete. -/
theorem witness_fault_commands_complete :
    (readyFault (.faultCfg h0 0x70 3 1 511) up) = true ∧
    (readyFault (.faultInject h0 0x70) up && readyFault (.faultInject h0 0x75) up) = true ∧
    (let s : State := { up with keo := { up.keo with st := 2 } }; readyFault (.faultInject h0 0x60) s && readyFault (.faultInject h0 0x61) s) = true ∧
    (readyFault (.faultLogclr h0 0) up) = true ∧
    (readyFault .faultLogMirror (fltWith { dirty := true })) = true ∧
    (let s := fltWith { waiting := [(0x70, 5)] }; readyFault .faultReactionStart s && s.flt.waiting == [(0x70, 5)]) = true ∧
    (readyFault (.faultRelease h0 0x70) (fltWith { holds := [(0x70, 0)] })) = true ∧
    (readyFault .safeLineDemand (fltWith { safeReq := true })) = true ∧
    (readyFault (.faultRecover h0) (fltWith { safe := true })) = true ∧
    (readyFault (.safeNChange true) up) = true ∧
    (readyFault (.sysWdi h0 1 1000000 500000) up) = true ∧
    (readyFault .wdiToggle (fltWith { wdi := true })) = true ∧
    (readyFault .wdiTimeout (fltWith { wdi := true, wdiMax := 100 })) = true ∧
    (readyFault .clkLoss { up with sys := { up.sys with clkSrc := .xtal } }) = true ∧
    (readyFault (.cdieOvertemp 160) up) = true ∧
    (readyFault (.cdieOvertemp 149) up) = true ∧
    (readyFault (.rtPairFault 2 1) up) = true ∧
    (readyFault (.mpFault 1) up) = true ∧
    (readyFault (.eventCfgWrite 0x10 0 511 0x3F01) up) = true ∧
    (readyFault (.eventPendClear 0x10 0 511 1) up) = true ∧
    (readyFault (.eventSwtrig 0x10 0 511 1) up) = true ∧
    (readyFault (.eventPulse 511) (fltWith { pulses := [511] })) = true ∧
    (readyFault (.stateRead h0 0x10000100 64 0x01 0 1) up) = true ∧
    (readyFault (.stateRead h0 0x10000100 16 0x21 39 2) up) = true := by and_intros <;> decide +kernel

/-- Witnesses of RingEventsComplete. -/
theorem witness_ring_events_complete :
    (readyTenancy (.completionPublish 1) { ringWith 1 { cplTail := 1023 } with hal := { (ringWith 1 { cplTail := 1023 }).hal with due := [{ ring := 1 }] } }) = true ∧
    (readyTenancy (.cmdDb 0x6F 15 15 1024) (as15 (ringWith 15 {}))) = true ∧
    (readyTenancy (.cplDb 0x6F 15 15 1024) (as15 (ringWith 15 { cplTail := 1024 }))) = true ∧
    (readyTenancy (.ringAttach 0x6F 1 1 10 0) ((up.setOwner 1 63 1).setRing 1 { enabled := true, baseLo := 0x10000000 })) = true ∧
    (readyTenancy (.ringDetach 0x6F 15 15) (as15 (ringWith 15 {}))) = true := by and_intros <;> decide +kernel

/-- Witnesses of TenancyTableCommandsComplete. -/
theorem witness_tenancy_table_commands_complete :
    (let s : State := { withEntry 7 { st := 2 } with ten := { up.ten with dirty := true, saveH := 7 } }; readyTenancy .tenancyTableSave s && s.saveGranted) = true ∧
    (let s : State := { up with ten := { up.ten with dirty := true, saveAt := 0 } }; readyTenancy .tenancyTableSave s && !s.saveGranted) = true ∧
    (readyTenancy (.tenAssign h0 3 15 39 1) up) = true ∧
    (readyTenancy (.tenAssign h0 11 15 511 1) up) = true ∧
    (readyTenancy (.sysPincfg h0 31 0 2) up) = true ∧
    (readyTenancy (.sysPincfg h0 0 1 0) up) = true ∧
    (readyTenancy (.tenBezel h0 31 15 1 7 0x10FFF 1) up) = true ∧
    (readyTenancy (.tenBezel h0 0 0 0 0 0 0) up) = true ∧
    (let s : State := { up with ten := { up.ten with fill := some {} } }; readyTenancy .bezelFillDone s && s.ten.fill.isSome) = true ∧
    (readyTenancy (.tenRingcfg h0 15 1 1 128 0xFFFF) up == false && readyTenancy (.tenRingcfg h0 1 1 48 8 0xFFFF) up) = true ∧
    (readyTenancy (.tenRingcfg h0 2 0 1 0 0xFFFF) up) = true := by and_intros <;> decide +kernel

/-- Witnesses of ClaspAndGateCommandsComplete. -/
theorem witness_clasp_and_gate_commands_complete :
    (readyTenancy (.tenClasp h0 31 0 0 15 0xFFFF 0xFFFF) up) = true ∧
    (readyTenancy (.tenClasp { epoch := 7 } 31 1 0 0 0 0) (claspWith [] [])) = true ∧
    (let s := claspWith (List.replicate 63 {}) []; readyTenancy (.tenPost { epoch := 7 } 31 []) s && (s.clasp 31).tagA == 0) = true ∧
    (let s := claspWith [] (List.replicate 63 {}); readyTenancy (.tenPost { ring := 1, epoch := 7 } 31 []) s && (s.clasp 31).tagA != 1) = true ∧
    (let s := claspWith [] [{}]; readyTenancy (.tenTake { epoch := 7 } 0x10000000 48 31) s && (s.clasp 31).tagA == 0 && (s.clasp 31).ba == [{}]) = true ∧
    (let s := claspWith [{}] []; readyTenancy (.tenTake { ring := 1, epoch := 7 } 0x10000000 48 31) s && (s.clasp 31).tagA != 1 && (s.clasp 31).ab == [{}]) = true ∧
    (readyTenancy (.tenGate h0 0x61 0) (gateWith 0x61 { count := [(0, 14)] })) = true ∧
    (readyTenancy (.tenGate h0 0x61 1) (gateWith 0x61 { count := [(0, 1)] })) = true ∧
    (readyTenancy (.tenGate h0 1 2) up) = true ∧
    (readyTenancy (.tenGate h0 1 3) (gateWith 1 { cut := true })) = true ∧
    (readyTenancy (.gateCutApply 0x2B) (gateWith 0x2B { pend := [h0] })) = true := by and_intros <;> decide +kernel

/-- Witnesses of FrameBusCommandsComplete. -/
theorem witness_frame_bus_commands_complete :
    (readyTenancy (.sysFbpoll h0 16) up) = true ∧
    (readyTenancy (.fbPoll 3 0 1) up) = true ∧
    (readyTenancy (.fbPoll 3 1 0) up) = true ∧
    (readyTenancy (.fbPostedWrite 0x10 0 39 0x8000 0 3) up) = true ∧
    (readyTenancy (.fbPostedWrite 0x10 0 39 0 1 3) up) = true ∧
    (let s := withChan 39 { cap := some { started := true, count := 16, kind := 1 } }; readyTenancy (.fbDataBurst 39 [(1, 2)] 63 0 3) s && !s.linkDown (1 + chDie 39)) = true ∧
    (let s := withChan 39 { cap := some { started := true, count := 1, buf := [1, 2, 3, 4] } }; readyTenancy (.fbDataBurst 39 [] 0 1 3) s) = true := by and_intros <;> decide +kernel

/-- Witnesses of LinkEventsComplete. -/
theorem witness_link_events_complete :
    (readyNet [] (.linkTrainingDone 9) (portWith 9 { lst := .training }) && readyNet [] (.linkTrainingDone 1) up) = true ∧
    (readyNet [] (.linkTrainingTimeout 9) (portWith 9 { lst := .training })) = true ∧
    (readyNet [] (.linkRetryTimer 9) (portWith 9 { retryAt := some (10 ^ 12) })) = true ∧
    (readyNet [] (.linkLoss 15) (portWith 15 { lst := .up }) && readyNet [] (.linkLoss 1) up) = true ∧
    (readyNet [] (.mdioPoll 1 true) up) = true ∧
    (readyNet [] (.usxgmiiInbandWord 1 1) up) = true ∧
    (readyNet [] (.tc10SleepRequestRx 9) (portWith 9 { lst := .up })) = true ∧
    (readyNet [] (.tc10SleepAckRx 9) (portWith 9 { lst := .sleepReq, sleepAt := 10 ^ 12 - msCyc 16 })) = true ∧
    (readyNet [] (.tc10SleepAbort 9) (portWith 9 { lst := .sleepReq })) = true ∧
    (readyNet [] (.tc10WakeupRx 9) up) = true ∧
    (readyNet [] (.netWakeDeadline 9) up) = true := by and_intros <;> decide +kernel

/-- Witnesses of NetCommandsComplete. -/
theorem witness_net_commands_complete :
    (readyNet [] (.netSleep { ring := 1 } 9) (portWith 9 { lst := .up })) = true ∧
    (readyNet [] (.netWake { ring := 1 } 15 60000) up) = true ∧
    (read (withBytes (portRecReset 9)) 64 fun r s => readyNet r (.netPortcfg h0 0x10000000 64 9) s) = true ∧
    (read (withBytes (setBytes (portRecReset 15) 1 [3])) 64 fun r s => readyNet r (.netPortcfg h0 0x10000000 64 15) s) = true ∧
    (readyNet [] (.netVlan h0 4094 (2 ^ 20 - 1) (2 ^ 20 - 1)) up) = true ∧
    (readyNet [] (.netFdb h0 0 (2 ^ 48 - 1) 4094 (2 ^ 20 - 1)) up) = true ∧
    (readyNet [] (.netFdb h0 1 (2 ^ 48 - 1) 4094 0) up) = true ∧
    (readyNet [] (.netFdb h0 2 0 0 0) up) = true ∧
    (read (withBytes (toLE 4 0x10000 ++ toLE 4 10000 ++ zeros 8 ++ [255, 0, 0, 0] ++ toLE 4 100)) 24 fun r s => readyNet r (.netTsn h0 0x10000000 24 0 19 0) s) = true ∧
    (read (withBytes (toLE 2 7 ++ toLE 2 1 ++ zeros 16)) 24 fun r s => readyNet r (.netTsn h0 0x10000000 24 1 19 0) s) = true ∧
    (read (withBytes (toLE 2 1023 ++ toLE 2 1 ++ zeros 12 ++ zeros 20 ++ [255, 0])) 40 fun r s => readyNet r (.netTsn h0 0x10000000 40 2 0 0) s) = true ∧
    (readyNet [] (.netMacsec h0 5 0 3 1 127 0 1 1) (slotWith 127 [3, 2])) = true ∧
    (readyNet [] (.netMacsec h0 5 3 3 1 0 0 0 0) up) = true ∧
    (read (withBytes gptpRecord) 32 fun r s => readyNet r (.netGptp h0 0x10000000 32) s) = true := by and_intros <;> decide +kernel

/-- Witnesses of PortTrafficEventsComplete. -/
theorem witness_port_traffic_events_complete :
    (readyFabric (.transmitStart 19) up) = true ∧
    (readyFabric (.transmitEnd 19 63 0x10000000) (portWith 19 { tx := some { bytes := zeros 64 } })) = true ∧
    (readyFabric (.gateEntryChange 19) up) = true ∧
    (let s := portWith 19 { gclNew := some {} }; readyFabric (.gateListSwitch 19) s && (s.port 19).gclNew.isSome) = true ∧
    (readyFabric (.preemptionVerification 5 true) (portWith 5 { lst := .up })) = true ∧
    (readyFabric (.cbRecoveryReset 255) (up.setCb 255 { rcd := 0x82 :: zeros 15, rcv := some 1 })) = true ∧
    (readyFabric (.fdbAgeout 8191) (up.setFdb 8191 { valid := true, since := 10 ^ 12 - msCyc 300000 })) = true ∧
    (readyFabric (.frameIngress 18 (zeros 64) true 0 63 0) up) = true ∧
    (readyFabric (.frameIngress 19 [] true 0 0 0) { up with brg := { up.brg with eth := [(0, zeros 60)] } }) = true := by and_intros <;> decide +kernel

/-- Witnesses of FabricEventsComplete. -/
theorem witness_fabric_events_complete :
    (let s := ({ fabWith { inq := [(19, [{}])] } with net := up.net } : State).setBank 19 { free := some [] }; readyFabric (.cellWrite 19 0) s && (s.bank ((19 + s.fab.slot) % 20)).free == some []) = true ∧
    (let s := fabWith { inq := [(19, [{}])] }; readyFabric (.cellWrite 19 0) s && look (fun _ => []) s.fab.inq 19 == [{}] && ((s.bank ((19 + s.fab.slot) % 20)).free.getD (List.range 1024)).head? == some 0) = true ∧
    (readyFabric (.cellRead 19 0) up) = true ∧
    (let s := (fabWith { cells := [(19 * 1024, {})], slot := 1 }).setBank 19 { q := [(qIdx 0 7, [0])] }; readyFabric (.cellRead 19 2) s && s.fab.slot == 1) = true ∧
    (let s := up.setLane (laneIdx 19 19 7) { held := [(5, {})], timer := usCyc 500 }; readyFabric (.rsqGap 19 19 7) s && !(s.lane (laneIdx 19 19 7)).held.isEmpty) = true ∧
    (readyFabric .leakAudit up) = true ∧
    (readyFabric .fabricInitStart (fltWith { initReq := true })) = true ∧
    (readyFabric .fabricInitDiscard (fabWith { init := 1, initAt := 10 ^ 12 - usCyc 2 })) = true ∧
    (readyFabric .fabricInitRebuild (fabWith { init := 2 })) = true ∧
    (readyFabric .fabricInitEnd (fabWith { init := 3, slot := 1 })) = true := by and_intros <;> decide +kernel

/-- Witnesses of KeoreEngineCommandsComplete. -/
theorem witness_keore_engine_commands_complete :
    (read (withBytes (zeros 8)) 64 fun r s => readyKeore r (.keoreLoad h0 0x10000000 64) s) = true ∧
    (readyKeore [] (.keoreStart h0 1) up) = true ∧
    (readyKeore [] (.keoreStop h0) (keoWith { st := 1 }) && readyKeore [] (.keoreStop h0) (keoWith { st := 2, x := { st := 3 } })) = true ∧
    (readyKeore [] .keoreStartComplete (keoWith { st := 1, startH := some h0 })) = true ∧
    (readyKeore [] (.keoreTaskRelease 7) (keoWith { st := 2, task := [(7, { per := 1000, relNext := up.now })] })) = true := by and_intros <;> decide +kernel

/-- Witnesses of KeoreDataCommandsComplete. -/
theorem witness_keore_data_commands_complete :
    (readyKeore [] .retainPassStart (keoWith { handed := true })) = true ∧
    (readyKeore [] (.retainPassEnd true) (keoWith { pass := some 1 }) && readyKeore [] (.retainPassEnd false) (keoWith { pass := some 1 })) = true ∧
    (let s := keoWith { run := varImage }; readyKeore [] (.keoreForce h0 5 1 7) s && s.keo.x.st != 3 && (imgVar s.keo.run 5).isSome) = true ∧
    (readyKeore [] (.keoreForce h0 5 1 7) (keoWith { x := { st := 3 } })) = true ∧
    (readyKeore [] (.keoreUnforce h0 5) (keoWith { x := { st := 3 } })) = true ∧
    (let s := keoWith { force := [(255, { vartag := 5 })] }; readyKeore [] (.keoreUnforce h0 5) s && s.forceSlot 5 == some 255 && s.keo.x.st != 3) = true ∧
    (readyKeore [] (.keoreUnforce h0 0xFFFFFFFF) up) = true ∧
    (readyKeore [] (.keoreExchange h0 0x10000000 4096 60000) (keoWith { st := 2, img := [(1, image [])] })) = true ∧
    (readyKeore [] .exchangePrepared (keoWith { x := { st := 1 } })) = true ∧
    (readyKeore [] .exchangeTimeout (keoWith { x := { st := 2, dead := msCyc 60000 } })) = true ∧
    (readyKeore [] .exchangeCommit (keoWith { st := 2, x := { st := 2 } })) = true ∧
    (readyKeore [] .exchangeSwapEnd (keoWith { st := 2, x := { st := 3 } })) = true := by
  and_intros
  rotate_left 7
  · have h : (keoWith { st := 2, img := [(1, image [])] }).outOK h0.ring 0x10000000 4096 4096 = true := out_sram _ _ _ rfl rfl (by decide) (by decide); simp only [readyKeore, h]; decide +kernel
  all_goals decide +kernel

/-- Witnesses of ResetsComplete. -/
theorem witness_resets_complete :
    (readySystem [] .powerOnReset up) = true ∧
    (readySystem [] .vbatRise { up with sys := { up.sys with pwr := .off } }) = true ∧
    (readySystem [] (.railsValid 64) { up with sys := { up.sys with pwr := .starting } }) = true ∧
    (readySystem [] .porstNAssert up && readySystem [] .porstNAssert { up with sys := { up.sys with pwr := .aoOnly } }) = true ∧
    (readySystem [] .resetNExternal up) = true ∧
    (readySystem [] .faultResetDemand (fltWith { rst := some 5 })) = true ∧
    (readySystem [] (.sysReset h0 0) up && readySystem [] (.sysReset h0 4) up) = true := by and_intros <;> decide +kernel

/-- Witnesses of BootInstantsComplete. -/
theorem witness_boot_instants_complete :
    (readySystem [] .bootStart (bootAt 1)) = true ∧
    (readySystem [] .bootFusesRead (bootAt 2)) = true ∧
    (readySystem [] .bootPatchApply (bootAt 3)) = true ∧
    (readySystem [] (.bootBcrApply false []) (bootAt 4)) = true ∧
    (readySystem [] .bootKeorePrepare (bootAt 5)) = true ∧
    (readySystem [] .bootFirstRelease (bootAt 6)) = true ∧
    (readySystem [] (.bootLateStages [] []) { withEntry 7 { st := 2 } with sys := { (bootAt 7).sys with ddrH := 7 } }) = true := by and_intros <;> decide +kernel

/-- Witnesses of SystemCommandsComplete. -/
theorem witness_system_commands_complete :
    (readySystem [] (.sysProfile h0 1) up && readySystem [] (.sysProfile h0 0) { up with sys := { up.sys with prof := 1 } }) = true ∧
    (let s : State := { up with sys := { up.sys with profBusy := true, profTarget := 1, profCmd := some h0 } }; readySystem [] .profileTransitionEnd s && s.sys.profCmd == some h0) = true ∧
    (let s : State := { opWith (.sysProfile { ctag := 9 } 0) with sys := { up.sys with profBusy := true, profCmd := some { ctag := 9 } } }; readySystem [] .profileTransitionEnd s && (s.opOf { ctag := 9 }).isSome) = true ∧
    (read up 64 fun r s => readySystem r (.sysLifecycle h0 0x10000000 64 5) s && lcTokens s.sys.lcCur 5 == some (0, 1)) = true ∧
    (readySystem [] (.sysFuse h0 1 4 0 (zeros 48)) { up with sys := { up.sys with lcCur := 1 } } && readySystem [] (.sysFuse h0 3 6 0 []) up) = true ∧
    (read up 64 fun r s => readySystem r (.sysUpdate h0 0x10000000 64 1) s) = true := by and_intros <;> decide +kernel

/-- Witnesses of ModuleSleepComplete. -/
theorem witness_module_sleep_complete :
    (let s : State := { up with wake := { up.wake with rcd := setBytes up.wake.rcd 1 [1] } }; readySystem [] (.wakeModule h0) s) = true ∧
    (readySystem [] .moduleSleepLatchCheck { up with wake := { up.wake with phase := 1, h := [h0] } }) = true ∧
    (readySystem [] .moduleSleepPowerOff { up with wake := { up.wake with phase := 2 } }) = true ∧
    (readySystem [] (.wakeDetect 21 100000 0) (up.setSeg 21 { xst := 2 })) = true ∧
    (readySystem [] (.wakeDetect 25 50000 0) { up with wake := { up.wake with rcd := setBytes up.wake.rcd 1 [15] } }) = true ∧
    (let s : State := { up with wake := { up.wake with rcd := setBytes up.wake.rcd 1 [15] } }; readySystem [] (.wakeDetect 25 49999 0) s && s.isWake 25 49999 0 == none) = true ∧
    (readySystem [] (.wakeDetect 33 0 0) up) = true ∧
    (readySystem [] (.wakeDetect 33 0 0) { up with wake := { up.wake with phase := 3, rcd := setBytes up.wake.rcd 4 [0x80] } }) = true ∧
    ((up.setSeg 21 { xst := 2 }).asleep 21) = true ∧
    (readySystem [] .sleepTimer { up with wake := { up.wake with phase := 3, rcd := setBytes up.wake.rcd 8 [1] } }) = true ∧
    (readySystem [] (.sleepWettingPulse 0) { up with wake := { up.wake with phase := 3 } }) = true := by and_intros <;> decide +kernel

/-- Witnesses of CommandTransportComplete. -/
theorem witness_command_transport_complete :
    (readySystem [] (.commandFetch 15) (ringWith 15 { cmdTail := 1 })) = true ∧
    (let s : State := { up with hal := { up.hal with mpq := [(15, 9)], inflight := [{ ring := 15, ctag := 9, st := 3 }] } }; readySystem [] .mpCommandStart s && s.mpNext == some 15 && (s.inflightOf 15 9).isSome) = true ∧
    (let s := opWith (.keyErase { ctag := 9 } 0); readySystem [] (.longRunningOperationEnd 0 9 true) s && (s.opOf { ring := 0, ctag := 9 }).isSome) = true ∧
    (let s : State := { up with sch := { up.sch with disp := [{ ent := 1023 }] } }; readySystem [] (.schedActionApply 1023 0) s) = true := by and_intros <;> decide +kernel

/-- Witnesses of AccessAndDebugComplete. -/
theorem witness_access_and_debug_complete :
    (readySystem [] (.memoryAccess 5 0 0x10000000 8 [] false) up && up.iniTag 5 == some (up.coreTag 5)) = true ∧
    (readySystem [] (.memoryAccess 0x6F 0 0x10000000 8 [] true) up && up.iniTag 0x6F == some 0) = true ∧
    (readySystem [] (.registerWriteOther 0x10 0 0x41000000 1) up) = true ∧
    (readySystem [] (.mtagWrite 5 15) up) = true ∧
    (readySystem [] (.machineModeEntry 5) up) = true ∧
    (readySystem [] (.machineModeReturn 5) up) = true ∧
    (readySystem [] (.debugEnable h0 15 3) up) = true ∧
    (readySystem [] (.debugTrace h0 0x20 1) up && traceIndex 0x20 == some 9) = true ∧
    (readySystem [] (.traceSyncPacket 9) { up with dbg := { up.dbg with trace := 0x7FF } }) = true ∧
    (readySystem [] (.debugPortAccess 0 4 0x20 0 0 [] true) up && readySystem [] (.debugPortAccess 15 1 0 0x10000000 1 [1] true) up) = true := by and_intros <;> decide +kernel

/-- Witnesses of StepRunsTheFrontCommand. -/
theorem witness_step_runs_the_front_command :
    (({ up with pending := [.admitRefill] } : State).pending == .admitRefill :: []) = true := by decide +kernel

/-- Witnesses of EmptyQueuePassesOneCycle. -/
theorem witness_empty_queue_passes_one_cycle :
    (up.pending == [] && up.live && up.clk.rate == 0 && up.lch.wait.isEmpty && up.iso.wr.isEmpty) = true ∧
    (({ up with sys := { up.sys with boot := 1 } } : State).live == false) = true := by and_intros <;> decide +kernel

/-- Witnesses of EveryStepKeepsMemoryCanonical. -/
theorem witness_every_step_keeps_memory_canonical :
    (up.sound && (match step up with | .next _ => true | _ => false)) = true := by decide +kernel

/-- Witnesses of KeoreWordsRoundTrip. -/
theorem witness_keore_words_round_trip :
    (isKeore (.kLdi 15 1048575) && decodeWord 0x7F000000 == some .kEnd) = true := by decide +kernel

/-- Witnesses of KeoreRegisterFrame. -/
theorem witness_keore_register_frame :
    (let s := engine [encodeWord (.kAdd 3 3 3 1)] 31; s.kRuns 0 (.kAdd 3 3 3 1) 1 && s.kBest == some 0) = true := by decide +kernel

/-- Witnesses of KeoreStoreFrame. -/
theorem witness_keore_store_frame :
    (let i := Instr.kStb 0 2 63 7; let s := engine [encodeWord i] 31; s.kBest == some 0 && s.kRuns 0 i 1 && s.kClear 0 2 63 1 1 && (match exec i s with | .next _ => true | _ => false)) = true ∧
    (let i := Instr.kSt 1 3 56 4; let s := engine [encodeWord i] 31; s.kBest == some 0 && s.kRuns 0 i 1 && s.kClear 0 3 56 8 8 && (match exec i s with | .next _ => true | _ => false)) = true ∧
    (let i := Instr.kStx 1 3 2 56 4; let s := engine [encodeWord i] 31; s.kRuns 0 i 1 && s.kClear 0 3 (xOff 2 56 (s.ktask 0)) 8 8 && (match exec i s with | .next _ => true | _ => false)) = true := by and_intros <;> decide +kernel

/-- Witnesses of DoorbellsOfAnotherTag. -/
theorem witness_doorbells_of_another_tag :
    (up.live && decide (15 < 16 ∧ 0 ≠ 15) && up.presents 0x10 0) = true := by decide +kernel

/-- Witnesses of OnlyThreeKindsOfRegisterAreWritable. -/
theorem witness_only_three_kinds_of_register_are_writable :
    (up.live && up.presents 0x10 0 && writable (0x41000027 / 4 * 4) == false && writable 0x41000000 && decide (0x40000000 / 2 ^ 30 = 1) && decide (0x80000000 / 2 ^ 30 = 2) && decide (0xFFFF4000 / 2 ^ 14 % 4 = 1)) = true := by decide +kernel

/-- Witnesses of DeviceTimeReads. -/
theorem witness_device_time_reads :
    (up.live && decide (1 ≠ 0)) = true := by decide +kernel

/-- Witnesses of RaisePlacesItsEntry. -/
theorem witness_raise_places_its_entry :
    (let s := fltWith { log := [{ src := 0x70, info := 5 }] }; s.logs 0x70 && s.flt.log.any (fun e => e.key == (0x70, 5)) && (s.flt.log.find? fun e => e.key == (0x70, 5)).isSome) = true ∧
    (let s := fltWith { log := List.replicate 63 {} }; s.logs 0x70 && !s.flt.log.any (fun e => e.key == (0x70, 5)) && decide (s.flt.log.length < 64) && s.flt.log.all fun e => e.at_ != s.cyc + 1) = true ∧
    (let s := fltWith { log := List.replicate 63 { sev := 1 } ++ [{}] }; s.logs 0x70 && !s.flt.log.any (fun e => e.key == (0x70, 5)) && decide (64 ≤ s.flt.log.length) && s.flt.log.any (fun e => e.sev == 0)) = true ∧
    (let s := fltWith { log := List.replicate 64 { sev := 1 }, cfg := [(0x70, { sev := 2, ev := true, line := 511 })] }; s.logs 0x70 && !s.flt.log.any (fun e => e.key == (0x70, 5)) && decide (64 ≤ s.flt.log.length) && !s.flt.log.any (fun e => e.sev == 0) && (s.srcCfg 0x70).sev == 2 && !s.flt.safe && !s.flt.safeReq && (s.srcCfg 0x70).ev && decide ((s.srcCfg 0x70).line < 512)) = true := by and_intros <;> decide +kernel

/-- Witnesses of RefusedAccessHasNoOtherEffect. -/
theorem witness_refused_access_has_no_other_effect :
    (let s := up.setOwner 1 63 15; s.iniTag 0x6F == some 15 && s.unitRuns 0x6F && s.spanOK 0x6F 15 0 0x10000000 8 == false && ((List.range 8).all fun i => match s.region (0x10000000 + i) with | .hole | .bankA | .bankB => false | .xspi k => !s.cut (0x10 + k) | _ => true) && !isRv32 0x6F) = true ∧
    (let s := up.setOwner 1 63 15; s.spanOK 0x6F 15 0 0x7FFFFFFF 1 == false && (match s.region 0x7FFFFFFF with | .hole | .bankA | .bankB => false | .xspi k => !s.cut (0x10 + k) | _ => true)) = true := by decide +kernel

/-- Witnesses of BezelTable. -/
theorem witness_bezel_table :
    (up.ten.fill == none && (List.range 32).all fun r => (look (fun _ => ({} : Bezel)) up.ten.bez r).covers 0x10FFFFFF == false) = true ∧
    (let s : State := { up with ten := { up.ten with bez := [(31, { tag := 5, en := true, r := true, base := 0x10FFF, size := 1 })] } }; s.ten.fill == none && (look (fun _ => ({} : Bezel)) s.ten.bez 31).covers 0x10FFFFFF && ((List.range 32).all fun q => q == 31 || (look (fun _ => ({} : Bezel)) s.ten.bez q).covers 0x10FFFFFF == false) && isDma 0x6F) = true := by and_intros <;> decide +kernel

/-- Witnesses of SecdedReadsAndWrites. -/
theorem witness_secded_reads_and_writes :
    (let s : State := { up with ecc := [(0x10000000 / 8, 1)] }; s.badWords 0x10000007 1 == [(0x10000000 / 8, 1)] && s.ecc.all fun p => p.2 == 1) = true ∧
    (let s : State := { up with ecc := [(0x10000000 / 8, 2)] }; s.badWords 0x10000007 1 == [(0x10000000 / 8, 2)] && wholeWord 0x10000000 8 (0x10000000 / 8) && !wholeWord 0x10000000 7 (0x10000000 / 8) && Memory.wf s.mem) = true := by and_intros <;> decide +kernel

/-- Witnesses of CompletionEntryLayout. -/
theorem witness_completion_entry_layout :
    ((up.ring 15).st != 2) = true := by decide +kernel

/-- Witnesses of LifeCycleIsTheHighestSetWord. -/
theorem witness_life_cycle_is_the_highest_set_word :
    (let s : State := { up with sys := { up.sys with lcWord := [(2, 2 ^ 24 - 1), (3, 2 ^ 23 - 1)] } }; decide (24 ≤ popcount (look (fun _ => 0) s.sys.lcWord 2)) && !decide (24 ≤ popcount (look (fun _ => 0) s.sys.lcWord 3)) && s.lcFused == 2) = true ∧
    (({ running := true, cmd := .sysLifecycle h0 0 5424 5 } : Op).running) = true := by and_intros <;> decide +kernel

/-- Witnesses of CdieResetKeepsWhatSurvives. -/
theorem witness_cdie_reset_keeps_what_survives :
    (up.sys.pwr == .valid && up.hal.ops.all fun o => !o.running) = true := by decide +kernel

/-- Witnesses of ChanSetChecksInOrder. -/
theorem witness_chan_set_checks_in_order :
    (up.live && up.owner 3 39 == 0 && up.owner 3 39 != 1 && up.chEpoch 39 == 0) = true ∧
    (let s : State := { up with fb := { up.fb with link := [(2, 2)] } }; s.live && s.owner 3 39 == 0 && s.chEpoch 39 == 0 && s.linkDown (1 + chDie 39)) = true := by and_intros <;> decide +kernel

/-! ### Commands and units: expected values from the spec's own examples and rules -/

/-- 05, worked example: the packet of CHAN.SET with CTAG 0x0294, IRQ and EPOCH 3 in ring 2. -/
theorem test_packet_header : pktHdr 2 (padTo 64 [1, 2, 0x94, 2, 1, 8, 3, 0, 6, 1]) = { ring := 2, ctag := 0x294, irq := true, epoch := 3 } := by decide

/-- 05, worked example, stale epoch: the unit's epoch 4 comes back in RESULT. -/
theorem test_chan_set_stale_epoch : (match exec (.chanSet { ctag := 0x294, epoch := 3 } 6 1 0 0) (withChan 6 { epoch := 4 }) with
    | .next t => t.hal.due.map fun c => (c.ctag, c.status.code, c.detail, c.result)
    | _ => []) = [(0x294, 0x23, 0, 4)] := by decide

/-- 05, worked example, changed owner: DENIED before the epoch is looked at. -/
theorem test_chan_set_changed_owner : (match exec (.chanSet { ctag := 0x294, epoch := 3 } 6 1 0 0) ((withChan 6 { epoch := 4 }).setOwner 3 6 5) with
    | .next t => t.hal.due.map fun c => (c.status.code, c.detail, c.result)
    | _ => []) = [(0x20, 1, 0)] := by decide

/-- 04, example: completions 0x1A10 to 0x1A52 are 66, also across the wrap of the counter. -/
theorem test_ring_index : idx 0x1A52 0x1A10 = 66 ∧ idx 1 (2 ^ 32 - 1) = 2 := by decide

/-- 10, worked example: a 300-byte frame takes 3 cells, a 2 048-byte one 17. -/
theorem test_cells : cellsOf 300 = 3 ∧ cellsOf 2048 = 17 ∧ cellsOf 112 = 1 ∧ cellsOf 113 = 2 := by decide

/-- 09, worked example: TRST is 10, 20 and 40 ms after the first, second and third shutdown. -/
theorem test_restart_times : trstCyc 1 = msCyc 10 ∧ trstCyc 2 = msCyc 20 ∧ trstCyc 3 = msCyc 40 ∧ trstCyc 9 = msCyc 1280 := by decide

/-- 17, worked example: DEB 45 is 2.048 ms. -/
theorem test_debounce : debNs 1 45 = 2048000 := by decide

/-- 13, worked example: the data of INDICATE and of COMMIT, with bits 39 to 8 of the commit point. -/
theorem test_pennant_frames :
    let s := (up.setSeg 2 { seq := 0x21, tries := 1, commit := 1000055000000 })
    let s : State := { s with wake := { s.wake with rcd := setBytes s.wake.rcd 80 [1, 1, 0xF0, 5, 0xE0, 5, 7, 0, 20, 50, 10, 100] } }
    (s.penFrame 2 1).map (·.toNat) = [0x11, 0x21, 0x14, 1, 7, 0, 0, 0] ∧
      (s.penFrame 2 3).map (·.toNat) = [0x13, 0x21, 50, 0, 0x4B, 0xEC, 0xD7, 0xE8] := by decide

/-- 19, worked example: DEVID of a VZ484-N at B0, LCSTATE in FIELD with owner keys 1 and 2, RSTCAUSE after a wake, BOOTSTAT at t8. -/
theorem test_identity_registers :
    let y := State.reset.sys
    let s : State := { State.reset with sys := { y with lcCur := 3, lcWord := [(3, 2 ^ 32 - 1)], keyHash := [(1, zeros 48), (2, zeros 48)],
                                                        cause := 6, full := false, starts := 0x157, boot := 8, patch := 1, bcr := 1, keoreB := 1,
                                                        rtsec := 1, rtx := 1, appl := 1, warm := true } }
    s.devid = 0x04841100 ∧ s.lcstate = 0x333 ∧ s.rstcause = 0x01570006 ∧ s.bootstat = 0x80005585 := by decide

/-- 06 R135: one cycle is 2.5 ns; four make 10 ns. -/
theorem test_four_cycles : ((List.range 4).foldl (fun (o : State) _ => match step o with
    | .next t => t
    | _ => o) { up with clk := { up.clk with dt := 0 } }).now = 10 := by decide

/-- 13 R333: CAN11_MODE is high in configuration mode and low in restricted operation. -/
theorem test_can_mode_pin : up.contact (.canMode 11) = .high ∧ (up.setCtl 11 { up.ctl 11 with mode := 3 }).contact (.canMode 11) = .low := by decide

/-- 21 R531: a second raise of the same SOURCE and INFO counts in the entry there is. -/
theorem test_log_counts : (((up.raise 0x70 5).raise 0x70 6).raise 0x70 5).flt.log.map (fun e => (e.info, e.count)) = [(5, 2), (6, 1)] := by decide

/-- 03 R74: 24 bits make a word set, 23 do not; the highest set word counts. -/
theorem test_life_cycle : ({ up with sys := { up.sys with lcWord := [(1, 2 ^ 24 - 1), (2, 2 ^ 24 - 1), (4, 2 ^ 23 - 1)] } } : State).lcFused = 2 := by decide

/-- 01: bytes are stored lowest first, and a byte written as an unlisted one reads leaves no entry. -/
theorem test_memory_form : memPutAll [] 0x10000000 [1, 0, 2] = [(0x10000000, 1), (0x10000002, 2)] ∧
    memPutAll [(0x10000000, 1)] 0x10000000 [0] = [] := by decide

/-! ### The Keore engine -/

/-- Register `d` of task 0 after the one word `i`, with registers 1 and 2 as given. -/
def after (i : Instr) (d a b : Nat) : Option Nat :=
  match exec i (engine [encodeWord i, encodeWord .kEnd] 0 { w := List.replicate 16 0 |>.set 1 (BitVec.ofNat 64 a) |>.set 2 (BitVec.ofNat 64 b) }) with
  | .next t => some ((t.ktask 0).reg d).toNat
  | _ => none

/-- 15, worked example: SHL.BF16 of 1 by 10 is 0x400. -/
theorem test_keore_shl : after (.kShl 5 1 2 5) 5 1 10 = some 0x400 := by decide

/-- 15 R392: an INT addition wraps, and a register holds an INT sign-extended. -/
theorem test_keore_add_wraps : after (.kAdd 3 1 2 1) 3 32767 1 = some (2 ^ 64 - 32768) := by decide

/-- 15: a source that is also the destination is read before it is written. -/
theorem test_keore_sub_in_place : after (.kSub 1 1 2 2) 1 10 3 = some 7 := by decide

/-- 15 R391: LDI sign-extends its 20 bits, LUI fills bits above. -/
theorem test_keore_ldi : after (.kLdi 1 0xFFFFF) 1 0 0 = some (2 ^ 64 - 1) := by decide

/-- 15 R391: a signed comparison of DINT. -/
theorem test_keore_clt : after (.kClt 3 1 2 2) 3 (2 ^ 64 - 1) 1 = some 1 ∧ after (.kClt 3 1 2 2) 3 1 (2 ^ 64 - 1) = some 0 := by decide

end Sys2Proof.Tests
end

section
/-! SUPPORT. Memory keeps its canonical form under every command: first the shapes commands have (a hardware or firmware command behind its checks,
one that reads its record through a descriptor, an event of a numbered unit), then each command by its shape and the frame laws of what it calls. -/
namespace Sys2Proof.Machine
open Sys2Proof

/-- An outcome that leaves memory as it was keeps its canonical form. -/
theorem outWf_of_mem {s : State} {o : Out} (hm : Memory.wf s.mem = true) (ho : outMem s o) : outWf o :=
  fun t ht => (ho t ht).symm ▸ hm

section
variable {s : State} (hm : Memory.wf s.mem = true)
include hm

/-- A hardware command behind its checks: only its effect `k` has to be looked at. -/
theorem hwGuarded_wf {h : Hdr} {l : List Chk} {k : State} (hk : Memory.wf k.mem = true) : outWf (hwCmd s (s.guarded h l k)) :=
  hwCmd_wf _ _ (State.guarded_wf _ _ _ _ hk hm) hm

/-- A firmware command behind its checks. -/
theorem fwGuarded_wf {h : Hdr} {l : List Chk} {k : State} (hk : Memory.wf k.mem = true) : outWf (fwCmd h s (s.guarded h l k)) :=
  fwCmd_wf _ _ _ (State.guarded_wf _ _ _ _ hk hm) hm

/-- A firmware command that writes a unit of another die. -/
theorem fwFar_wf {h : Hdr} {l : List Chk} {die addr ini : Nat} {k : State} (hk : Memory.wf k.mem = true) :
    outWf (fwCmd h s (s.guarded h l (s.farWrite h die addr ini k))) :=
  fwGuarded_wf hm (State.farWrite_wf _ _ _ _ _ _ hk hm)

/-- A firmware command that reads its record through a descriptor. -/
theorem fwDesc_wf {h : Hdr} {addr len : Nat} {pre : List Chk} {lenOk : Bool} {key : List Byte → State → State}
    (hk : ∀ r t, Memory.wf t.mem = true → Memory.wf (key r t).mem = true) : outWf (fwCmd h s (s.withDesc h addr len pre lenOk key)) :=
  fwCmd_wf _ _ _ (State.withDesc_wf _ _ _ _ _ _ _ hk hm) hm

omit hm in
/-- A choice between two machines keeps the canonical form when both do. -/
theorem ite_wf {c : Prop} [Decidable c] {a b : State} (ha : Memory.wf a.mem = true) (hb : Memory.wf b.mem = true) :
    Memory.wf (if c then a else b).mem = true := by
  split
  · exact ha
  · exact hb

/-! ### Admission -/

theorem execAdmitRequest_wf {h : Hdr} {typ budget amount duration deadline : Nat} :
    outWf (execAdmitRequest h typ budget amount duration deadline s) :=
  hwGuarded_wf hm (by simp [hm])
theorem execAdmitRelease_wf {h : Hdr} {grant : Nat} : outWf (execAdmitRelease h grant s) :=
  hwGuarded_wf hm (by dsimp only; (repeat' split) <;> simp [hm])
theorem execAdmitBudget_wf {h : Hdr} {budget limit charge reserve : Nat} : outWf (execAdmitBudget h budget limit charge reserve s) :=
  fwGuarded_wf hm (by simp [hm])
theorem execAdmitWindow_wf {h : Hdr} {enable frame phase length start : Nat} : outWf (execAdmitWindow h enable frame phase length start s) :=
  fwGuarded_wf hm (by simp [hm])
theorem execAdmitRefill_wf : outWf (execAdmitRefill s) := (outWf_next _).2 (by simp [hm])
theorem execAdmitGrantEnd_wf {i : Nat} : outWf (execAdmitGrantEnd i s) := (outWf_next _).2 (by dsimp only; (repeat' split) <;> simp [hm])
theorem execAdmitWindowOpen_wf : outWf (execAdmitWindowOpen s) := (outWf_next _).2 (by simp [hm])
theorem execAdmitDeadline_wf {i : Nat} : outWf (execAdmitDeadline i s) := unitEvent_wf _ _ (by simp [hm])
theorem execAdmitHold_wf {k : Nat} : outWf (execAdmitHold k s) := unitEvent_wf _ _ (by simp [hm])

/-! ### Channel commands -/

theorem execChanSet_wf {h : Hdr} {ch act duty deadline : Nat} : outWf (execChanSet h ch act duty deadline s) := hwGuarded_wf hm (by simp [hm])
theorem execChanConfig_wf {h : Hdr} {addr len ch : Nat} : outWf (execChanConfig h addr len ch s) :=
  fwDesc_wf hm fun r t ht => State.guarded_wf _ _ _ _ (by simp [ht]) ht
theorem execChanClear_wf {h : Hdr} {ch : Nat} : outWf (execChanClear h ch s) := fwFar_wf hm (by simp [hm])
theorem execChanBond_wf {h : Hdr} {count : Nat} {members epochs : List Nat} : outWf (execChanBond h count members epochs s) :=
  fwFar_wf hm (by simp [hm])
theorem execChanUnbond_wf {h : Hdr} {ch : Nat} : outWf (execChanUnbond h ch s) := fwFar_wf hm (by simp [hm])
theorem execChanCapture_wf {h : Hdr} {out outLen ch kind count : Nat} : outWf (execChanCapture h out outLen ch kind count s) :=
  fwFar_wf hm (by dsimp only; (repeat' split) <;> simp [hm])
theorem execCaptureTrigger_wf {ch : Nat} : outWf (execCaptureTrigger ch s) := unitEvent_wf _ _ (by dsimp only; (repeat' split) <;> simp [hm])
theorem execDirectCmdOff_wf {ini tag ch epoch reserved : Nat} : outWf (execDirectCmdOff ini tag ch epoch reserved s) :=
  unitEvent_wf _ _ (by simp [hm])
theorem execDirectCmdOn_wf {ini tag ch epoch reserved : Nat} : outWf (execDirectCmdOn ini tag ch epoch reserved s) := unitEvent_wf _ _ (by simp [hm])
theorem execDirectCmdPwm_wf {ini tag ch epoch reserved duty : Nat} : outWf (execDirectCmdPwm ini tag ch epoch reserved duty s) :=
  unitEvent_wf _ _ (by simp [hm])

/-! ### Channel events -/

theorem execTurnOnEnd_wf {ch : Nat} : outWf (execTurnOnEnd ch s) := unitEvent_wf _ _ (by simp [hm])
theorem execTurnOffEnd_wf {ch : Nat} : outWf (execTurnOffEnd ch s) := unitEvent_wf _ _ (by simp [hm])
theorem execSlewDeadline_wf {ch : Nat} : outWf (execSlewDeadline ch s) := unitEvent_wf _ _ (by simp [hm])
theorem execPwmPeriodStart_wf {ch : Nat} : outWf (execPwmPeriodStart ch s) := unitEvent_wf _ _ (by simp [hm])
theorem execPwmOffEdge_wf {ch : Nat} : outWf (execPwmOffEdge ch s) := unitEvent_wf _ _ (by simp [hm])
theorem execCurrentLimiting_wf {ch ma mv : Nat} : outWf (execCurrentLimiting ch ma mv s) := unitEvent_wf _ _ (by simp [hm])
theorem execProtectOc_wf {ch : Nat} : outWf (execProtectOc ch s) := unitEvent_wf _ _ (by simp [hm])
theorem execProtectSc_wf {ch : Nat} : outWf (execProtectSc ch s) := unitEvent_wf _ _ (by simp [hm])
theorem execProtectOt_wf {ch : Nat} {tj : Int} : outWf (execProtectOt ch tj s) := unitEvent_wf _ _ (by simp [hm])
theorem execProtectDt_wf {ch : Nat} {tj : Int} : outWf (execProtectDt ch tj s) := unitEvent_wf _ _ (by simp [hm])
theorem execRetryRestart_wf {ch : Nat} : outWf (execRetryRestart ch s) := unitEvent_wf _ _ (by simp [hm])
theorem execRetryCounterReset_wf {ch : Nat} : outWf (execRetryCounterReset ch s) := unitEvent_wf _ _ (by simp [hm])
theorem execCurrentSample_wf {ch : Nat} {cur vout tj : Int} {vb : Nat} : outWf (execCurrentSample ch cur vout tj vb s) :=
  unitEvent_wf _ _ (by simp [hm])
theorem execOpenLoadOn_wf {ch : Nat} : outWf (execOpenLoadOn ch s) := unitEvent_wf _ _ (by simp [hm])
theorem execOffStateTest_wf {ch : Nat} {v1 v2 : Int} : outWf (execOffStateTest ch v1 v2 s) := unitEvent_wf _ _ (by simp [hm])
theorem execBuntingImbalance_wf {n : Nat} : outWf (execBuntingImbalance n s) := unitEvent_wf _ _ (by simp [hm])
theorem execGroupUndervoltage_wf {g mv : Nat} : outWf (execGroupUndervoltage g mv s) := unitEvent_wf _ _ (by simp [hm])
theorem execGroupUvRecover_wf {g mv : Nat} : outWf (execGroupUvRecover g mv s) := unitEvent_wf _ _ (by simp [hm])
theorem execGroupOvervoltage_wf {g mv : Nat} : outWf (execGroupOvervoltage g mv s) := unitEvent_wf _ _ (by simp [hm])
theorem execReversePolarity_wf {g : Nat} {on : Bool} : outWf (execReversePolarity g on s) := unitEvent_wf _ _ (by simp [hm])
theorem execDieTempHigh_wf {d : Nat} {temp : Int} : outWf (execDieTempHigh d temp s) := unitEvent_wf _ _ (by simp [hm])
theorem execDieTempNormal_wf {d : Nat} {temp : Int} : outWf (execDieTempNormal d temp s) := unitEvent_wf _ _ (by simp [hm])
theorem execCDieAbsent_wf {d : Nat} : outWf (execCDieAbsent d s) := unitEvent_wf _ _ (by simp [hm])
theorem execCDiePresent_wf {d : Nat} : outWf (execCDiePresent d s) := unitEvent_wf _ _ (by simp [hm])
theorem execOrphanHoldEnd_wf {ch : Nat} : outWf (execOrphanHoldEnd ch s) := unitEvent_wf _ _ (by simp [hm])

/-! ### Time -/

theorem execSyncReception_wf {second : Bool} {port : Nat} {offset : Int} : outWf (execSyncReception second port offset s) :=
  (outWf_next _).2 (by dsimp only; (repeat' split) <;> simp [hm])
theorem execSyncTimeout_wf : outWf (execSyncTimeout s) := (outWf_next _).2 (by simp [hm])
theorem execHoldoverTimeout_wf : outWf (execHoldoverTimeout s) := (outWf_next _).2 (by simp [hm])
theorem execBestMasterClockDecision_wf {second self : Bool} {port id : Nat} : outWf (execBestMasterClockDecision second self port id s) :=
  (outWf_next _).2 (by simp [hm])
theorem execGptpSyncTransmit_wf {second : Bool} : outWf (execGptpSyncTransmit second s) := (outWf_next _).2 (by simp [hm])
theorem execDtLoRead_wf {ini : Nat} : outWf (execDtLoRead ini s) := (outWf_next _).2 (by simp [hm])
theorem execSchedTime_wf {h : Hdr} {op value : Nat} : outWf (execSchedTime h op value s) := fwGuarded_wf hm (by simp [hm])

/-! ### Scheduler -/

theorem execSchedWrite_wf {h : Hdr} {entry : Nat} {rcd : List Byte} : outWf (execSchedWrite h entry rcd s) := fwGuarded_wf hm (by simp [hm])
theorem execSchedClear_wf {h : Hdr} {entry : Nat} : outWf (execSchedClear h entry s) := fwGuarded_wf hm (by simp [hm])
theorem execSchedArm_wf {h : Hdr} {entry trigger : Nat} : outWf (execSchedArm h entry trigger s) := hwGuarded_wf hm (by simp [hm])
theorem execSchedDisarm_wf {h : Hdr} {entry : Nat} : outWf (execSchedDisarm h entry s) := hwGuarded_wf hm (by simp [hm])
theorem execSchedDispatch_wf {ent : Nat} : outWf (execSchedDispatch ent s) := unitEvent_wf _ _ (by dsimp only; (repeat' split) <;> simp [hm])

/-! ### Inputs and isolated outputs -/

theorem execInputSw_wf {h : Hdr} {input wet deb flags maxact chatter window : Nat} :
    outWf (execInputSw h input wet deb flags maxact chatter window s) :=
  fwGuarded_wf hm (by simp [hm])
theorem execInputStuckDetect_wf {n : Nat} : outWf (execInputStuckDetect n s) := unitEvent_wf _ _ (by simp [hm])
theorem execChatterWindowEnd_wf {n : Nat} : outWf (execChatterWindowEnd n s) := unitEvent_wf _ _ (by simp [hm])
theorem execInputClear_wf {h : Hdr} {input what : Nat} : outWf (execInputClear h input what s) := fwGuarded_wf hm (by simp [hm])
theorem execInputAn_wf {h : Hdr} {an conv deb : Nat} : outWf (execInputAn h an conv deb s) := fwGuarded_wf hm (by simp [hm])
theorem execAdcConversion_wf {c an code : Nat} : outWf (execAdcConversion c an code s) := unitEvent_wf _ _ (by simp [hm])
theorem execInputPc_wf {h : Hdr} {pc mode deb zpre preset : Nat} : outWf (execInputPc h pc mode deb zpre preset s) := fwGuarded_wf hm (by simp [hm])
theorem execPcEdge_wf {k : Nat} {a b : Bool} : outWf (execPcEdge k a b s) := unitEvent_wf _ _ (by simp [hm])
theorem execPcZEdge_wf {k : Nat} : outWf (execPcZEdge k s) := unitEvent_wf _ _ (by (repeat' split) <;> simp [hm])
theorem execIsoCfg_wf {h : Hdr} {ch mode deb : Nat} : outWf (execIsoCfg h ch mode deb s) := fwFar_wf hm (by simp [hm])
theorem execIsoSet_wf {h : Hdr} {ch value : Nat} : outWf (execIsoSet h ch value s) := fwFar_wf hm (by simp [hm])
theorem execIsoClear_wf {h : Hdr} {ch : Nat} : outWf (execIsoClear h ch s) := fwFar_wf hm (by simp [hm])
theorem execIsoBlankingEnd_wf {ch : Nat} : outWf (execIsoBlankingEnd ch s) := unitEvent_wf _ _ (by dsimp only; (repeat' split) <;> simp [hm])
theorem execIsoMismatchDetect_wf {ch : Nat} : outWf (execIsoMismatchDetect ch s) := unitEvent_wf _ _ (by simp [hm])
theorem execIsoOverload_wf {ch : Nat} {hot : Bool} : outWf (execIsoOverload ch hot s) := unitEvent_wf _ _ (by simp [hm])
theorem execVfieldOk_wf {mv : Nat} : outWf (execVfieldOk mv s) := (outWf_next _).2 (by simp [hm])
theorem execVfieldLoss_wf {mv : Nat} : outWf (execVfieldLoss mv s) := (outWf_next _).2 (by simp [hm])
theorem execIsoLinkSilent_wf : outWf (execIsoLinkSilent s) := (outWf_next _).2 (by simp [hm])
theorem execBarrierLinkReturn_wf : outWf (execBarrierLinkReturn s) := (outWf_next _).2 (by simp [hm])
theorem execIsoOrphanTimeout_wf : outWf (execIsoOrphanTimeout s) := (outWf_next _).2 (by simp [hm])
theorem execInputLevelAccept_wf {kind i : Nat} {level : Bool} : outWf (execInputLevelAccept kind i level s) := unitEvent_wf _ _ (by simp [hm])
theorem execInputUnset_wf {kind i : Nat} : outWf (execInputUnset kind i s) := unitEvent_wf _ _ (by simp [hm])

/-! ### CAN commands -/

theorem execCanCtrl_wf {h : Hdr} {addr len ctrl : Nat} : outWf (execCanCtrl h addr len ctrl s) := fwDesc_wf hm fun r t ht => by simp [ht]
theorem execCanMode_wf {h : Hdr} {ctrl mode : Nat} : outWf (execCanMode h ctrl mode s) := fwGuarded_wf hm (by simp [hm])
theorem execCanBusIntegration_wf {c : Nat} : outWf (execCanBusIntegration c s) := unitEvent_wf _ _ (by dsimp only; (repeat' split) <;> simp [hm])
theorem execCanModeFrameEnd_wf {c : Nat} : outWf (execCanModeFrameEnd c s) := unitEvent_wf _ _ (by dsimp only; (repeat' split) <;> simp [hm])
theorem execCanBusoffRecoveryStart_wf {c : Nat} : outWf (execCanBusoffRecoveryStart c s) := unitEvent_wf _ _ (by simp [hm])
theorem execCanBusoffRecoveryEnd_wf {c : Nat} : outWf (execCanBusoffRecoveryEnd c s) := unitEvent_wf _ _ (by simp [hm])
theorem execCanObj_wf {h : Hdr} {obj fmt enable id ctrl : Nat} : outWf (execCanObj h obj fmt enable id ctrl s) := fwGuarded_wf hm (by simp [hm])
theorem execCanTx_wf {h : Hdr} {obj : Nat} {desc : Bool} {addr len : Nat} {data : List Byte} : outWf (execCanTx h obj desc addr len data s) :=
  (outWf_next _).2 (by simp [hm])
theorem execCanAuth_wf {h : Hdr} {ctrl op id locket maclen : Nat} : outWf (execCanAuth h ctrl op id locket maclen s) := fwGuarded_wf hm (by simp [hm])
theorem execCanTmaster_wf {h : Hdr} {ctrl enable entry id : Nat} : outWf (execCanTmaster h ctrl enable entry id s) := fwGuarded_wf hm (by simp [hm])
theorem execCanRefmsgTimeout_wf {c : Nat} : outWf (execCanRefmsgTimeout c s) := unitEvent_wf _ _ (by dsimp only; (repeat' split) <;> simp [hm])
theorem execFreshnessSave_wf {i : Nat} : outWf (execFreshnessSave i s) := (outWf_next _).2 (by (repeat' split) <;> simp [hm])

/-! ### CAN buses -/

theorem execCanFrameReceive_wf {c : Nat} {frame : CanFrame} {ago : Nat} : outWf (execCanFrameReceive c frame ago s) :=
  unitEvent_wf _ _ (by dsimp only; (repeat' split) <;> simp [hm])
theorem execCanReceiveError_wf {c kind : Nat} {dominant : Bool} : outWf (execCanReceiveError c kind dominant s) := unitEvent_wf _ _ (by simp [hm])
theorem execCanTxStart_wf {c : Nat} : outWf (execCanTxStart c s) := unitEvent_wf _ _ (by simp [hm])
theorem execCanTxDone_wf {c tdc : Nat} : outWf (execCanTxDone c tdc s) := unitEvent_wf _ _ (by (repeat' split) <;> simp [hm])
theorem execCanTxError_wf {c kind : Nat} {exc : Bool} : outWf (execCanTxError c kind exc s) := unitEvent_wf _ _ (by simp [hm])
theorem execD2dError_wf {link : Nat} : outWf (execD2dError link s) := unitEvent_wf _ _ (by simp [hm])

/-! ### LIN buses -/

theorem execCanLin_wf {h : Hdr} {addr len lin : Nat} : outWf (execCanLin h addr len lin s) := fwDesc_wf hm fun r t ht => by simp [ht]
theorem execCanLinrun_wf {h : Hdr} {lin table mode : Nat} : outWf (execCanLinrun h lin table mode s) := fwGuarded_wf hm (by simp [hm])
theorem execLinSlotStart_wf {l : Nat} {err : Bool} : outWf (execLinSlotStart l err s) := unitEvent_wf _ _ (by simp [hm])
theorem execLinResponseRx_wf {l : Nat} {data : List Byte} {code ago : Nat} : outWf (execLinResponseRx l data code ago s) :=
  unitEvent_wf _ _ (by dsimp only; (repeat' split) <;> simp [hm])
theorem execLinNoResponse_wf {l : Nat} : outWf (execLinNoResponse l s) := unitEvent_wf _ _ (by dsimp only; (repeat' split) <;> simp [hm])
theorem execBridgeLinAgeExpiry_wf {l fid : Nat} : outWf (execBridgeLinAgeExpiry l fid s) := unitEvent_wf _ _ (by (repeat' split) <;> simp [hm])

/-! ### Sleep and wake -/

theorem execWakeSource_wf {h : Hdr} {addr len : Nat} : outWf (execWakeSource h addr len s) := fwDesc_wf hm fun r t ht => by simp [ht]
theorem execWakeInh_wf {h : Hdr} {mask level : Nat} : outWf (execWakeInh h mask level s) := fwFar_wf hm (by simp [hm])
theorem execWakeXcvr_wf {h : Hdr} {seg st : Nat} : outWf (execWakeXcvr h seg st s) := fwFar_wf hm (by simp [hm])
theorem execSegmentSleepEntry_wf {sg : Nat} : outWf (execSegmentSleepEntry sg s) := unitEvent_wf _ _ (by dsimp only; (repeat' split) <;> simp [hm])
theorem execWakeIndicate_wf {h : Hdr} {mask deadline attempts : Nat} : outWf (execWakeIndicate h mask deadline attempts s) :=
  fwFar_wf hm (by simp [hm])
theorem execPennantReadyRx_wf {sg seq node : Nat} {ready : Bool} : outWf (execPennantReadyRx sg seq node ready s) := unitEvent_wf _ _ (by simp [hm])
theorem execPennantReadyTimeout_wf {sg : Nat} : outWf (execPennantReadyTimeout sg s) := unitEvent_wf _ _ (by simp [hm])
theorem execPennantCommitPoint_wf {sg : Nat} : outWf (execPennantCommitPoint sg s) := unitEvent_wf _ _ (by simp [hm])
theorem execPennantRetry_wf {sg : Nat} : outWf (execPennantRetry sg s) := unitEvent_wf _ _ (by dsimp only; (repeat' split) <;> simp [hm])
theorem execWakeIndicateDeadline_wf {ring ctag : Nat} : outWf (execWakeIndicateDeadline ring ctag s) :=
  (outWf_next _).2 (by (repeat' split) <;> simp [hm])

/-! ### Frame bridge -/

theorem execBridgeRoute_wf {h : Hdr} {entry : Nat} {rcd : List Byte} : outWf (execBridgeRoute h entry rcd s) := fwGuarded_wf hm (by simp [hm])
theorem execBridgeClear_wf {h : Hdr} {entry : Nat} : outWf (execBridgeClear h entry s) := fwGuarded_wf hm (by simp [hm])
theorem execBridgeWakelist_wf {h : Hdr} {seg op entry : Nat} : outWf (execBridgeWakelist h seg op entry s) := fwGuarded_wf hm (by simp [hm])
theorem execBridgeLookup_wf : outWf (execBridgeLookup s) := (outWf_next _).2 (by dsimp only; (repeat' split) <;> simp [hm])
theorem execSp19AvtpduReceive_wf {vid uid : Nat} {good : Bool} {msgs : List Acf} : outWf (execSp19AvtpduReceive vid uid good msgs s) :=
  (outWf_next _).2 (by simp [hm])

/-! ### Keys and attestation -/

theorem execKeyWrite_wf {h : Hdr} {addr len slot : Nat} : outWf (execKeyWrite h addr len slot s) := fwDesc_wf hm fun r t ht => by simp [ht]
theorem execKeyDerive_wf {h : Hdr} {slot ktype : Nat} {label : List Byte} : outWf (execKeyDerive h slot ktype label s) :=
  fwGuarded_wf hm (by simp [hm])
theorem execKeyErase_wf {h : Hdr} {slot : Nat} : outWf (execKeyErase h slot s) := fwGuarded_wf hm (by simp [hm])
theorem execKeyPermit_wf {h : Hdr} {slot allow : Nat} : outWf (execKeyPermit h slot allow s) := fwGuarded_wf hm (by simp [hm])
theorem execKeyAead_wf {h : Hdr} {addr len slot op : Nat} {iv : List Byte} {out outLen : Nat} :
    outWf (execKeyAead h addr len slot op iv out outLen s) :=
  fwDesc_wf hm fun r t ht => State.useSlot_wf _ _ _ _ _ _ _ _ (fun u hu => by (repeat' split) <;> simp [hu]) ht
theorem execKeyCmac_wf {h : Hdr} {addr len slot out outLen : Nat} : outWf (execKeyCmac h addr len slot out outLen s) :=
  fwDesc_wf hm fun r t ht => by simp +contextual [ht]
theorem execKeySign_wf {h : Hdr} {addr len slot out outLen : Nat} : outWf (execKeySign h addr len slot out outLen s) :=
  fwDesc_wf hm fun r t ht => by simp [ht]
theorem execKeyVerify_wf {h : Hdr} {addr len : Nat} : outWf (execKeyVerify h addr len s) := fwDesc_wf hm fun r t ht => by simp [ht]
theorem execKeyPubkey_wf {h : Hdr} {out outLen slot : Nat} : outWf (execKeyPubkey h out outLen slot s) := fwCmd_wf _ _ _ (by simp +contextual [hm]) hm
theorem execAttestReport_wf {h : Hdr} {out outLen : Nat} {nonce : List Byte} : outWf (execAttestReport h out outLen nonce s) :=
  fwGuarded_wf hm (by simp [hm])
theorem execAttestExtend_wf {h : Hdr} {len : Nat} {data : List Byte} : outWf (execAttestExtend h len data s) := fwGuarded_wf hm (by simp [hm])
theorem execAttestIdentity_wf {h : Hdr} {out outLen : Nat} : outWf (execAttestIdentity h out outLen s) := fwGuarded_wf hm (by simp [hm])

/-! ### Faults -/

theorem execFaultCfg_wf {h : Hdr} {src sev event line : Nat} : outWf (execFaultCfg h src sev event line s) := fwGuarded_wf hm (by simp [hm])
theorem execFaultLogclr_wf {h : Hdr} {count : Nat} : outWf (execFaultLogclr h count s) := fwGuarded_wf hm (by simp [hm])
theorem execFaultLogMirror_wf : outWf (execFaultLogMirror s) := (outWf_next _).2 (by (repeat' split) <;> simp [hm])
theorem execFaultReactionStart_wf : outWf (execFaultReactionStart s) := (outWf_next _).2 (by (repeat' split) <;> simp [hm])
theorem execFaultRelease_wf {h : Hdr} {src : Nat} : outWf (execFaultRelease h src s) := fwGuarded_wf hm (by simp [hm])
theorem execSafeLineDemand_wf : outWf (execSafeLineDemand s) := (outWf_next _).2 (by simp [hm])
theorem execFaultRecover_wf {h : Hdr} : outWf (execFaultRecover h s) := fwGuarded_wf hm (by simp [hm])
theorem execSafeNChange_wf {low : Bool} : outWf (execSafeNChange low s) := (outWf_next _).2 (by simp [hm])
theorem execSysWdi_wf {h : Hdr} {enable tmax tmin : Nat} : outWf (execSysWdi h enable tmax tmin s) := fwGuarded_wf hm (by simp [hm])
theorem execWdiToggle_wf : outWf (execWdiToggle s) := (outWf_next _).2 (by simp [hm])
theorem execWdiTimeout_wf : outWf (execWdiTimeout s) := (outWf_next _).2 (by simp [hm])
theorem execClkLoss_wf : outWf (execClkLoss s) := (outWf_next _).2 (by simp [hm])
theorem execCdieOvertemp_wf {temp : Int} : outWf (execCdieOvertemp temp s) := (outWf_next _).2 (by simp [hm])
theorem execRtPairFault_wf {k kind : Nat} : outWf (execRtPairFault k kind s) := unitEvent_wf _ _ (by simp [hm])
theorem execMpFault_wf {kind : Nat} : outWf (execMpFault kind s) := (outWf_next _).2 (by simp [hm])
theorem execEventCfgWrite_wf {ini tag n value : Nat} : outWf (execEventCfgWrite ini tag n value s) := unitEvent_wf _ _ (by simp [hm])
theorem execEventPendClear_wf {ini tag n value : Nat} : outWf (execEventPendClear ini tag n value s) := unitEvent_wf _ _ (by simp [hm])
theorem execEventSwtrig_wf {ini tag n value : Nat} : outWf (execEventSwtrig ini tag n value s) := unitEvent_wf _ _ (by simp [hm])
theorem execEventPulse_wf {n : Nat} : outWf (execEventPulse n s) := unitEvent_wf _ _ (by simp [hm])

/-! ### Rings -/

theorem execCompletionPublish_wf {ring : Nat} : outWf (execCompletionPublish ring s) := unitEvent_wf _ _ (by (repeat' split) <;> simp [hm])
theorem execCmdDb_wf {ini tag n value : Nat} : outWf (execCmdDb ini tag n value s) := unitEvent_wf _ _ (by simp [hm])
theorem execCplDb_wf {ini tag n value : Nat} : outWf (execCplDb ini tag n value s) := unitEvent_wf _ _ (by simp [hm])

/-! ### Tenancy -/

theorem execTenancyTableSave_wf : outWf (execTenancyTableSave s) := (outWf_next _).2 (by simp [hm])
theorem execTenAssign_wf {h : Hdr} {kind tag index count : Nat} : outWf (execTenAssign h kind tag index count s) :=
  fwGuarded_wf hm (by (repeat' split) <;> simp [hm])
theorem execSysPincfg_wf {h : Hdr} {pin func pull : Nat} : outWf (execSysPincfg h pin func pull s) := fwGuarded_wf hm (by simp [hm])
theorem execTenBezel_wf {h : Hdr} {range tag enable perms base size : Nat} : outWf (execTenBezel h range tag enable perms base size s) :=
  fwGuarded_wf hm (by simp [hm])
theorem execBezelFillDone_wf : outWf (execBezelFillDone s) := (outWf_next _).2 (by (repeat' split) <;> simp [hm])
theorem execTenRingcfg_wf {h : Hdr} {ring enable quota fwquota event : Nat} : outWf (execTenRingcfg h ring enable quota fwquota event s) :=
  fwGuarded_wf hm (by dsimp only; (repeat' split) <;> simp [hm])
theorem execTenClasp_wf {h : Hdr} {clasp op tagA tagB evA evB : Nat} : outWf (execTenClasp h clasp op tagA tagB evA evB s) :=
  fwGuarded_wf hm (by simp [hm])
theorem execTenPost_wf {h : Hdr} {clasp : Nat} {msg : List Byte} : outWf (execTenPost h clasp msg s) := fwGuarded_wf hm (by simp [hm])
theorem execTenTake_wf {h : Hdr} {out outLen clasp : Nat} : outWf (execTenTake h out outLen clasp s) := fwGuarded_wf hm (by simp [hm])
theorem execTenGate_wf {h : Hdr} {gate op : Nat} : outWf (execTenGate h gate op s) := fwGuarded_wf hm (by simp [hm])
theorem execGateCutApply_wf {gate : Nat} : outWf (execGateCutApply gate s) := unitEvent_wf _ _ (by simp [hm])

/-! ### Field bridge -/

theorem execSysFbpoll_wf {h : Hdr} {poll : Nat} : outWf (execSysFbpoll h poll s) := fwGuarded_wf hm (by simp [hm])
theorem execFbPoll_wf {die code hot : Nat} : outWf (execFbPoll die code hot s) := unitEvent_wf _ _ (by simp [hm])
theorem execFbPostedWrite_wf {ini tag ch word code repeats : Nat} : outWf (execFbPostedWrite ini tag ch word code repeats s) :=
  unitEvent_wf _ _ (by simp [hm])
theorem execFbDataBurst_wf {ch : Nat} {smp : List (Int × Int)} {far code repeats : Nat} :
    outWf (execFbDataBurst ch smp far code repeats s) :=
  unitEvent_wf _ _ (by
    split
    · exact hm
    · refine ite_wf hm (ite_wf (by simp [hm]) (ite_wf ?_ ?_))
      · exact State.captureOut_wf _ _ _ _ hm
      · rw [State.ok_mem, State.setChan_mem]
        exact State.captureOut_wf _ _ _ _ (State.captureOut_wf _ _ _ _ hm))

/-! ### Egress -/

theorem execTransmitStart_wf {p : Nat} : outWf (execTransmitStart p s) := unitEvent_wf _ _ (by dsimp only; (repeat' split) <;> simp [hm])
theorem execTransmitEnd_wf {p dma buf : Nat} : outWf (execTransmitEnd p dma buf s) := unitEvent_wf _ _ (by dsimp only; (repeat' split) <;> simp [hm])
theorem execGateEntryChange_wf {p : Nat} : outWf (execGateEntryChange p s) := unitEvent_wf _ _ (by simp [hm])
theorem execGateListSwitch_wf {p : Nat} : outWf (execGateListSwitch p s) := unitEvent_wf _ _ (by (repeat' split) <;> simp [hm])
theorem execPreemptionVerification_wf {p : Nat} {good : Bool} : outWf (execPreemptionVerification p good s) := unitEvent_wf _ _ (by simp [hm])

/-! ### Switch fabric -/

theorem execCellWrite_wf {i ecc : Nat} : outWf (execCellWrite i ecc s) := unitEvent_wf _ _ (by dsimp only; (repeat' split) <;> simp [hm])
theorem execCellRead_wf {k ecc : Nat} : outWf (execCellRead k ecc s) := unitEvent_wf _ _ (by dsimp only; (repeat' split) <;> simp [hm])
theorem execRsqGap_wf {o i c : Nat} : outWf (execRsqGap o i c s) := unitEvent_wf _ _ (by dsimp only; (repeat' split) <;> simp [hm])
theorem execLeakAudit_wf : outWf (execLeakAudit s) := (outWf_next _).2 (by simp [hm])
theorem execFabricInitStart_wf : outWf (execFabricInitStart s) := (outWf_next _).2 (by simp [hm])
theorem execFabricInitDiscard_wf : outWf (execFabricInitDiscard s) := (outWf_next _).2 (by simp [hm])
theorem execFabricInitRebuild_wf : outWf (execFabricInitRebuild s) := (outWf_next _).2 (by simp [hm])
theorem execFabricInitEnd_wf : outWf (execFabricInitEnd s) := (outWf_next _).2 (by simp [hm])

/-! ### Ingress -/

theorem execCbRecoveryReset_wf {i : Nat} : outWf (execCbRecoveryReset i s) := unitEvent_wf _ _ (by simp [hm])
theorem execFdbAgeout_wf {i : Nat} : outWf (execFdbAgeout i s) := unitEvent_wf _ _ (by simp [hm])
theorem execFrameIngress_wf {p : Nat} {data : List Byte} {good : Bool} {ago dma frags : Nat} : outWf (execFrameIngress p data good ago dma frags s) :=
  unitEvent_wf _ _ (by simp [hm])

/-! ### Ports and network commands -/

theorem execLinkTrainingDone_wf {p : Nat} : outWf (execLinkTrainingDone p s) := unitEvent_wf _ _ (by simp [hm])
theorem execLinkTrainingTimeout_wf {p : Nat} : outWf (execLinkTrainingTimeout p s) := unitEvent_wf _ _ (by simp [hm])
theorem execLinkRetryTimer_wf {p : Nat} : outWf (execLinkRetryTimer p s) := unitEvent_wf _ _ (by (repeat' split) <;> simp [hm])
theorem execLinkLoss_wf {p : Nat} : outWf (execLinkLoss p s) := unitEvent_wf _ _ (by simp [hm])
theorem execMdioPoll_wf {p : Nat} {up : Bool} : outWf (execMdioPoll p up s) := unitEvent_wf _ _ (by simp [hm])
theorem execUsxgmiiInbandWord_wf {p w : Nat} : outWf (execUsxgmiiInbandWord p w s) := unitEvent_wf _ _ (by simp [hm])
theorem execTc10SleepRequestRx_wf {p : Nat} : outWf (execTc10SleepRequestRx p s) := unitEvent_wf _ _ (by simp [hm])
theorem execTc10SleepAckRx_wf {p : Nat} : outWf (execTc10SleepAckRx p s) := unitEvent_wf _ _ (by simp [hm])
theorem execTc10SleepAbort_wf {p : Nat} : outWf (execTc10SleepAbort p s) := unitEvent_wf _ _ (by simp [hm])
theorem execTc10WakeupRx_wf {p : Nat} : outWf (execTc10WakeupRx p s) := unitEvent_wf _ _ (by simp [hm])
theorem execNetSleep_wf {h : Hdr} {port : Nat} : outWf (execNetSleep h port s) := fwGuarded_wf hm (by simp [hm])

omit hm in
/-- A wake of a segment for any tag and origin leaves memory as it was. -/
theorem wakeSeg_from_mem (t : State) (g tag origin : Nat) : (t.wakeSeg g tag origin).mem = t.mem := by simp [State.wakeSeg]

theorem execNetWake_wf {h : Hdr} {port deadline : Nat} : outWf (execNetWake h port deadline s) :=
  fwGuarded_wf hm (ite_wf (by simp [hm]) (by
    rw [State.wakeAccepted_mem]
    split
    · exact hm
    · split
      · rw [wakeSeg_from_mem]
        exact hm
      · simp [hm]))
theorem execNetWakeDeadline_wf {p : Nat} : outWf (execNetWakeDeadline p s) := unitEvent_wf _ _ (by simp [hm])
theorem execNetPortcfg_wf {h : Hdr} {addr len port : Nat} : outWf (execNetPortcfg h addr len port s) := fwDesc_wf hm fun r t ht => by simp [ht]
theorem execNetVlan_wf {h : Hdr} {vid member untag : Nat} : outWf (execNetVlan h vid member untag s) := fwGuarded_wf hm (by simp [hm])
theorem execNetFdb_wf {h : Hdr} {op mac vid mask : Nat} : outWf (execNetFdb h op mac vid mask s) := fwGuarded_wf hm (by (repeat' split) <;> simp [hm])
theorem execNetTsn_wf {h : Hdr} {addr len table port base : Nat} : outWf (execNetTsn h addr len table port base s) :=
  fwDesc_wf hm fun r t ht => by simp [ht]
theorem execNetMacsec_wf {h : Hdr} {port op an dir locket sci ssci pn : Nat} : outWf (execNetMacsec h port op an dir locket sci ssci pn s) :=
  fwGuarded_wf hm (by simp [hm])
theorem execNetGptp_wf {h : Hdr} {addr len : Nat} : outWf (execNetGptp h addr len s) := fwDesc_wf hm fun r t ht => by simp [ht]

/-! ### STATE.READ -/

theorem execStateRead_wf {h : Hdr} {out outLen obj index count : Nat} : outWf (execStateRead h out outLen obj index count s) := by
  unfold execStateRead
  split
  · exact hwGuarded_wf hm hm
  · dsimp only
    split
    · exact fwGuarded_wf hm (by simp [hm])
    · exact hwGuarded_wf hm (by simp [hm])

/-! ### Keore: instructions -/

theorem execKNop_wf : outWf (execKNop s) := outWf_of_mem hm (State.kReg_mem _ _ _)
theorem execKLdb_wf {d base byte bit : Nat} : outWf (execKLdb d base byte bit s) := outWf_of_mem hm (State.kBitTo_mem _ _ _ _ _ _ _)
theorem execKStb_wf {d base byte bit : Nat} : outWf (execKStb d base byte bit s) :=
  State.kBitOp_wf _ _ _ _ _ _ (fun u k t a b hu => by simp [hu]) hm
theorem execKSetb_wf {d base byte bit : Nat} : outWf (execKSetb d base byte bit s) :=
  State.kBitOp_wf _ _ _ _ _ _ (fun u k t a b hu => by rw [State.kNext_mem]; exact ite_wf (State.kStoreBit_wf _ _ _ _ _ hu) hu) hm
theorem execKRstb_wf {d base byte bit : Nat} : outWf (execKRstb d base byte bit s) :=
  State.kBitOp_wf _ _ _ _ _ _ (fun u k t a b hu => by rw [State.kNext_mem]; exact ite_wf (State.kStoreBit_wf _ _ _ _ _ hu) hu) hm
theorem execKAndb_wf {d base byte bit : Nat} : outWf (execKAndb d base byte bit s) := outWf_of_mem hm (State.kBitTo_mem _ _ _ _ _ _ _)
theorem execKOrb_wf {d base byte bit : Nat} : outWf (execKOrb d base byte bit s) := outWf_of_mem hm (State.kBitTo_mem _ _ _ _ _ _ _)
theorem execKXorb_wf {d base byte bit : Nat} : outWf (execKXorb d base byte bit s) := outWf_of_mem hm (State.kBitTo_mem _ _ _ _ _ _ _)
theorem execKAndnb_wf {d base byte bit : Nat} : outWf (execKAndnb d base byte bit s) := outWf_of_mem hm (State.kBitTo_mem _ _ _ _ _ _ _)
theorem execKLd_wf {d base off t : Nat} : outWf (execKLd d base off t s) := outWf_of_mem hm (State.kLoad_mem _ _ _ _ _ _)
theorem execKSt_wf {d base off t : Nat} : outWf (execKSt d base off t s) := State.kPut_wf _ _ _ _ _ _ hm
theorem execKLdx_wf {d base x off t : Nat} : outWf (execKLdx d base x off t s) := outWf_of_mem hm (State.kLoad_mem _ _ _ _ _ _)
theorem execKStx_wf {d base x off t : Nat} : outWf (execKStx d base x off t s) := State.kPut_wf _ _ _ _ _ _ hm
theorem execKLea_wf {d base off : Nat} : outWf (execKLea d base off s) := State.kRun_wf _ _ _ _ (fun u k t hu => by simp [hu]) hm
theorem execKAdd_wf {d a b t : Nat} : outWf (execKAdd d a b t s) := outWf_of_mem hm (State.kBin_mem _ _ _ _ _ _)
theorem execKSub_wf {d a b t : Nat} : outWf (execKSub d a b t s) := outWf_of_mem hm (State.kBin_mem _ _ _ _ _ _)
theorem execKMul_wf {d a b t : Nat} : outWf (execKMul d a b t s) := outWf_of_mem hm (State.kBin_mem _ _ _ _ _ _)
theorem execKDiv_wf {d a b t : Nat} : outWf (execKDiv d a b t s) := outWf_of_mem hm (State.kBin_mem _ _ _ _ _ _)
theorem execKMod_wf {d a b t : Nat} : outWf (execKMod d a b t s) := outWf_of_mem hm (State.kBin_mem _ _ _ _ _ _)
theorem execKMin_wf {d a b t : Nat} : outWf (execKMin d a b t s) := outWf_of_mem hm (State.kFree_mem _ _ _)
theorem execKMax_wf {d a b t : Nat} : outWf (execKMax d a b t s) := outWf_of_mem hm (State.kFree_mem _ _ _)
theorem execKNeg_wf {d a t : Nat} : outWf (execKNeg d a t s) := outWf_of_mem hm (State.kUn_mem _ _ _ _ _)
theorem execKAbs_wf {d a t : Nat} : outWf (execKAbs d a t s) := outWf_of_mem hm (State.kUn_mem _ _ _ _ _)
theorem execKAnd_wf {d a b t : Nat} : outWf (execKAnd d a b t s) := outWf_of_mem hm (State.kBin_mem _ _ _ _ _ _)
theorem execKOr_wf {d a b t : Nat} : outWf (execKOr d a b t s) := outWf_of_mem hm (State.kBin_mem _ _ _ _ _ _)
theorem execKXor_wf {d a b t : Nat} : outWf (execKXor d a b t s) := outWf_of_mem hm (State.kBin_mem _ _ _ _ _ _)
theorem execKNot_wf {d a t : Nat} : outWf (execKNot d a t s) := outWf_of_mem hm (State.kUn_mem _ _ _ _ _)
theorem execKShl_wf {d a b t : Nat} : outWf (execKShl d a b t s) := outWf_of_mem hm (State.kBin_mem _ _ _ _ _ _)
theorem execKShr_wf {d a b t : Nat} : outWf (execKShr d a b t s) := outWf_of_mem hm (State.kBin_mem _ _ _ _ _ _)
theorem execKRol_wf {d a b t : Nat} : outWf (execKRol d a b t s) := outWf_of_mem hm (State.kBin_mem _ _ _ _ _ _)
theorem execKRor_wf {d a b t : Nat} : outWf (execKRor d a b t s) := outWf_of_mem hm (State.kBin_mem _ _ _ _ _ _)
theorem execKCeq_wf {d a b t : Nat} : outWf (execKCeq d a b t s) := outWf_of_mem hm (State.kCmp_mem _ _ _ _ _ _ _)
theorem execKCne_wf {d a b t : Nat} : outWf (execKCne d a b t s) := outWf_of_mem hm (State.kCmp_mem _ _ _ _ _ _ _)
theorem execKClt_wf {d a b t : Nat} : outWf (execKClt d a b t s) := outWf_of_mem hm (State.kCmp_mem _ _ _ _ _ _ _)
theorem execKCle_wf {d a b t : Nat} : outWf (execKCle d a b t s) := outWf_of_mem hm (State.kCmp_mem _ _ _ _ _ _ _)
theorem execKCgt_wf {d a b t : Nat} : outWf (execKCgt d a b t s) := outWf_of_mem hm (State.kCmp_mem _ _ _ _ _ _ _)
theorem execKCge_wf {d a b t : Nat} : outWf (execKCge d a b t s) := outWf_of_mem hm (State.kCmp_mem _ _ _ _ _ _ _)
theorem execKSel_wf {d a b t : Nat} : outWf (execKSel d a b t s) := outWf_of_mem hm (State.kReg_mem _ _ _)
theorem execKLimit_wf {d a b t : Nat} : outWf (execKLimit d a b t s) := outWf_of_mem hm (State.kFree_mem _ _ _)
theorem execKCvt_wf {d a f t : Nat} : outWf (execKCvt d a f t s) := outWf_of_mem hm (State.kFree_mem _ _ _)
theorem execKSqrt_wf {d a t : Nat} : outWf (execKSqrt d a t s) := outWf_of_mem hm (State.kUn_mem _ _ _ _ _)
theorem execKTrunc_wf {d a t : Nat} : outWf (execKTrunc d a t s) := outWf_of_mem hm (State.kUn_mem _ _ _ _ _)
theorem execKMov_wf {d a t : Nat} : outWf (execKMov d a t s) := outWf_of_mem hm (State.kReg_mem _ _ _)
theorem execKLdi_wf {d imm : Nat} : outWf (execKLdi d imm s) := outWf_of_mem hm (State.kReg_mem _ _ _)
theorem execKLui_wf {d imm : Nat} : outWf (execKLui d imm s) := outWf_of_mem hm (State.kReg_mem _ _ _)
theorem execKAddi_wf {d imm : Nat} : outWf (execKAddi d imm s) := outWf_of_mem hm (State.kReg_mem _ _ _)
theorem execKBfx_wf {d a pos len : Nat} : outWf (execKBfx d a pos len s) := outWf_of_mem hm (State.kReg_mem _ _ _)
theorem execKBfi_wf {d a pos len : Nat} : outWf (execKBfi d a pos len s) := outWf_of_mem hm (State.kReg_mem _ _ _)
theorem execKJmp_wf {disp : Nat} : outWf (execKJmp disp s) := outWf_of_mem hm (State.kJump_mem _ _ _ _)
theorem execKJt_wf {c disp : Nat} : outWf (execKJt c disp s) := outWf_of_mem hm (State.kJump_mem _ _ _ _)
theorem execKJf_wf {c disp : Nat} : outWf (execKJf c disp s) := outWf_of_mem hm (State.kJump_mem _ _ _ _)
theorem execKCall_wf {c disp : Nat} : outWf (execKCall c disp s) := State.kRun_wf _ _ _ _ (fun u k t hu => by simp [hu]) hm
theorem execKRet_wf : outWf (execKRet s) := State.kRun_wf _ _ _ _ (fun u k t hu => by split <;> simp [hu]) hm
theorem execKNow_wf {d : Nat} : outWf (execKNow d s) := outWf_of_mem hm (State.kReg_mem _ _ _)
theorem execKNowr_wf {d : Nat} : outWf (execKNowr d s) := State.kRun_wf _ _ _ _ (fun u k t hu => by simp [hu]) hm
theorem execKEnd_wf : outWf (execKEnd s) := (outWf_next _).2 (by (repeat' split) <;> simp [hm])

/-! ### Keore: standard blocks -/

theorem execKTon_wf {g base off : Nat} : outWf (execKTon g base off s) := State.kTimer_wf _ _ _ _ _ _ hm
theorem execKTof_wf {g base off : Nat} : outWf (execKTof g base off s) := State.kTimer_wf _ _ _ _ _ _ hm
theorem execKTp_wf {g base off : Nat} : outWf (execKTp g base off s) := State.kTimer_wf _ _ _ _ _ _ hm
theorem execKRtrig_wf {g base off : Nat} : outWf (execKRtrig g base off s) := State.kEdge_wf _ _ _ _ _ _ hm
theorem execKFtrig_wf {g base off : Nat} : outWf (execKFtrig g base off s) := State.kEdge_wf _ _ _ _ _ _ hm
theorem execKCtu_wf {g base off : Nat} : outWf (execKCtu g base off s) := State.kCount_wf _ _ _ _ _ _ _ hm
theorem execKCtd_wf {g base off : Nat} : outWf (execKCtd g base off s) := State.kCount_wf _ _ _ _ _ _ _ hm
theorem execKSr_wf {g base off : Nat} : outWf (execKSr g base off s) := State.kBistable_wf _ _ _ _ _ _ hm
theorem execKRs_wf {g base off : Nat} : outWf (execKRs g base off s) := State.kBistable_wf _ _ _ _ _ _ hm
theorem execKRamp_wf {g base off : Nat} : outWf (execKRamp g base off s) :=
  State.kBlock_wf _ _ _ _ _ _ (fun u k t a hu => by
    rw [State.kBlockEnd_mem]
    exact State.kStore_wf _ _ _ _ (State.kStoreBit_wf _ _ _ _ _ (State.kStore_wf _ _ _ _ hu))) hm
theorem execKPid_wf {g base off : Nat} : outWf (execKPid g base off s) :=
  State.kBlock_wf _ _ _ _ _ _ (fun u k t a hu => by
    rw [State.kBlockEnd_mem]
    exact State.kStoreBit_wf _ _ _ _ _ (State.kStore_wf _ _ _ _ (State.kStore_wf _ _ _ _ (State.kStore_wf _ _ _ _ hu)))) hm

/-! ### Keore: commands -/

theorem execKeoreLoad_wf {h : Hdr} {addr len : Nat} : outWf (execKeoreLoad h addr len s) := fwDesc_wf hm fun r t ht => by simp [ht]
theorem execKeoreStart_wf {h : Hdr} {mode : Nat} : outWf (execKeoreStart h mode s) := fwGuarded_wf hm (by simp [hm])
theorem execKeoreStartComplete_wf : outWf (execKeoreStartComplete s) := (outWf_next _).2 (by (repeat' split) <;> simp [hm])
theorem execKeoreStop_wf {h : Hdr} : outWf (execKeoreStop h s) := fwGuarded_wf hm (by simp [hm])
theorem execKeoreTaskRelease_wf {task : Nat} : outWf (execKeoreTaskRelease task s) := unitEvent_wf _ _ (ite_wf (by simp [hm]) hm)
theorem execRetainPassStart_wf : outWf (execRetainPassStart s) := (outWf_next _).2 (by (repeat' split) <;> simp [hm])
theorem execRetainPassEnd_wf {good : Bool} : outWf (execRetainPassEnd good s) := (outWf_next _).2 (by (repeat' split) <;> simp [hm])
theorem execKeoreForce_wf {h : Hdr} {vartag typ value : Nat} : outWf (execKeoreForce h vartag typ value s) :=
  fwGuarded_wf hm (by (repeat' split) <;> simp [hm])
theorem execKeoreUnforce_wf {h : Hdr} {vartag : Nat} : outWf (execKeoreUnforce h vartag s) := fwGuarded_wf hm (by simp [hm])
theorem execKeoreExchange_wf {h : Hdr} {out outLen deadline : Nat} : outWf (execKeoreExchange h out outLen deadline s) :=
  fwGuarded_wf hm (by simp [hm])
theorem execExchangePrepared_wf : outWf (execExchangePrepared s) := (outWf_next _).2 (by simp [hm])
theorem execExchangeTimeout_wf : outWf (execExchangeTimeout s) := (outWf_next _).2 (by simp [hm])
theorem execExchangeCommit_wf : outWf (execExchangeCommit s) := (outWf_next _).2 (by simp [hm])

/-- The commands that waited for the exchange, carried out in turn. -/
theorem doLaters_wf (l : List Instr) : Memory.wf (l.foldl (fun (s : State) i => s.doLater i) s).mem = true :=
  foldl_wf _ (fun t i => State.doLater_wf t i) l s hm

/-- The releases that waited for the exchange, carried out in turn. -/
theorem heldReleases_wf (l : List HeldRel) :
    Memory.wf (l.foldl (fun (s : State) e => if s.keo.st = 2 then s.kRelease e.task e.relT e.caps else s) s).mem = true :=
  foldl_wf _ (fun t _ ht => ite_wf (State.kRelease_wf t _ _ _ ht) ht) l s hm

theorem execExchangeSwapEnd_wf : outWf (execExchangeSwapEnd s) :=
  (outWf_next _).2 (by
    refine ite_wf ?_ hm
    rw [State.settle_mem]
    refine heldReleases_wf (doLaters_wf ?_ _) _
    rw [State.replyAt_mem]
    refine State.writeOut_wf _ _ _ (State.passStart_wf _ ?_)
    rw [State.recordEpochs_mem, State.freshTasks_mem, State.recapture_mem, State.extend_mem]
    exact State.iwrite_wf _ _ _ (by simp [hm]))
theorem execFaultInject_wf {h : Hdr} {src : Nat} : outWf (execFaultInject h src s) := fwGuarded_wf hm (by simp [hm])

/-! ### Resets -/

theorem execPowerOnReset_wf : outWf (execPowerOnReset s) := (outWf_next _).2 (by simp [hm])
theorem execVbatRise_wf : outWf (execVbatRise s) := (outWf_next _).2 (by simp [hm])
theorem execRailsValid_wf {edges : Nat} : outWf (execRailsValid edges s) := (outWf_next _).2 (by simp [hm])
theorem execPorstNAssert_wf : outWf (execPorstNAssert s) := (outWf_next _).2 (by (repeat' split) <;> simp [hm])
theorem execResetNExternal_wf : outWf (execResetNExternal s) := hwCmd_wf _ _ (by simp [hm]) hm
theorem execFaultResetDemand_wf : outWf (execFaultResetDemand s) := (outWf_next _).2 (by (repeat' split) <;> simp [hm])
theorem execSysReset_wf {h : Hdr} {scope : Nat} : outWf (execSysReset h scope s) := fwGuarded_wf hm (by (repeat' split) <;> simp [hm])

/-! ### Boot -/

theorem execBootStart_wf : outWf (execBootStart s) := (outWf_next _).2 (by simp [hm])
theorem execBootFusesRead_wf : outWf (execBootFusesRead s) :=
  (outWf_next _).2 (by
    have e := memPutAll_wf (toLE 4 (nextStart (le (memRead s.mem 0x22380004 4) 0 4))) s.mem 0x22380004 hm
    refine ite_wf ?_ hm
    dsimp only
    split <;> simp [e])
theorem execBootPatchApply_wf : outWf (execBootPatchApply s) := (outWf_next _).2 (by dsimp only; (repeat' split) <;> simp [hm])

omit hm in
/-- Waking the latched segments from any first one leaves memory as it was. -/
theorem wakeLatched_from_mem (t : State) (lo : Nat) : (t.wakeLatched lo).mem = t.mem := by simp [State.wakeLatched]

theorem execBootBcrApply_wf {tab : Bool} {items : List BcrItem} : outWf (execBootBcrApply tab items s) :=
  (outWf_next _).2 (by
    refine ite_wf ?_ hm
    simp only [State.settle_mem, State.syncWake_mem, wakeLatched_from_mem]
    split <;> simp [State.scanSlots_wf s hm])
theorem execBootKeorePrepare_wf : outWf (execBootKeorePrepare s) := (outWf_next _).2 (by dsimp only; (repeat' split) <;> simp [hm])
theorem execBootFirstRelease_wf : outWf (execBootFirstRelease s) := (outWf_next _).2 (by dsimp only; (repeat' split) <;> simp [hm])
theorem execBootLateStages_wf {at0 at1 : List Nat} : outWf (execBootLateStages at0 at1 s) :=
  (outWf_next _).2 (by
    split
    · exact hm
    · split
      · simp [hm]
      · split
        · exact hm
        · simp only [State.settle_mem]
          refine State.lateApp_wf _ _ _ (State.lateRt_wf _ _ _ _ (State.lateRt_wf _ _ _ _ (State.lateRt_wf _ _ _ _ ?_)))
          simp only [State.freeHandle_mem, hm])

/-! ### Power and sleep -/

theorem execSysProfile_wf {h : Hdr} {profile : Nat} : outWf (execSysProfile h profile s) := fwGuarded_wf hm (by simp [hm])
theorem execProfileTransitionEnd_wf : outWf (execProfileTransitionEnd s) := (outWf_next _).2 (by (repeat' split) <;> simp [hm])
theorem execSysLifecycle_wf {h : Hdr} {addr len target : Nat} : outWf (execSysLifecycle h addr len target s) :=
  fwDesc_wf hm fun r t ht => by (repeat' split) <;> simp [ht]
theorem execSysFuse_wf {h : Hdr} {op key svn : Nat} {hash : List Byte} : outWf (execSysFuse h op key svn hash s) := fwGuarded_wf hm (by simp [hm])
theorem execSysUpdate_wf {h : Hdr} {addr len prefer : Nat} : outWf (execSysUpdate h addr len prefer s) := fwDesc_wf hm fun r t ht => by simp [ht]
theorem execWakeModule_wf {h : Hdr} : outWf (execWakeModule h s) := fwFar_wf hm (by simp [hm])
theorem execModuleSleepLatchCheck_wf : outWf (execModuleSleepLatchCheck s) := (outWf_next _).2 (by simp [hm])
theorem execModuleSleepPowerOff_wf : outWf (execModuleSleepPowerOff s) :=
  (outWf_next _).2 (by
    have e := State.survives_wf _ (foldl_wf (fun s o => (s.finishFuse o).cutOp o) (by simp +contextual) s.hal.ops s hm)
    refine ite_wf ?_ hm
    dsimp only
    split <;> simp [e])
theorem execWakeDetect_wf {src t n : Nat} : outWf (execWakeDetect src t n s) := unitEvent_wf _ _ (by dsimp only; (repeat' split) <;> simp [hm])
theorem execSleepTimer_wf : outWf (execSleepTimer s) := (outWf_next _).2 (by simp [hm])
theorem execSleepWettingPulse_wf {mask : Nat} : outWf (execSleepWettingPulse mask s) := (outWf_next _).2 (by simp [hm])

/-! ### Accesses and debug -/

theorem execMemoryAccess_wf {ini kind addr n : Nat} {data : List Byte} {more : Bool} :
    outWf (execMemoryAccess ini kind addr n data more s) := by
  unfold execMemoryAccess
  split
  · simp
  · simp only [outWf_next]
    (repeat' split) <;> simp [hm]
theorem execRegisterWriteOther_wf {ini tag addr value : Nat} : outWf (execRegisterWriteOther ini tag addr value s) :=
  (outWf_next _).2 (by (repeat' split) <;> simp [hm])
theorem execMtagWrite_wf {core value : Nat} : outWf (execMtagWrite core value s) := unitEvent_wf _ _ (by simp [hm])
theorem execMachineModeEntry_wf {core : Nat} : outWf (execMachineModeEntry core s) := unitEvent_wf _ _ (by simp [hm])
theorem execMachineModeReturn_wf {core : Nat} : outWf (execMachineModeReturn core s) := unitEvent_wf _ _ (by simp [hm])
theorem execDebugEnable_wf {h : Hdr} {tag en : Nat} : outWf (execDebugEnable h tag en s) := fwGuarded_wf hm (by simp [hm])
theorem execDebugTrace_wf {h : Hdr} {src enable : Nat} : outWf (execDebugTrace h src enable s) := fwGuarded_wf hm (by simp [hm])
theorem execTraceSyncPacket_wf {i : Nat} : outWf (execTraceSyncPacket i s) := unitEvent_wf _ _ (by simp [hm])
theorem execDebugPortAccess_wf {tag op unit addr n : Nat} {data : List Byte} {on : Bool} : outWf (execDebugPortAccess tag op unit addr n data on s) :=
  (outWf_next _).2 (by dsimp only; (repeat' split) <;> simp [hm])

/-! ### Ends of operations and scheduled actions -/

theorem execLongRunningOperationEnd_wf {ring ctag : Nat} {good : Bool} : outWf (execLongRunningOperationEnd ring ctag good s) :=
  (outWf_next _).2 (by
    split
    · exact hm
    · refine ite_wf hm ?_
      split
      · next ends => simp [State.opEnds_wf _ _ _ (by simp [hm]) _ ends]
      · exact hm)
theorem execSchedActionApply_wf {ent smp : Nat} : outWf (execSchedActionApply ent smp s) :=
  unitEvent_wf _ _ (by dsimp only; (repeat' split) <;> simp [hm])

end

end Sys2Proof.Machine
end

section
/-! SUPPORT. Commands fetched from rings: every command that a packet can spell keeps memory in its canonical form, and so do the fetch and the
turns of the MP. With them every arm of `exec` does, and so does every step (01 R30, R563). -/
namespace Sys2Proof.Machine
open Sys2Proof

/-- The command of an opcode's entry, whatever its packet, keeps memory in its canonical form. -/
def rowWf (o : Option PktRow) : Prop := ∀ r, o = some r → ∀ h p (u : State), Memory.wf u.mem = true → outWf (r.run h p u)

@[simp] theorem rowWf_none : rowWf none := by simp [rowWf]
@[simp] theorem rowWf_some (r : PktRow) : rowWf (some r) ↔ ∀ h p (u : State), Memory.wf u.mem = true → outWf (r.run h p u) := by
  simp [rowWf]
@[simp] theorem rowWf_pkFw (need : Nat) (used : List (Nat × Nat)) (run : Hdr → List Byte → State → Out) :
    rowWf (pkFw need used run) ↔ ∀ h p (u : State), Memory.wf u.mem = true → outWf (run h p u) := rowWf_some _
@[simp] theorem rowWf_pkDesc (need : Nat) (used : List (Nat × Nat)) (run : Hdr → List Byte → State → Out) :
    rowWf (pkDesc need used run) ↔ ∀ h p (u : State), Memory.wf u.mem = true → outWf (run h p u) := rowWf_some _
@[simp] theorem rowWf_pkOut (need : Nat) (used : List (Nat × Nat)) (run : Hdr → List Byte → State → Out) :
    rowWf (pkOut need used run) ↔ ∀ h p (u : State), Memory.wf u.mem = true → outWf (run h p u) := rowWf_some _
@[simp] theorem rowWf_pkE (o : Option PktRow) : rowWf (pkE o) ↔ rowWf o := by cases o <;> simp [pkE]
@[simp] theorem rowWf_pkHw (o : Option PktRow) : rowWf (pkHw o) ↔ rowWf o := by cases o <;> simp [pkHw]

theorem pktSys_wf (op : Nat) : rowWf (pktSys op) := by
  unfold pktSys
  split <;> simp +contextual [execSysReset_wf, execSysProfile_wf, execSysPincfg_wf, execSysLifecycle_wf, execSysFuse_wf, execSysUpdate_wf,
    execSysFbpoll_wf, execSysWdi_wf, execChanSet_wf, execChanConfig_wf, execChanClear_wf, execChanBond_wf, execChanUnbond_wf,
    execChanCapture_wf]

theorem pktNet_wf (op : Nat) : rowWf (pktNet op) := by
  unfold pktNet
  split <;> simp +contextual [execNetPortcfg_wf, execNetVlan_wf, execNetFdb_wf, execNetTsn_wf, execNetMacsec_wf, execNetSleep_wf,
    execNetWake_wf, execNetGptp_wf, execCanCtrl_wf, execCanMode_wf, execCanObj_wf, execCanAuth_wf, execCanTmaster_wf, execCanLin_wf,
    execCanLinrun_wf]

theorem pktCanTx_wf (desc : Bool) : rowWf (pktCanTx desc) := by
  unfold pktCanTx
  split <;> simp +contextual [execCanTx_wf]

theorem pktWake_wf (op : Nat) : rowWf (pktWake op) := by
  unfold pktWake
  split <;> simp +contextual [execWakeSource_wf, execWakeXcvr_wf, execWakeIndicate_wf, execWakeModule_wf, execWakeInh_wf,
    execBridgeRoute_wf, execBridgeClear_wf, execBridgeWakelist_wf, execKeoreLoad_wf, execKeoreStart_wf, execKeoreStop_wf,
    execKeoreExchange_wf, execKeoreForce_wf, execKeoreUnforce_wf]

theorem pktSched_wf (op : Nat) : rowWf (pktSched op) := by
  unfold pktSched
  split <;> simp +contextual [execSchedWrite_wf, execSchedClear_wf, execSchedArm_wf, execSchedDisarm_wf, execSchedTime_wf,
    execAdmitRequest_wf, execAdmitRelease_wf, execAdmitBudget_wf, execAdmitWindow_wf, execInputSw_wf, execInputAn_wf, execInputPc_wf,
    execInputClear_wf, execIsoCfg_wf, execIsoSet_wf, execIsoClear_wf]

theorem pktTen_wf (op : Nat) : rowWf (pktTen op) := by
  unfold pktTen
  split <;> simp +contextual [execTenAssign_wf, execTenBezel_wf, execTenRingcfg_wf, execTenClasp_wf, execTenPost_wf, execTenTake_wf,
    execTenGate_wf, execKeyWrite_wf, execKeyDerive_wf, execKeyErase_wf, execKeyPermit_wf, execKeyAead_wf, execKeyCmac_wf, execKeySign_wf,
    execKeyVerify_wf, execKeyPubkey_wf, execAttestReport_wf, execAttestExtend_wf, execAttestIdentity_wf]

theorem pktFault_wf (op obj : Nat) : rowWf (pktFault op obj) := by
  unfold pktFault
  split
  case h_6 =>
    dsimp only
    split <;> simp +contextual [execStateRead_wf]
  all_goals
    simp +contextual [execFaultCfg_wf, execFaultRecover_wf, execFaultLogclr_wf, execFaultInject_wf, execFaultRelease_wf,
      execDebugEnable_wf, execDebugTrace_wf]

/-- Every command a packet can spell keeps memory in its canonical form. -/
theorem pktRow_wf (b : List Byte) : rowWf (pktRow b) := by
  unfold pktRow
  dsimp only
  split
  · exact pktSys_wf _
  split
  · exact pktCanTx_wf _
  split
  · exact pktNet_wf _
  split
  · exact pktWake_wf _
  split
  · exact pktSched_wf _
  split
  · exact pktTen_wf _
  · exact pktFault_wf _ _

/-- Taking an entry, of a duplicate CTAG too, leaves memory as it was. -/
@[simp] theorem takeEntry_dup_mem (s : State) (n : Nat) (b : List Byte) (fw : Bool) (i : Nat) (dup : Bool) :
    (s.takeEntry n b fw i dup).mem = s.mem := rfl

section
variable {s : State} (hm : Memory.wf s.mem = true)
include hm

theorem fetchCmd_wf (n i : Nat) (b : List Byte) : Memory.wf (s.fetchCmd n i b).mem = true := by
  unfold State.fetchCmd
  dsimp only
  split
  · simp [hm]
  · next r row =>
    split
    · simp [hm]
    · refine ite_wf (by simp [hm]) (ite_wf (by simp [hm]) (ite_wf (by simp [hm]) (ite_wf (by simp [hm]) (ite_wf (by simp [hm]) ?_))))
      exact State.startCmd_wf _ _ _ _ (pktRow_wf b r row) (by simp [hm])

theorem turn_wf (n : Nat) : Memory.wf (s.turn n).mem = true := by
  unfold State.turn
  dsimp only
  split
  · split
    · next r row => exact State.startCmd_wf _ _ _ _ (pktRow_wf _ r row) hm
    · exact hm
  · refine ite_wf (by rw [State.violate_mem]; exact hm) ?_
    generalize hl : State.load _ _ _ _ = l
    obtain ⟨o, t⟩ := l
    have ht : Memory.wf t.mem = true := by
      rw [show t.mem = s.mem by rw [← congrArg (·.2.mem) hl]; exact State.load_mem _ _ _ _]
      exact hm
    cases o with
    | none => simp [ht]
    | some b =>
      refine fetchCmd_wf (State.writeControl_wf _ _ ?_) n _ b
      rw [State.setRing_mem]
      exact ht

theorem execCommandFetch_wf {ring : Nat} : outWf (execCommandFetch ring s) := unitEvent_wf _ _ (ite_wf (turn_wf hm ring) hm)

theorem execMpCommandStart_wf : outWf (execMpCommandStart s) :=
  (outWf_next _).2 (by
    refine ite_wf hm ?_
    split
    · exact hm
    · split
      · exact hm
      · dsimp only
        split
        · exact hm
        · split
          · next r row => exact Out.orElse_wf _ _ (pktRow_wf _ r row _ _ _ (by simp [hm])) (by simp [hm])
          · simp [hm])

/-- Every command keeps memory in its canonical form: one row per arm of `exec`. -/
theorem exec_wf : ∀ i : Instr, outWf (exec i s)
  | .kNop => execKNop_wf hm
  | .kLdb .. => execKLdb_wf hm
  | .kStb .. => execKStb_wf hm
  | .kSetb .. => execKSetb_wf hm
  | .kRstb .. => execKRstb_wf hm
  | .kAndb .. => execKAndb_wf hm
  | .kOrb .. => execKOrb_wf hm
  | .kXorb .. => execKXorb_wf hm
  | .kAndnb .. => execKAndnb_wf hm
  | .kLd .. => execKLd_wf hm
  | .kSt .. => execKSt_wf hm
  | .kLdx .. => execKLdx_wf hm
  | .kStx .. => execKStx_wf hm
  | .kLea .. => execKLea_wf hm
  | .kAdd .. => execKAdd_wf hm
  | .kSub .. => execKSub_wf hm
  | .kMul .. => execKMul_wf hm
  | .kDiv .. => execKDiv_wf hm
  | .kMod .. => execKMod_wf hm
  | .kMin .. => execKMin_wf hm
  | .kMax .. => execKMax_wf hm
  | .kNeg .. => execKNeg_wf hm
  | .kAbs .. => execKAbs_wf hm
  | .kAnd .. => execKAnd_wf hm
  | .kOr .. => execKOr_wf hm
  | .kXor .. => execKXor_wf hm
  | .kNot .. => execKNot_wf hm
  | .kShl .. => execKShl_wf hm
  | .kShr .. => execKShr_wf hm
  | .kRol .. => execKRol_wf hm
  | .kRor .. => execKRor_wf hm
  | .kCeq .. => execKCeq_wf hm
  | .kCne .. => execKCne_wf hm
  | .kClt .. => execKClt_wf hm
  | .kCle .. => execKCle_wf hm
  | .kCgt .. => execKCgt_wf hm
  | .kCge .. => execKCge_wf hm
  | .kSel .. => execKSel_wf hm
  | .kCvt .. => execKCvt_wf hm
  | .kSqrt .. => execKSqrt_wf hm
  | .kTrunc .. => execKTrunc_wf hm
  | .kMov .. => execKMov_wf hm
  | .kLdi .. => execKLdi_wf hm
  | .kLui .. => execKLui_wf hm
  | .kAddi .. => execKAddi_wf hm
  | .kBfx .. => execKBfx_wf hm
  | .kBfi .. => execKBfi_wf hm
  | .kJmp .. => execKJmp_wf hm
  | .kJt .. => execKJt_wf hm
  | .kJf .. => execKJf_wf hm
  | .kCall .. => execKCall_wf hm
  | .kRet => execKRet_wf hm
  | .kNow .. => execKNow_wf hm
  | .kNowr .. => execKNowr_wf hm
  | .kEnd => execKEnd_wf hm
  | .kTon .. => execKTon_wf hm
  | .kTof .. => execKTof_wf hm
  | .kTp .. => execKTp_wf hm
  | .kRtrig .. => execKRtrig_wf hm
  | .kFtrig .. => execKFtrig_wf hm
  | .kCtu .. => execKCtu_wf hm
  | .kCtd .. => execKCtd_wf hm
  | .kSr .. => execKSr_wf hm
  | .kRs .. => execKRs_wf hm
  | .kRamp .. => execKRamp_wf hm
  | .kPid .. => execKPid_wf hm
  | .kLimit .. => execKLimit_wf hm
  | .sysReset .. => execSysReset_wf hm
  | .sysProfile .. => execSysProfile_wf hm
  | .sysPincfg .. => execSysPincfg_wf hm
  | .sysLifecycle .. => execSysLifecycle_wf hm
  | .sysFuse .. => execSysFuse_wf hm
  | .sysUpdate .. => execSysUpdate_wf hm
  | .sysFbpoll .. => execSysFbpoll_wf hm
  | .sysWdi .. => execSysWdi_wf hm
  | .chanSet .. => execChanSet_wf hm
  | .chanConfig .. => execChanConfig_wf hm
  | .chanClear .. => execChanClear_wf hm
  | .chanBond .. => execChanBond_wf hm
  | .chanUnbond .. => execChanUnbond_wf hm
  | .chanCapture .. => execChanCapture_wf hm
  | .netPortcfg .. => execNetPortcfg_wf hm
  | .netVlan .. => execNetVlan_wf hm
  | .netFdb .. => execNetFdb_wf hm
  | .netTsn .. => execNetTsn_wf hm
  | .netMacsec .. => execNetMacsec_wf hm
  | .netSleep .. => execNetSleep_wf hm
  | .netWake .. => execNetWake_wf hm
  | .netGptp .. => execNetGptp_wf hm
  | .canCtrl .. => execCanCtrl_wf hm
  | .canMode .. => execCanMode_wf hm
  | .canObj .. => execCanObj_wf hm
  | .canTx .. => execCanTx_wf hm
  | .canAuth .. => execCanAuth_wf hm
  | .canTmaster .. => execCanTmaster_wf hm
  | .canLin .. => execCanLin_wf hm
  | .canLinrun .. => execCanLinrun_wf hm
  | .wakeSource .. => execWakeSource_wf hm
  | .wakeXcvr .. => execWakeXcvr_wf hm
  | .wakeIndicate .. => execWakeIndicate_wf hm
  | .wakeModule .. => execWakeModule_wf hm
  | .wakeInh .. => execWakeInh_wf hm
  | .bridgeRoute .. => execBridgeRoute_wf hm
  | .bridgeClear .. => execBridgeClear_wf hm
  | .bridgeWakelist .. => execBridgeWakelist_wf hm
  | .keoreLoad .. => execKeoreLoad_wf hm
  | .keoreStart .. => execKeoreStart_wf hm
  | .keoreStop .. => execKeoreStop_wf hm
  | .keoreExchange .. => execKeoreExchange_wf hm
  | .keoreForce .. => execKeoreForce_wf hm
  | .keoreUnforce .. => execKeoreUnforce_wf hm
  | .schedWrite .. => execSchedWrite_wf hm
  | .schedClear .. => execSchedClear_wf hm
  | .schedArm .. => execSchedArm_wf hm
  | .schedDisarm .. => execSchedDisarm_wf hm
  | .schedTime .. => execSchedTime_wf hm
  | .admitRequest .. => execAdmitRequest_wf hm
  | .admitRelease .. => execAdmitRelease_wf hm
  | .admitBudget .. => execAdmitBudget_wf hm
  | .admitWindow .. => execAdmitWindow_wf hm
  | .inputSw .. => execInputSw_wf hm
  | .inputAn .. => execInputAn_wf hm
  | .inputPc .. => execInputPc_wf hm
  | .inputClear .. => execInputClear_wf hm
  | .isoCfg .. => execIsoCfg_wf hm
  | .isoSet .. => execIsoSet_wf hm
  | .isoClear .. => execIsoClear_wf hm
  | .tenAssign .. => execTenAssign_wf hm
  | .tenBezel .. => execTenBezel_wf hm
  | .tenRingcfg .. => execTenRingcfg_wf hm
  | .tenClasp .. => execTenClasp_wf hm
  | .tenPost .. => execTenPost_wf hm
  | .tenTake .. => execTenTake_wf hm
  | .tenGate .. => execTenGate_wf hm
  | .keyWrite .. => execKeyWrite_wf hm
  | .keyDerive .. => execKeyDerive_wf hm
  | .keyErase .. => execKeyErase_wf hm
  | .keyPermit .. => execKeyPermit_wf hm
  | .keyAead .. => execKeyAead_wf hm
  | .keyCmac .. => execKeyCmac_wf hm
  | .keySign .. => execKeySign_wf hm
  | .keyVerify .. => execKeyVerify_wf hm
  | .keyPubkey .. => execKeyPubkey_wf hm
  | .attestReport .. => execAttestReport_wf hm
  | .attestExtend .. => execAttestExtend_wf hm
  | .attestIdentity .. => execAttestIdentity_wf hm
  | .faultCfg .. => execFaultCfg_wf hm
  | .faultRecover .. => execFaultRecover_wf hm
  | .faultLogclr .. => execFaultLogclr_wf hm
  | .faultInject .. => execFaultInject_wf hm
  | .faultRelease .. => execFaultRelease_wf hm
  | .stateRead .. => execStateRead_wf hm
  | .debugEnable .. => execDebugEnable_wf hm
  | .debugTrace .. => execDebugTrace_wf hm
  | .captureTrigger .. => execCaptureTrigger_wf hm
  | .gateCutApply .. => execGateCutApply_wf hm
  | .debugPortAccess .. => execDebugPortAccess_wf hm
  | .cmdDb .. => execCmdDb_wf hm
  | .cplDb .. => execCplDb_wf hm
  | .ringAttach .. => execRingAttach_wf _ _ _ _ _ _ hm
  | .ringDetach .. => execRingDetach_wf _ _ _ _ hm
  | .commandFetch .. => execCommandFetch_wf hm
  | .completionPublish .. => execCompletionPublish_wf hm
  | .directCmdOff .. => execDirectCmdOff_wf hm
  | .directCmdOn .. => execDirectCmdOn_wf hm
  | .directCmdPwm .. => execDirectCmdPwm_wf hm
  | .eventCfgWrite .. => execEventCfgWrite_wf hm
  | .eventPendClear .. => execEventPendClear_wf hm
  | .eventSwtrig .. => execEventSwtrig_wf hm
  | .registerWriteOther .. => execRegisterWriteOther_wf hm
  | .dtLoRead .. => execDtLoRead_wf hm
  | .mtagWrite .. => execMtagWrite_wf hm
  | .memoryAccess .. => execMemoryAccess_wf hm
  | .railsValid .. => execRailsValid_wf hm
  | .bootBcrApply .. => execBootBcrApply_wf hm
  | .bootLateStages .. => execBootLateStages_wf hm
  | .mpFault .. => execMpFault_wf hm
  | .rtPairFault .. => execRtPairFault_wf hm
  | .cdieOvertemp .. => execCdieOvertemp_wf hm
  | .safeNChange .. => execSafeNChange_wf hm
  | .syncReception .. => execSyncReception_wf hm
  | .pcEdge .. => execPcEdge_wf hm
  | .pcZEdge .. => execPcZEdge_wf hm
  | .schedDispatch .. => execSchedDispatch_wf hm
  | .schedActionApply .. => execSchedActionApply_wf hm
  | .admitGrantEnd .. => execAdmitGrantEnd_wf hm
  | .admitDeadline .. => execAdmitDeadline_wf hm
  | .admitHold .. => execAdmitHold_wf hm
  | .turnOnEnd .. => execTurnOnEnd_wf hm
  | .slewDeadline .. => execSlewDeadline_wf hm
  | .turnOffEnd .. => execTurnOffEnd_wf hm
  | .pwmPeriodStart .. => execPwmPeriodStart_wf hm
  | .pwmOffEdge .. => execPwmOffEdge_wf hm
  | .protectOc .. => execProtectOc_wf hm
  | .protectSc .. => execProtectSc_wf hm
  | .protectOt .. => execProtectOt_wf hm
  | .protectDt .. => execProtectDt_wf hm
  | .retryRestart .. => execRetryRestart_wf hm
  | .retryCounterReset .. => execRetryCounterReset_wf hm
  | .currentSample .. => execCurrentSample_wf hm
  | .openLoadOn .. => execOpenLoadOn_wf hm
  | .offStateTest .. => execOffStateTest_wf hm
  | .buntingImbalance .. => execBuntingImbalance_wf hm
  | .groupUndervoltage .. => execGroupUndervoltage_wf hm
  | .groupUvRecover .. => execGroupUvRecover_wf hm
  | .groupOvervoltage .. => execGroupOvervoltage_wf hm
  | .reversePolarity .. => execReversePolarity_wf hm
  | .dieTempHigh .. => execDieTempHigh_wf hm
  | .cDieAbsent .. => execCDieAbsent_wf hm
  | .cDiePresent .. => execCDiePresent_wf hm
  | .orphanHoldEnd .. => execOrphanHoldEnd_wf hm
  | .frameIngress .. => execFrameIngress_wf hm
  | .cellWrite .. => execCellWrite_wf hm
  | .cellRead .. => execCellRead_wf hm
  | .rsqGap .. => execRsqGap_wf hm
  | .transmitStart .. => execTransmitStart_wf hm
  | .transmitEnd .. => execTransmitEnd_wf hm
  | .gateEntryChange .. => execGateEntryChange_wf hm
  | .gateListSwitch .. => execGateListSwitch_wf hm
  | .fdbAgeout .. => execFdbAgeout_wf hm
  | .cbRecoveryReset .. => execCbRecoveryReset_wf hm
  | .linkTrainingDone .. => execLinkTrainingDone_wf hm
  | .linkTrainingTimeout .. => execLinkTrainingTimeout_wf hm
  | .linkRetryTimer .. => execLinkRetryTimer_wf hm
  | .linkLoss .. => execLinkLoss_wf hm
  | .mdioPoll .. => execMdioPoll_wf hm
  | .usxgmiiInbandWord .. => execUsxgmiiInbandWord_wf hm
  | .tc10SleepRequestRx .. => execTc10SleepRequestRx_wf hm
  | .tc10SleepAckRx .. => execTc10SleepAckRx_wf hm
  | .tc10SleepAbort .. => execTc10SleepAbort_wf hm
  | .tc10WakeupRx .. => execTc10WakeupRx_wf hm
  | .canFrameReceive .. => execCanFrameReceive_wf hm
  | .canTxStart .. => execCanTxStart_wf hm
  | .canTxDone .. => execCanTxDone_wf hm
  | .canTxError .. => execCanTxError_wf hm
  | .canBusIntegration .. => execCanBusIntegration_wf hm
  | .canModeFrameEnd .. => execCanModeFrameEnd_wf hm
  | .canBusoffRecoveryStart .. => execCanBusoffRecoveryStart_wf hm
  | .canBusoffRecoveryEnd .. => execCanBusoffRecoveryEnd_wf hm
  | .canRefmsgTimeout .. => execCanRefmsgTimeout_wf hm
  | .freshnessSave .. => execFreshnessSave_wf hm
  | .d2dError .. => execD2dError_wf hm
  | .linSlotStart .. => execLinSlotStart_wf hm
  | .linResponseRx .. => execLinResponseRx_wf hm
  | .linNoResponse .. => execLinNoResponse_wf hm
  | .wakeDetect .. => execWakeDetect_wf hm
  | .segmentSleepEntry .. => execSegmentSleepEntry_wf hm
  | .pennantReadyRx .. => execPennantReadyRx_wf hm
  | .pennantReadyTimeout .. => execPennantReadyTimeout_wf hm
  | .pennantCommitPoint .. => execPennantCommitPoint_wf hm
  | .pennantRetry .. => execPennantRetry_wf hm
  | .wakeIndicateDeadline .. => execWakeIndicateDeadline_wf hm
  | .sleepWettingPulse .. => execSleepWettingPulse_wf hm
  | .bridgeLinAgeExpiry .. => execBridgeLinAgeExpiry_wf hm
  | .sp19AvtpduReceive .. => execSp19AvtpduReceive_wf hm
  | .keoreTaskRelease .. => execKeoreTaskRelease_wf hm
  | .retainPassEnd .. => execRetainPassEnd_wf hm
  | .inputLevelAccept .. => execInputLevelAccept_wf hm
  | .inputStuckDetect .. => execInputStuckDetect_wf hm
  | .chatterWindowEnd .. => execChatterWindowEnd_wf hm
  | .inputUnset .. => execInputUnset_wf hm
  | .adcConversion .. => execAdcConversion_wf hm
  | .isoBlankingEnd .. => execIsoBlankingEnd_wf hm
  | .isoMismatchDetect .. => execIsoMismatchDetect_wf hm
  | .isoOverload .. => execIsoOverload_wf hm
  | .vfieldOk .. => execVfieldOk_wf hm
  | .vfieldLoss .. => execVfieldLoss_wf hm
  | .fbPoll .. => execFbPoll_wf hm
  | .fbPostedWrite .. => execFbPostedWrite_wf hm
  | .fbDataBurst .. => execFbDataBurst_wf hm
  | .eventPulse .. => execEventPulse_wf hm
  | .longRunningOperationEnd .. => execLongRunningOperationEnd_wf hm
  | .canReceiveError .. => execCanReceiveError_wf hm
  | .currentLimiting .. => execCurrentLimiting_wf hm
  | .dieTempNormal .. => execDieTempNormal_wf hm
  | .bestMasterClockDecision .. => execBestMasterClockDecision_wf hm
  | .preemptionVerification .. => execPreemptionVerification_wf hm
  | .netWakeDeadline .. => execNetWakeDeadline_wf hm
  | .machineModeEntry .. => execMachineModeEntry_wf hm
  | .machineModeReturn .. => execMachineModeReturn_wf hm
  | .traceSyncPacket .. => execTraceSyncPacket_wf hm
  | .profileTransitionEnd => execProfileTransitionEnd_wf hm
  | .keoreStartComplete => execKeoreStartComplete_wf hm
  | .exchangePrepared => execExchangePrepared_wf hm
  | .exchangeCommit => execExchangeCommit_wf hm
  | .exchangeSwapEnd => execExchangeSwapEnd_wf hm
  | .exchangeTimeout => execExchangeTimeout_wf hm
  | .bezelFillDone => execBezelFillDone_wf hm
  | .mpCommandStart => execMpCommandStart_wf hm
  | .vbatRise => execVbatRise_wf hm
  | .powerOnReset => execPowerOnReset_wf hm
  | .porstNAssert => execPorstNAssert_wf hm
  | .resetNExternal => execResetNExternal_wf hm
  | .faultResetDemand => execFaultResetDemand_wf hm
  | .bootStart => execBootStart_wf hm
  | .bootFusesRead => execBootFusesRead_wf hm
  | .bootPatchApply => execBootPatchApply_wf hm
  | .bootKeorePrepare => execBootKeorePrepare_wf hm
  | .bootFirstRelease => execBootFirstRelease_wf hm
  | .clkLoss => execClkLoss_wf hm
  | .wdiToggle => execWdiToggle_wf hm
  | .wdiTimeout => execWdiTimeout_wf hm
  | .syncTimeout => execSyncTimeout_wf hm
  | .holdoverTimeout => execHoldoverTimeout_wf hm
  | .admitRefill => execAdmitRefill_wf hm
  | .admitWindowOpen => execAdmitWindowOpen_wf hm
  | .safeLineDemand => execSafeLineDemand_wf hm
  | .leakAudit => execLeakAudit_wf hm
  | .fabricInitStart => execFabricInitStart_wf hm
  | .fabricInitDiscard => execFabricInitDiscard_wf hm
  | .fabricInitRebuild => execFabricInitRebuild_wf hm
  | .fabricInitEnd => execFabricInitEnd_wf hm
  | .sleepTimer => execSleepTimer_wf hm
  | .moduleSleepLatchCheck => execModuleSleepLatchCheck_wf hm
  | .moduleSleepPowerOff => execModuleSleepPowerOff_wf hm
  | .bridgeLookup => execBridgeLookup_wf hm
  | .retainPassStart => execRetainPassStart_wf hm
  | .isoLinkSilent => execIsoLinkSilent_wf hm
  | .isoOrphanTimeout => execIsoOrphanTimeout_wf hm
  | .tenancyTableSave => execTenancyTableSave_wf hm
  | .faultReactionStart => execFaultReactionStart_wf hm
  | .faultLogMirror => execFaultLogMirror_wf hm
  | .barrierLinkReturn => execBarrierLinkReturn_wf hm
  | .gptpSyncTransmit .. => execGptpSyncTransmit_wf hm

end

/-- Settles O45: an idle cycle leaves memory alone, a command keeps its canonical form by its row in `exec_wf`. -/
theorem everyStepKeepsMemoryCanonical : Obligations.EveryStepKeepsMemoryCanonical := by
  unfold Obligations.EveryStepKeepsMemoryCanonical
  intro s t hs ht
  unfold step at ht
  split at ht
  · cases ht
    simpa [State.sound] using hs
  · next c rest _ => exact exec_wf (s := { s with pending := rest }) hs c t ht

/-- Settles O44: nothing is listed in memory after reset. -/
theorem resetIsSound : Obligations.ResetIsSound := by
  unfold Obligations.ResetIsSound State.sound
  rw [reset_mem]
  rfl

end Sys2Proof.Machine
end

section
/-! SUPPORT. SECDED (01 R563): the words that hold an error through a read and a write. -/
namespace Sys2Proof.Machine
open Sys2Proof

/-! ### The errors that stand -/

@[simp] theorem ite_ecc (c : Prop) [Decidable c] (a b : State) : (if c then a else b).ecc = if c then a.ecc else b.ecc :=
  apply_ite State.ecc c a b

@[simp] theorem State.pulse_ecc (s : State) (n : Nat) : (s.pulse n).ecc = s.ecc := by simp [State.pulse]

@[simp] theorem State.noteRaise_ecc (s : State) (src : Nat) : (s.noteRaise src).ecc = s.ecc := rfl
@[simp] theorem State.demandSafe_ecc (s : State) (src : Nat) : (s.demandSafe src).ecc = s.ecc := rfl
@[simp] theorem State.waitReaction_ecc (s : State) (p : Nat × Nat) : (s.waitReaction p).ecc = s.ecc := rfl

@[simp] theorem State.logOvf_ecc (s : State) : s.logOvf.ecc = s.ecc := by simp [State.logOvf]

/-- A raise touches no error of memory. -/
@[simp] theorem State.raise_ecc (s : State) (src info : Nat) (inj : Bool) : (s.raise src info inj).ecc = s.ecc := by
  unfold State.raise
  split <;> simp

theorem mem_del {α : Type} (t : Tab α) (k : Nat) (p : Nat × α) : p ∈ del t k ↔ p ∈ t ∧ p.1 ≠ k := by simp [del]

/-- A scrub of the words `l` clears the errors of those that are correctable. -/
theorem mem_scrub_ecc (l : List (Nat × Nat)) (s : State) (p : Nat × Nat) :
    p ∈ (s.scrub l).ecc ↔ p ∈ s.ecc ∧ ¬ ∃ q, q ∈ l ∧ q.2 = 1 ∧ q.1 = p.1 := by
  induction l generalizing s with
  | nil => simp [State.scrub]
  | cons c r ih =>
    obtain ⟨w, k⟩ := c
    by_cases hk : k = 1
    · simp only [State.scrub, hk, if_true, ih, State.raise_ecc, mem_del, List.mem_cons, or_and_right, exists_or, exists_eq_left]
      grind
    · simp [State.scrub, hk, ih]

/-! ### The bytes put back -/

/-- Memory `m` with the words `l` as `old` holds them. -/
def putBack (old : List Host.Cell) (l : List (Nat × Nat)) (m : List Host.Cell) : List Host.Cell :=
  l.foldl (fun m p => memPutAll m (p.1 * 8) (memRead old (p.1 * 8) 8)) m

/-- Outside the words put back memory reads as before. -/
theorem memGet_putBack_out (old : List Host.Cell) (l : List (Nat × Nat)) (m : List Host.Cell) (x : Nat)
    (hx : ∀ q, q ∈ l → x < q.1 * 8 ∨ q.1 * 8 + 8 ≤ x) : memGet (putBack old l m) x = memGet m x := by
  induction l generalizing m with
  | nil => rfl
  | cons c r ih =>
    have out : memGet (memPutAll m (c.1 * 8) (memRead old (c.1 * 8) 8)) x = memGet m x :=
      memGet_memPutAll_out _ _ _ _ (by simpa [memRead] using hx c List.mem_cons_self)
    exact (ih _ fun q hq => hx q (List.mem_cons_of_mem _ hq)).trans out

/-- In a word put back, or where it already read so, memory reads as `old`. -/
theorem memGet_putBack_in (old : List Host.Cell) (l : List (Nat × Nat)) (m : List Host.Cell) (x : Nat) (hm : Memory.wf m = true)
    (hx : (∃ q, q ∈ l ∧ q.1 * 8 ≤ x ∧ x < q.1 * 8 + 8) ∨ memGet m x = memGet old x) : memGet (putBack old l m) x = memGet old x := by
  induction l generalizing m with
  | nil => simpa [putBack] using hx
  | cons c r ih =>
    refine ih _ (memPutAll_wf _ _ _ hm) ?_
    by_cases hc : c.1 * 8 ≤ x ∧ x < c.1 * 8 + 8
    · right
      have here := memGet_memPutAll_in (memRead old (c.1 * 8) 8) m (c.1 * 8) (x - c.1 * 8) hm (by simp [memRead]; omega)
      rw [show c.1 * 8 + (x - c.1 * 8) = x by omega] at here
      simpa [memRead, show c.1 * 8 + (x - c.1 * 8) = x by omega] using here
    · rw [memGet_memPutAll_out _ _ _ _ (by simp [memRead]; omega)]
      simpa [hc] using hx

/-! ### Reads and writes -/

/-- A read that meets only correctable errors returns the bytes and clears those errors. -/
theorem load_correctable (s : State) (a n : Nat) (hc : ∀ p, p ∈ s.badWords a n → p.2 = 1) :
    s.load a n = (some (memRead s.mem a n), s.scrub (s.badWords a n)) := by
  have none_bad : (s.badWords a n).find? (fun p => p.2 != 1) = none := by simpa [List.find?_eq_none] using hc
  simp [State.load, none_bad]

/-- A read that meets an uncorrectable word returns nothing, raises the error and clears only the correctable ones. -/
theorem load_uncorrectable (s : State) (a n : Nat) (p : Nat × Nat) (hp : p ∈ s.badWords a n) (hk : p.2 ≠ 1) :
    ∃ w, s.load a n = (none, (s.scrub (s.badWords a n)).raise 0x09 w) := by
  cases hf : (s.badWords a n).find? (fun p => p.2 != 1) with
  | none => exact absurd (by simpa using List.find?_eq_none.mp hf p hp) hk
  | some q => exact ⟨q.1 * 8 % 2 ^ 32, by simp [State.load, hf]⟩

/-- The uncorrectable words that a write covers in part (01 R563). -/
def State.stuck (s : State) (a n : Nat) : List (Nat × Nat) :=
  ((s.badWords a n).filter fun p => !wholeWord a n p.1).filter fun p => p.2 != 1

theorem mem_stuck (s : State) (a n : Nat) (p : Nat × Nat) :
    p ∈ s.stuck a n ↔ p ∈ s.badWords a n ∧ wholeWord a n p.1 = false ∧ p.2 ≠ 1 := by
  simp only [State.stuck, List.mem_filter, Bool.not_eq_true', bne_iff_ne, and_assoc]

/-- The machine after a write but for the fault it raises: the errors of whole words cleared, the correctable ones of the others scrubbed, the
bytes stored, the stuck words put back. -/
def State.stored (s : State) (a : Nat) (bs : List Byte) : State :=
  let bad := s.badWords a bs.length
  let whole := bad.filter fun p => wholeWord a bs.length p.1
  let t : State := { s with ecc := s.ecc.filter fun p => !(whole.any fun q => q.1 == p.1) }
  let u := t.scrub (bad.filter fun p => !wholeWord a bs.length p.1)
  { u with mem := putBack u.mem (s.stuck a bs.length) (memPutAll u.mem a bs) }

theorem store_eq (s : State) (a : Nat) (bs : List Byte) : s.store a bs = match s.stuck a bs.length with
    | [] => (true, s.stored a bs)
    | (w, _) :: _ => (false, (s.stored a bs).raise 0x09 ((w * 8) % 2 ^ 32)) := rfl

theorem stored_mem (s : State) (a : Nat) (bs : List Byte) :
    (s.stored a bs).mem = putBack s.mem (s.stuck a bs.length) (memPutAll s.mem a bs) := by
  simp [State.stored]

/-- The errors after a write: those of the words it covers, and the correctable ones it meets, are gone. -/
theorem mem_stored_ecc (s : State) (a : Nat) (bs : List Byte) (p : Nat × Nat) :
    p ∈ (s.stored a bs).ecc ↔
      p ∈ s.ecc ∧ ¬ ∃ q, q ∈ s.badWords a bs.length ∧ (wholeWord a bs.length q.1 = true ∨ q.2 = 1) ∧ q.1 = p.1 := by
  simp only [State.stored, mem_scrub_ecc, List.mem_filter, Bool.not_eq_true', List.any_eq_false, beq_iff_eq]
  grind

/-- Settles O56: the errors by `mem_scrub_ecc` and `mem_stored_ecc`, the bytes of a word that stays by `memGet_putBack_in`. -/
theorem secdedReadsAndWrites : Obligations.SecdedReadsAndWrites := by
  unfold Obligations.SecdedReadsAndWrites
  intro s a n bs bad hit
  refine ⟨fun hc => ?_, fun p hp hk => ?_, fun hw => ?_, fun p hp hpart hk one hm => ?_⟩
  · refine ⟨_, load_correctable s a n hc, State.scrub_mem _ _, fun p => ?_⟩
    rw [mem_scrub_ecc]
    grind
  · obtain ⟨w, hl⟩ := load_uncorrectable s a n p hp hk
    refine ⟨_, hl, by simp, fun q => ?_⟩
    rw [State.raise_ecc, mem_scrub_ecc]
  · have none_stuck : s.stuck a bs.length = [] := by
      refine List.eq_nil_iff_forall_not_mem.mpr fun p hp => ?_
      obtain ⟨hb, hpart, hk⟩ := (mem_stuck s a bs.length p).mp hp
      cases hw p hb with
      | inl whole => simp [whole] at hpart
      | inr one => exact hk one
    refine ⟨s.stored a bs, by rw [store_eq, none_stuck], by rw [stored_mem, none_stuck]; rfl, fun p => ?_⟩
    rw [mem_stored_ecc]
    grind
  · have stuck_p : p ∈ s.stuck a bs.length := (mem_stuck _ _ _ _).mpr ⟨hp, hpart, hk⟩
    obtain ⟨w, hs⟩ : ∃ w, s.store a bs = (false, (s.stored a bs).raise 0x09 w) := by
      cases hl : s.stuck a bs.length with
      | nil => simp [hl] at stuck_p
      | cons c r => exact ⟨c.1 * 8 % 2 ^ 32, by rw [store_eq, hl]⟩
    refine ⟨_, hs, ?_, fun x h1 h2 => ?_, fun x hx => ?_⟩
    · rw [State.raise_ecc, mem_stored_ecc]
      refine ⟨(List.mem_filter.mp hp).1, fun ⟨q, hq, cleared, same⟩ => ?_⟩
      rw [one q hq same] at cleared
      simp [hpart, hk] at cleared
    · simp only [State.byte, State.raise_mem, stored_mem]
      exact memGet_putBack_in _ _ _ _ (memPutAll_wf _ _ _ hm) (.inl ⟨p, stuck_p, h1, h2⟩)
    · simp only [State.byte, State.raise_mem, stored_mem]
      refine memGet_putBack_out _ _ _ _ fun q hq => ?_
      obtain ⟨hb, -, hqk⟩ := (mem_stuck _ _ _ _).mp hq
      exact hx q hb hqk

end Sys2Proof.Machine
end

section
/-! SUPPORT. The direct channel command register (01 R18, R19; 08 R209): a write that has to wait for its fabric cycle keeps the DUTY it carries. -/
namespace Sys2Proof.Machine
open Sys2Proof

/-- A module that serves, at cycle 0, with channel 0 having taken a command in this very cycle: the next one for it waits (01 R18). -/
def channelTaken : State :=
  ({ State.reset with sys := { State.reset.sys with pwr := .valid, boot := 8 } } : State).setChan 0 { cmdAt := some 0 }

/-- The DUTY fields of the channel commands that wait for their fabric cycle. -/
def waitingDuties : Out → List Nat
  | .next t => t.lch.wait.map fun w => w.duty
  | _ => []

/-- Refutes O51: ACT ON with DUTY 1, written to LCH[0].CMD while channel 0 has taken its command of the cycle. The register write waits with
DUTY 1, the row DIRECT_CMD_ON, which has no DUTY operand, with DUTY 0, so the
two machines differ. -/
theorem not_onlyThreeKindsOfRegisterAreWritable : ¬ Obligations.OnlyThreeKindsOfRegisterAreWritable := by
  unfold Obligations.OnlyThreeKindsOfRegisterAreWritable
  intro h
  obtain ⟨-, -, -, -, -, -, direct, -⟩ := h channelTaken 0x20 0 0x4001 (by decide)
  have same := congrArg waitingDuties (direct 0 (by decide) (by decide) (by decide))
  have written : waitingDuties (exec (.registerWriteOther 0x20 0 (0x41000000 + 256 * 0) 0x4001) channelTaken) = [1] := by decide +kernel
  have row : waitingDuties (exec (.directCmdOn 0x20 0 0 (0x4001 / 2 ^ 16) (0x4001 / 2 ^ 10 % 16)) channelTaken) = [0] := by decide +kernel
  rw [written, row] at same
  exact absurd same (by decide)

end Sys2Proof.Machine
end

section
/-! SUPPORT. Accesses and debug (01 R31; 18 R450 to R454, R466 to R471; 05 R132): each row under the conditions that `readySystem` gathers for it. -/
namespace Sys2Proof.Machine
open Sys2Proof

/-- An event that names a unit the part has. -/
theorem unitEvent_next {ok : Bool} (e : State) (h : ok = true) : unitEvent ok e = .next e := by simp [unitEvent, h]

/-- A firmware command whose checks all pass while the MP serves. -/
theorem fwGuarded_pass {s : State} {h : Hdr} {l : List Chk} (e : State) (hm : s.mpUp = true) (hl : firstBad l = none) :
    fwCmd h s (s.guarded h l e) = .next e := by
  rw [fwCmd_up h _ hm, guarded_pass e hl]

theorem memoryAccess_ready {s : State} {ini kind addr n tag : Nat} {data : List Byte} {more : Bool}
    (hr : readySystem [] (.memoryAccess ini kind addr n data more) s = true) (ht : s.iniTag ini = some tag) :
    exec (.memoryAccess ini kind addr n data more) s =
      let p := s.access ini tag kind addr n data
      .next (if isDma ini then { p.2 with ten := { p.2.ten with dma := put p.2.ten.dma (ini - 0x30) { en := p.1 && more, err := !p.1 } } }
             else p.2) := by
  simp only [readySystem, Bool.and_eq_true, bne_iff_ne] at hr
  obtain ⟨⟨-, runs⟩, some_bytes⟩ := hr
  simp [exec_memoryAccess, execMemoryAccess, ht, runs, some_bytes]

theorem registerWriteOther_ready {s : State} {ini tag addr value : Nat} (hr : readySystem [] (.registerWriteOther ini tag addr value) s = true) :
    exec (.registerWriteOther ini tag addr value) s = .next (s.regWrite ini tag (addr / 4 * 4) (value % 2 ^ 32)) := by
  simp only [readySystem] at hr
  simp only [exec_registerWriteOther, execRegisterWriteOther, hr, if_true]

theorem mtagWrite_ready {s : State} {core value : Nat} (hr : readySystem [] (.mtagWrite core value) s = true) :
    exec (.mtagWrite core value) s = .next { s with ten := { s.ten with mtag := put s.ten.mtag core (value % 16) } } := by
  simp only [readySystem, Bool.and_eq_true] at hr
  obtain ⟨⟨core_ok, runs⟩, high⟩ := hr
  simp only [exec_mtagWrite, execMtagWrite, unitEvent_next _ core_ok, runs, high, Bool.and_true, if_true]

theorem machineModeEntry_ready {s : State} {core : Nat} (hr : readySystem [] (.machineModeEntry core) s = true) :
    exec (.machineModeEntry core) s =
      .next (({ s with ten := { s.ten with low := s.ten.low.filter (· != core) } } : State).traceGaps s) := by
  simp only [readySystem, Bool.and_eq_true] at hr
  obtain ⟨core_ok, runs⟩ := hr
  simp only [exec_machineModeEntry, execMachineModeEntry, unitEvent_next _ core_ok, runs, if_true]

theorem machineModeReturn_ready {s : State} {core : Nat} (hr : readySystem [] (.machineModeReturn core) s = true) :
    exec (.machineModeReturn core) s =
      .next (({ s with ten := { s.ten with low := s.ten.low ++ [core],
                                           mtagNow := put s.ten.mtagNow core (look (fun _ => 0) s.ten.mtag core) } } : State).traceGaps s) := by
  simp only [readySystem, Bool.and_eq_true] at hr
  obtain ⟨⟨core_ok, runs⟩, high⟩ := hr
  simp only [exec_machineModeReturn, execMachineModeReturn, unitEvent_next _ core_ok, runs, high, Bool.and_true, if_true]

theorem debugEnable_ready {s : State} {h : Hdr} {tag en : Nat} (hr : readySystem [] (.debugEnable h tag en) s = true) :
    exec (.debugEnable h tag en) s =
      let inv := bit en 1
      let d := { s.dbg with ni := maskSet s.dbg.ni tag (bit en 0 || inv), inv := maskSet s.dbg.inv tag inv }
      let d1 := if inv then d else { d with halted := d.halted.filter (fun u => s.dbgUnitTag u != some tag), brk := d.brk.filter fun b => b.1 != tag }
      let s1 := ({ s with dbg := d1 } : State).traceGaps s
      .next (if d.ni = s.dbg.ni ∧ d.inv = s.dbg.inv then s.ok h
             else ((s1.extend 0 (toLE 4 s1.dbgen ++ toLE 8 s1.now ++ zeros 52)).recapture).ok h) := by
  simp only [readySystem, Bool.and_eq_true, beq_iff_eq, decide_eq_true_eq, Bool.or_eq_true, Bool.not_eq_true'] at hr
  obtain ⟨⟨⟨⟨⟨up, epoch⟩, ring⟩, en_le, tag_le⟩, ni_ok⟩, inv_ok⟩ := hr
  have off : ((bit en 0 || bit en 1) && !(dbgAllowed s.sys.lcCur tag).1) = false := by
    cases ni_ok with
    | inl none => simp [none, bit]
    | inr allowed => simp [allowed]
  have inv_off : (bit en 1 && !(dbgAllowed s.sys.lcCur tag).2) = false := by
    cases inv_ok with
    | inl none => simp [none]
    | inr allowed => simp [allowed]
  rw [exec_debugEnable, execDebugEnable, fwGuarded_pass _ up]
  simp [firstBad, noEpoch, t0, den, bp, bst, epoch, ring, off, inv_off, Nat.not_lt.mpr en_le, Nat.not_lt.mpr tag_le]

theorem debugTrace_ready {s : State} {h : Hdr} {src enable i : Nat} (hr : readySystem [] (.debugTrace h src enable) s = true)
    (hi : traceIndex src = some i) : exec (.debugTrace h src enable) s =
      .next (({ s with dbg := { s.dbg with trace := maskSet s.dbg.trace i (enable == 1), gap := del s.dbg.gap i } } : State).ok h) := by
  simp only [readySystem, Bool.and_eq_true, beq_iff_eq, decide_eq_true_eq] at hr
  obtain ⟨⟨⟨⟨⟨up, epoch⟩, ring⟩, -⟩, enable_le⟩, traced⟩ := hr
  rw [exec_debugTrace, execDebugTrace, fwGuarded_pass _ up]
  · simp [hi]
  · simp [firstBad, noEpoch, t0, den, bp, bst, epoch, ring, traced, hi, Nat.not_lt.mpr enable_le]

theorem traceSyncPacket_ready {s : State} {i : Nat} (hr : readySystem [] (.traceSyncPacket i) s = true) :
    exec (.traceSyncPacket i) s = .next { s with dbg := { s.dbg with out := BitVec.ofNat 8 (0x10 + i) :: toLE 8 s.now, syncAt := s.cyc } } := by
  simp only [readySystem, Bool.and_eq_true] at hr
  obtain ⟨⟨⟨source_ok, live⟩, on⟩, traced⟩ := hr
  simp only [exec_traceSyncPacket, execTraceSyncPacket, unitEvent_next _ source_ok, live, on, traced, Bool.and_true, if_true]

theorem debugPortAccess_ready {s : State} {tag op unit addr n : Nat} {data : List Byte} {on : Bool}
    (hr : readySystem [] (.debugPortAccess tag op unit addr n data on) s = true) :
    exec (.debugPortAccess tag op unit addr n data on) s =
      .next (if op = 6 then s.busOk (toLE 4 idcode)
             else if op = 5 then { s with dbg := { s.dbg with extest := on } }
             else if op ≤ 1 then (s.access 0x70 tag op addr n data).2
             else s.dbgUnit op tag unit addr on) := by
  simp only [readySystem, Bool.and_eq_true, Bool.or_eq_true, beq_iff_eq, bne_iff_ne, decide_eq_true_eq] at hr
  obtain ⟨live, (((rfl | ⟨rfl, open_lc⟩) | ⟨⟨rfl, ni⟩, some_bytes⟩) | ⟨⟨rfl, inv⟩, some_bytes⟩) | ⟨⟨⟨two_le, le_four⟩, inv⟩, own⟩⟩ := hr
  · simp [exec_debugPortAccess, execDebugPortAccess, live]
  · simp [exec_debugPortAccess, execDebugPortAccess, live, open_lc]
  · simp [exec_debugPortAccess, execDebugPortAccess, live, ni, some_bytes]
  · simp [exec_debugPortAccess, execDebugPortAccess, live, inv, some_bytes]
  · simp [exec_debugPortAccess, execDebugPortAccess, live, inv, own, show op ≠ 6 by omega, show op ≠ 5 by omega, show op ≠ 0 by omega,
      show ¬op ≤ 1 by omega]

/-- Settles O40, row by row. -/
theorem accessAndDebugComplete : Obligations.AccessAndDebugComplete := by
  unfold Obligations.AccessAndDebugComplete
  intro s h tag
  exact ⟨fun _ _ _ _ _ _ => memoryAccess_ready, fun _ _ _ => registerWriteOther_ready, fun _ _ => mtagWrite_ready, fun _ => machineModeEntry_ready,
    fun _ => machineModeReturn_ready, fun _ => debugEnable_ready, fun _ _ _ => debugTrace_ready, fun _ => traceSyncPacket_ready,
    fun _ _ _ _ _ _ => debugPortAccess_ready⟩

end Sys2Proof.Machine
end

section
/-! SUPPORT. Load channel commands (01 R18; 05 R119; 08 R185 to R209; 09 R224): a command that takes its fabric cycle and one that waits, the checks
of a channel's owner, and the members of a Bunting as CHAN.BOND sets them. -/
namespace Sys2Proof.Machine
open Sys2Proof

/-! ### The fabric cycle of a command (01 R18) -/

/-- A command that takes its fabric cycle is applied in it: no protective condition is met, so nothing is shut down first. -/
theorem chArrive_takes {s : State} {ch rank a duty dl : Nat} {act : Act} {o : Origin} (ho : o.rank = rank) (ht : s.takes ch rank a = true) :
    s.chArrive ch act duty o dl = (s.taken ch).chCommand ch act duty o dl ((s.taken ch).chNow ch) := by
  simp only [State.takes, Bool.and_eq_true, Option.isNone_iff_eq_none] at ht
  obtain ⟨⟨⟨⟨turn, quiet⟩, -⟩, -⟩, -⟩ := ht
  have unshut : s.protect ch = s := by simp [State.protect, quiet]
  simp [State.chArrive, ho, turn, State.chApply, unshut, State.taken]

/-- A command that does not take its fabric cycle waits for one, behind those of its order. -/
theorem chArrive_waits {s : State} {ch duty dl : Nat} {act : Act} {o : Origin} (ht : s.chTurn (s.lead ch) o.rank = false) :
    s.chArrive ch act duty o dl =
      { s with lch := { s.lch with wait := waitIns { rank := o.rank, ch := ch, act := act, duty := duty, o := o, dl := dl } s.lch.wait } } := by
  simp [State.chArrive, ht]

/-! ### Checks -/

theorem asksChan_iff (s : State) (h : Hdr) (ch : Nat) :
    s.asksChan h ch = true ↔ ch < 40 ∧ s.owner 3 ch = h.ring ∧ h.epoch = s.chEpoch ch ∧ s.reaches (1 + chDie ch) = true := by
  simp [State.asksChan, and_assoc]

theorem chChecks_pass {s : State} {h : Hdr} {ch : Nat} (ha : s.asksChan h ch = true) : firstBad (s.chChecks h ch) = none := by
  obtain ⟨index, owner, epoch, -⟩ := (asksChan_iff s h ch).mp ha
  simp [State.chChecks, firstBad, bp, den, role, owner, epoch, Nat.not_le.mpr index]

/-- The owner's command for a channel, with nothing else to check before its write to the P-die, has its effect. -/
theorem asksChan_farWrite {s : State} {h : Hdr} {ch addr ini : Nat} (e : State) (ha : s.asksChan h ch = true) :
    s.farWrite h (1 + chDie ch) addr ini e = e :=
  farWrite_reaches e ((asksChan_iff s h ch).mp ha).2.2.2

/-! ### CHAN.SET and the direct commands -/

/-- CHAN.SET past its checks: the command arrives at its channel. -/
theorem chanSet_arrives {s : State} {h : Hdr} {ch act duty dl : Nat} (hl : s.live = true) (ha : s.asksChan h ch = true) (hact : act ≤ 2)
    (hduty : act = 2 → duty ≤ 1023) (hdl : dl ≤ 10000000) :
    exec (.chanSet h ch act duty dl) s = .next (s.chArrive ch (actOf act) duty (.halyard h) dl).settle := by
  have pass : firstBad (s.chChecks h ch ++
      [bp (decide (2 < act)) 0x12, bp (decide (act = 2 ∧ 1023 < duty)) 0x12, bp (decide (10000000 < dl)) 0x12]) = none := by
    have duty_ok : ¬ (act = 2 ∧ 1023 < duty) := fun ⟨pwm, long⟩ => absurd (hduty pwm) (Nat.not_le.mpr long)
    rw [firstBad_append, chChecks_pass ha]
    simp [firstBad, bp, duty_ok, Nat.not_lt.mpr hact, Nat.not_lt.mpr hdl]
  rw [exec_chanSet, execChanSet, hwCmd_live _ hl, guarded_pass _ pass, asksChan_farWrite _ ha]

theorem chanSet_ready {s : State} {h : Hdr} {ch act duty dl : Nat} (hr : readyChan [] (.chanSet h ch act duty dl) s = true) :
    exec (.chanSet h ch act duty dl) s =
      .next (((s.taken ch).chCommand ch (actOf act) duty (.halyard h) dl ((s.taken ch).chNow ch)).settle) := by
  simp only [readyChan, Bool.and_eq_true, Bool.or_eq_true, bne_iff_ne, decide_eq_true_eq] at hr
  obtain ⟨⟨⟨⟨⟨live, asks⟩, act_ok⟩, duty_ok⟩, dl_ok⟩, takes⟩ := hr
  have duty_le : act = 2 → duty ≤ 1023 := fun pwm => duty_ok.resolve_left fun other => other pwm
  rw [chanSet_arrives live asks act_ok duty_le dl_ok, chArrive_takes (o := .halyard h) rfl takes]

theorem chanSet_waits {s : State} {h : Hdr} {ch act duty dl : Nat} (hl : s.live = true) (ha : s.asksChan h ch = true) (hact : act ≤ 2)
    (hduty : act = 2 → duty ≤ 1023) (hdl : dl ≤ 10000000) (ht : s.chTurn (s.lead ch) 4 = false) :
    exec (.chanSet h ch act duty dl) s =
      let w : ChWait := { rank := 4, ch := ch, act := actOf act, duty := duty, o := .halyard h, dl := dl }
      .next (({ s with lch := { s.lch with wait := waitIns w s.lch.wait } } : State).settle) := by
  rw [chanSet_arrives hl ha hact hduty hdl, chArrive_waits ht]
  rfl

/-- A write of LCH[ch].CMD that reaches its channel in its own cycle is applied there. -/
theorem directWrite_takes {s : State} {ini tag ch epoch reserved act duty : Nat} (hw : s.writesCmd ini tag ch epoch reserved = true)
    (hact : act ≠ 3) (ht : s.takes ch 3 act = true) :
    s.directWrite ini tag ch epoch act reserved duty 0 =
      ((s.taken ch).chCommand ch (actOf act) duty (.direct ch) 0 ((s.taken ch).chNow ch)).settle := by
  simp only [State.writesCmd, State.reaches, Bool.and_eq_true, decide_eq_true_eq, beq_iff_eq, Bool.not_eq_true'] at hw
  obtain ⟨⟨⟨⟨⟨⟨index, -⟩, -⟩, ⟨up, here⟩, answers⟩, owner⟩, epoch_ok⟩, no_reserved⟩ := hw
  have die : chDie ch ≤ 1 := by simp only [chDie]; omega
  have present : s.dieAbsent ch = false := by
    simpa [State.dieGone, State.dieAbsent, show 1 + chDie ch ≠ 3 by omega, show 1 + chDie ch ≤ 2 by omega] using here
  rw [← chArrive_takes (o := .direct ch) rfl ht]
  simp [State.directWrite, up, answers, present, State.directCommand, hact, owner, epoch_ok, no_reserved]

/-- The row of a direct command: the write of LCH[ch].CMD by a running initiator. -/
theorem directRow_takes {s : State} {ini tag ch epoch reserved act duty : Nat} (hw : s.writesCmd ini tag ch epoch reserved = true)
    (hact : act ≠ 3) (ht : s.takes ch 3 act = true) :
    unitEvent (decide (ch < 40)) (if s.live && s.presents ini tag then s.directWrite ini tag ch epoch act reserved duty 0 else s) =
      .next (((s.taken ch).chCommand ch (actOf act) duty (.direct ch) 0 ((s.taken ch).chNow ch)).settle) := by
  have effect := directWrite_takes (duty := duty) hw hact ht
  simp only [State.writesCmd, Bool.and_eq_true] at hw
  obtain ⟨⟨⟨⟨⟨⟨index, live⟩, presents⟩, -⟩, -⟩, -⟩, -⟩ := hw
  rw [unitEvent_next _ index, live, presents, effect]
  rfl

section
variable {s : State} {ini tag ch epoch reserved : Nat}

theorem directCmdOff_ready (hr : readyChan [] (.directCmdOff ini tag ch epoch reserved) s = true) :
    exec (.directCmdOff ini tag ch epoch reserved) s =
      .next (((s.taken ch).chCommand ch .off 0 (.direct ch) 0 ((s.taken ch).chNow ch)).settle) := by
  simp only [readyChan, Bool.and_eq_true] at hr
  exact directRow_takes hr.1 (by decide) hr.2

theorem directCmdOn_ready (hr : readyChan [] (.directCmdOn ini tag ch epoch reserved) s = true) :
    exec (.directCmdOn ini tag ch epoch reserved) s =
      .next (((s.taken ch).chCommand ch .on 0 (.direct ch) 0 ((s.taken ch).chNow ch)).settle) := by
  simp only [readyChan, Bool.and_eq_true] at hr
  exact directRow_takes hr.1 (by decide) hr.2

theorem directCmdPwm_ready {duty : Nat} (hr : readyChan [] (.directCmdPwm ini tag ch epoch reserved duty) s = true) :
    exec (.directCmdPwm ini tag ch epoch reserved duty) s =
      .next (((s.taken ch).chCommand ch .pwm (duty % 1024) (.direct ch) 0 ((s.taken ch).chNow ch)).settle) := by
  simp only [readyChan, Bool.and_eq_true] at hr
  exact directRow_takes hr.1 (by decide) hr.2

end

/-! ### CHAN.CONFIG, CHAN.CLEAR, CHAN.UNBOND and captures -/

theorem chanConfig_ready {s s1 : State} {h : Hdr} {ch addr len : Nat} {r : List Byte} (hd : s.descIn h addr len = some (r, s1))
    (hm : s.mpUp = true) (ha : s.asksChan h ch = true) (hr : readyChan r (.chanConfig h addr len ch) s1 = true) :
    exec (.chanConfig h addr len ch) s = .next (((s1.modCh ch fun c => { c with cfg := r }).syncCh ch).ok h) := by
  simp only [readyChan, Bool.and_eq_true, Bool.or_eq_true, Bool.not_eq_true', beq_iff_eq, decide_eq_true_eq] at hr
  obtain ⟨⟨⟨⟨⟨⟨⟨-, asks⟩, len_ok⟩, no_reserved⟩, range⟩, mix⟩, prio⟩, off⟩ := hr
  have record : firstBad [bp (chanRecordReserved r) 0x01, bp (chanRecordRange ch r) 0x12, bp (chanRecordMix ch r) 0x13,
      den (prioOf r && decide (1 < h.ring)) 0x02] = none := by
    cases prio with
    | inl none => simp [firstBad, bp, den, no_reserved, range, mix, none]
    | inr low => simp [firstBad, bp, den, no_reserved, range, mix, Nat.not_lt.mpr low]
  have state : firstBad [bst (decide ((s1.chan (s1.lead ch)).st ≠ .off) && chanOffOnly r (s1.chan (s1.lead ch)).cfg) 0x11] = none := by
    cases off with
    | inl off => simp [firstBad, bst, off]
    | inr fit => simp [firstBad, bst, fit]
  rw [exec_chanConfig, execChanConfig, fwCmd_up h _ hm, withDesc_in _ hd (chChecks_pass ha) (by simp [len_ok])]
  simp only [guarded_pass _ record, asksChan_farWrite _ asks, guarded_pass _ state]

/-- CHAN.CLEAR past its checks: the counter and the cause are cleared, a latched channel leaves its latch. -/
theorem chanClear_ready {s : State} {h : Hdr} {ch : Nat} (hr : readyChan [] (.chanClear h ch) s = true) :
    exec (.chanClear h ch) s =
      let m := s.lead ch
      let s1 := s.modCh m fun x => { x with retry := 0, cause := 0, trip := if x.st = .retryWait then x.trip else false }
      let s2 := s1.goCh m .off fun x => { x.output false with act := .off, gridOk := false, offAt := s1.cyc }
      let s3 := if (s.chan m).st = .latched then ((s2.standing m).foldl (fun s b => s.holdCh m b) s2).uvMove m else s1
      .next ((s3.syncCh m).ok h) := by
  simp only [readyChan, Bool.and_eq_true, Bool.not_eq_true'] at hr
  obtain ⟨⟨⟨up, asks⟩, cool⟩, free⟩ := hr
  have state : firstBad [flc (decide ((s.chan (s.lead ch)).st = .safeHold ∨ (s.chan (s.lead ch)).st = .orphanHold)) 0x01,
      bst (!(s.members ch).all fun k => s.cool k) 0x12] = none := by
    have unheld : ¬ ((s.chan (s.lead ch)).st = .safeHold ∨ (s.chan (s.lead ch)).st = .orphanHold) := by simpa [Chan.inHold] using free
    simp only [firstBad, flc, bst, unheld, cool, decide_false, Bool.not_true, Bool.false_eq_true, if_false]
  rw [exec_chanClear, execChanClear, fwGuarded_pass _ up (chChecks_pass asks), asksChan_farWrite _ asks]
  dsimp only
  rw [guarded_pass _ state]

theorem chanUnbond_ready {s : State} {h : Hdr} {ch : Nat} (hr : readyChan [] (.chanUnbond h ch) s = true) :
    exec (.chanUnbond h ch) s =
      let t := (s.condition 0x39 (s.lead ch) false).unbond (s.lead ch)
      .next (t.ok h (t.bunt (s.lead ch)).epoch) := by
  simp only [readyChan, Bool.and_eq_true, beq_iff_eq] at hr
  obtain ⟨⟨⟨up, asks⟩, bonded⟩, off⟩ := hr
  obtain ⟨index, owner, epoch, -⟩ := (asksChan_iff s h ch).mp asks
  have pass : firstBad [bp (decide (40 ≤ ch)) 0x11, den (decide (s.owner 3 ch ≠ h.ring)) 0x01, bst (!s.bonded ch) 0x14, role h (s.chEpoch ch)]
      = none := by simp [firstBad, bp, den, bst, role, owner, epoch, bonded, Nat.not_le.mpr index]
  have state : firstBad [bst (decide ((s.chan (s.lead ch)).st ≠ .off)) 0x11] = none := by simp [firstBad, bst, off]
  rw [exec_chanUnbond, execChanUnbond, fwGuarded_pass _ up pass, asksChan_farWrite _ asks]
  dsimp only
  rw [guarded_pass _ state]

theorem chanCapture_ready {s : State} {h : Hdr} {out outLen ch kind count : Nat}
    (hr : readyChan [] (.chanCapture h out outLen ch kind count) s = true) :
    exec (.chanCapture h out outLen ch kind count) s =
      .next ((s.setChan ch { s.chan ch with cap := some { tag := h.ring, ctag := h.ctag, irq := h.irq, addr := out, kind := kind,
                                                          count := count } }).accepted h 0x01) := by
  simp only [readyChan, Bool.and_eq_true, decide_eq_true_eq, Option.isNone_iff_eq_none] at hr
  obtain ⟨⟨⟨⟨⟨up, asks⟩, kind_ok⟩, count_ok⟩, room⟩, free⟩ := hr
  have pass : firstBad (s.chChecks h ch ++
      [bp (decide (1 < kind)) 0x12,
       bp (decide (kind = 0 ∧ (count = 0 ∨ 4096 < count)) || decide (kind = 1 ∧ (count < 16 ∨ 2048 < count))) 0x12,
       bp (!s.outOK h.ring out outLen (16 + 4 * count)) 0x10]) = none := by
    have counted : ¬ (kind = 0 ∧ (count = 0 ∨ 4096 < count)) ∧ ¬ (kind = 1 ∧ (count < 16 ∨ 2048 < count)) := by
      split at count_ok <;> simp only [decide_eq_true_eq] at count_ok <;> omega
    rw [firstBad_append, chChecks_pass asks]
    simp [firstBad, bp, room, Nat.not_lt.mpr kind_ok, counted.1, counted.2]
  rw [exec_chanCapture, execChanCapture, fwGuarded_pass _ up pass, asksChan_farWrite _ asks]
  simp only [free]

theorem captureTrigger_ready {s : State} {ch t : Nat} {k : Capture} {shut : Bool} (hr : readyChan [] (.captureTrigger ch) s = true)
    (hk : (s.chan ch).cap = some k) (ht : k.trig = some (t, shut)) :
    exec (.captureTrigger ch) s =
      .next (s.setChan ch { s.chan ch with cap := some { k with started := true, shut := shut, start := t - 63000 } }) := by
  simp only [readyChan, hk, Bool.and_eq_true, Bool.not_eq_true', decide_eq_true_eq] at hr
  obtain ⟨index, waits, -⟩ := hr
  simp [exec_captureTrigger, execCaptureTrigger, unitEvent, index, hk, ht, waits]

/-! ### CHAN.BOND -/

/-- A completion changes the transport alone. -/
theorem replyAt_hal (s : State) (h : Hdr) (st : Status) (d r t : Nat) (f : Bool) :
    s.replyAt h st d r t f = { s with hal := (s.replyAt h st d r t f).hal } := by
  simp only [State.replyAt, State.release, State.drained]
  (repeat' split) <;> rfl

theorem ok_lch (s : State) (h : Hdr) (r : Nat) : (s.ok h r).lch = s.lch := by rw [State.ok, State.reply, replyAt_hal]
theorem ok_adm (s : State) (h : Hdr) (r : Nat) : (s.ok h r).adm = s.adm := by rw [State.ok, State.reply, replyAt_hal]

/-- Member `m` taken into the Bunting at `a` with the record `rd`, the retry state of `ct` and the trip of any of them (08 R199, R202). -/
def State.bondMember (a : Nat) (rd : List Byte) (ct : Chan) (trip : Bool) (s : State) (m : Nat) : State :=
  let c := s.chan m
  s.setChan m { c with cfg := rd, bunt := a, retry := ct.retry, cause := ct.cause, trip := trip, act := (s.chan a).act,
                       duty := (s.chan a).duty, epoch := (c.epoch + 1) % 65536, offAt := s.cyc }

section
variable (a : Nat) (rd : List Byte) (ct : Chan) (trip : Bool)

/-- Taking members in changes channels alone. -/
theorem bondMembers_frame (l : List Nat) (s : State) :
    let t := l.foldl (State.bondMember a rd ct trip) s
    t.lch.bunt = s.lch.bunt ∧ t.mem = s.mem ∧ t.adm = s.adm ∧ t.lch.grp = s.lch.grp := by
  induction l generalizing s with
  | nil => exact ⟨rfl, rfl, rfl, rfl⟩
  | cons m r ih => exact ih (s.bondMember a rd ct trip m)

theorem bondMembers_other (l : List Nat) (s : State) {n : Nat} (hn : n ∉ l) :
    (l.foldl (State.bondMember a rd ct trip) s).chan n = s.chan n := by
  induction l generalizing s with
  | nil => rfl
  | cons m r ih =>
    simp only [List.mem_cons, not_or] at hn
    exact (ih _ hn.2).trans (State.setChan_chan_ne s _ hn.1)

theorem bondMembers_member (l : List Nat) (s : State) (hl : l.Nodup) {n : Nat} (hn : n ∈ l) :
    let c := (l.foldl (State.bondMember a rd ct trip) s).chan n
    c.bunt = a ∧ c.epoch = ((s.chan n).epoch + 1) % 65536 ∧ c.cfg = rd ∧ c.st = (s.chan n).st := by
  induction l generalizing s with
  | nil => simp at hn
  | cons m r ih =>
    obtain ⟨fresh, rest⟩ := List.nodup_cons.mp hl
    by_cases hnm : n = m
    · subst hnm
      simp only [List.foldl_cons, bondMembers_other _ _ _ _ _ _ fresh]
      simp [State.bondMember]
    · have step : (s.bondMember a rd ct trip m).chan n = s.chan n := State.setChan_chan_ne s _ hnm
      simpa only [List.foldl_cons, step] using ih (s.bondMember a rd ct trip m) rest ((List.mem_cons.mp hn).resolve_left hnm)

end

/-- A record with the fine range off (08 R202). -/
def unfine (rd : List Byte) : List Byte := setBytes rd 1 [BitVec.ofNat 8 (byteAt rd 1 - (if fineOf rd then 2 else 0))]

theorem fineOf_unfine (rd : List Byte) : fineOf (unfine rd) = false := by
  have low : byteAt rd 1 < 256 := (rd[1]?.getD 0).isLt
  have second : byteAt (unfine rd) 1 = byteAt rd 1 - (if fineOf rd then 2 else 0) := by
    cases rd with
    | nil => simp [unfine, setBytes, byteAt, fineOf, bit]
    | cons b r => simp [unfine, setBytes, byteAt] at low ⊢; omega
  simp only [fineOf, second, bit, Nat.testBit_eq_decide_div_mod_eq]
  split
  · simp_all
    omega
  · simp_all

theorem foldl_min_mem (l : List Nat) (b : Nat) : l.foldl Nat.min b ∈ b :: l := by
  induction l generalizing b with
  | nil => exact List.mem_cons_self
  | cons c r ih =>
    rcases Nat.le_total b c with hbc | hcb
    · rw [List.foldl_cons, show b.min c = b from Nat.min_eq_left hbc]
      exact List.mem_cons.mpr ((List.mem_cons.mp (ih b)).imp_right (List.mem_cons_of_mem _))
    · rw [List.foldl_cons, show b.min c = c from Nat.min_eq_right hcb]
      exact List.mem_cons_of_mem _ (ih c)

/-- The members that CHAN.BOND takes are a run of channels that begins with the lowest. -/
theorem bondSet_run {l : List Nat} (hl : bondSet l = true) : l.Nodup ∧ l.foldl Nat.min (l.headD 0) ∈ l := by
  cases l with
  | nil => simp [bondSet] at hl
  | cons a r =>
    simp only [bondSet, Bool.and_eq_true, beq_iff_eq] at hl
    obtain ⟨⟨⟨run, -⟩, -⟩, -⟩ := hl
    refine ⟨?_, ?_⟩
    · rw [run]
      exact List.pairwise_map.mpr (List.Pairwise.imp (fun ne eq => ne (Nat.add_right_cancel eq)) List.nodup_range)
    · simpa using foldl_min_mem (a :: r) a

/-- The checks of CHAN.BOND on members `l` that lie in range, belong to the sender and carry the epochs named. -/
theorem bondChecks_pass {s : State} {h : Hdr} {l : List Nat} {a count : Nat} {bad : Option (Nat × Nat)}
    (each : ∀ m, m ∈ l → m < 40 ∧ s.owner 3 m = h.ring) (epoch : h.epoch = (s.bunt a).epoch) (epochs_ok : bad = none)
    (count_ok : count = 2 ∨ count = 4) (set : bondSet l = true) :
    firstBad [bp (l.any fun m => decide (40 ≤ m)) 0x11, den (l.any fun m => s.owner 3 m != h.ring) 0x01,
      (decide (h.epoch ≠ (s.bunt a).epoch), .roleChanged, 0, (s.bunt a).epoch + 0xFF * 65536),
      (bad.isSome, .roleChanged, 0, (bad.getD (0, 0)).2 + 65536 * (bad.getD (0, 0)).1),
      bp (decide (count ≠ 2 ∧ count ≠ 4)) 0x12, bp (!bondSet l) 0x14] = none := by
  have index : (l.any fun m => decide (40 ≤ m)) = false := by simpa using fun m hm => (each m hm).1
  have owner : (l.any fun m => s.owner 3 m != h.ring) = false := by simpa using fun m hm => (each m hm).2
  have counted : ¬ (count ≠ 2 ∧ count ≠ 4) := by omega
  simp only [firstBad, bp, den, index, owner, epoch, epochs_ok, set, counted, ne_eq, not_true_eq_false, decide_false, Option.isSome_none,
    Bool.not_true, Bool.false_eq_true, if_false]

/-- CHAN.BOND past its checks: the members are taken in, the position counts them and gets a new epoch. -/
theorem chanBond_ready {s : State} {h : Hdr} {count : Nat} {members epochs : List Nat}
    (hr : readyChan [] (.chanBond h count members epochs) s = true) :
    let l := members.take count
    let a := l.foldl Nat.min (l.headD 0)
    let p := s.bunt a
    let u := l.foldl (State.bondMember a (unfine (s.chan a).cfg) (s.chan (s.topRetry l)) (l.any fun m => (s.chan m).trip)) s
    bondSet l = true ∧ (∀ m, m ∈ l → (s.chan m).st = .off) ∧ exec (.chanBond h count members epochs) s =
      .next (((u.setBunt a { p with epoch := (p.epoch + 1) % 65536, count := count, imbal := false }).syncCh a).ok h ((p.epoch + 1) % 65536)) := by
  simp only [readyChan, Bool.and_eq_true, Bool.or_eq_true, List.all_eq_true, beq_iff_eq, Bool.not_eq_true', decide_eq_true_eq,
    Option.isNone_iff_eq_none] at hr
  obtain ⟨⟨⟨⟨⟨⟨up, each⟩, epoch⟩, epochs_ok⟩, count_ok⟩, set⟩, reaches⟩ := hr
  have state : firstBad [bst ((members.take count).any fun m => decide ((s.chan m).st ≠ .off)) 0x11,
      bst ((members.take count).any fun m => s.bonded m) 0x13] = none := by
    have off : ((members.take count).any fun m => decide ((s.chan m).st ≠ .off)) = false := by simpa using fun m hm => (each m hm).1.2
    have single : ((members.take count).any fun m => s.bonded m) = false := by simpa using fun m hm => (each m hm).2
    simp only [firstBad, bst, off, single, Bool.false_eq_true, if_false]
  refine ⟨set, fun m hm => (each m hm).1.2, ?_⟩
  rw [exec_chanBond, execChanBond]
  dsimp only
  rw [fwGuarded_pass _ up (bondChecks_pass (fun m hm => (each m hm).1.1) epoch epochs_ok count_ok set), farWrite_reaches _ reaches,
    guarded_pass _ state]
  rfl

/-- What CHAN.BOND leaves: its members alike with new epochs, its position counted, every other channel and position as it was. -/
theorem bonded_effect {s : State} (h : Hdr) {l : List Nat} {a count : Nat} (ct : Chan) (trip : Bool) (hn : l.Nodup) (ha : a ∈ l)
    (off : ∀ m, m ∈ l → (s.chan m).st = .off) :
    let p := s.bunt a
    let u := l.foldl (State.bondMember a (unfine (s.chan a).cfg) ct trip) s
    let t := ((u.setBunt a { p with epoch := (p.epoch + 1) % 65536, count := count, imbal := false }).syncCh a).ok h ((p.epoch + 1) % 65536)
    (t.bunt a).epoch = ((s.bunt a).epoch + 1) % 65536 ∧ (t.bunt a).count = count ∧ (t.bunt a).imbal = false ∧
      (∀ m, m ∈ l → (t.chan m).bunt = a ∧ (t.chan m).epoch = ((s.chan m).epoch + 1) % 65536 ∧
        (t.chan m).cfg = (t.chan a).cfg ∧ fineOf (t.chan m).cfg = false ∧ (t.chan m).st = .off) ∧
      (∀ m, m ∉ l → t.chan m = s.chan m) ∧ (∀ n, n ≠ a → t.bunt n = s.bunt n) ∧ t.mem = s.mem ∧ t.adm = s.adm ∧ t.lch.grp = s.lch.grp := by
  intro p u t
  let x : BuntPos := { p with epoch := (p.epoch + 1) % 65536, count := count, imbal := false }
  obtain ⟨bunt_u, mem_u, adm_u, grp_u⟩ := bondMembers_frame a (unfine (s.chan a).cfg) ct trip l s
  have member := fun m hm => bondMembers_member a (unfine (s.chan a).cfg) ct trip l s hn (n := m) hm
  have lch_t : t.lch = (u.setBunt a x).lch := ok_lch ((u.setBunt a x).syncCh a) h _
  have adm_t : t.adm = u.adm := ok_adm ((u.setBunt a x).syncCh a) h _
  have chan_t : ∀ m, t.chan m = u.chan m := fun m => by simp only [State.chan, lch_t]; rfl
  have bunt_a : t.bunt a = x := by rw [State.bunt, lch_t]; exact State.setBunt_bunt u a x
  have bunt_ne : ∀ n, n ≠ a → t.bunt n = s.bunt n := fun n hna => by
    rw [State.bunt, lch_t]
    exact (State.setBunt_bunt_ne u x hna).trans (by rw [State.bunt, bunt_u]; rfl)
  refine ⟨by rw [bunt_a], by rw [bunt_a], by rw [bunt_a], fun m hm => ?_, fun m hm => ?_, bunt_ne, ?_, by rw [adm_t, adm_u], by rw [lch_t]; exact grp_u⟩
  · obtain ⟨in_a, epoch_m, cfg_m, st_m⟩ := member m hm
    obtain ⟨-, -, cfg_a, -⟩ := member a ha
    simp only [chan_t]
    exact ⟨in_a, epoch_m, cfg_m.trans cfg_a.symm, by rw [cfg_m]; exact fineOf_unfine _, st_m.trans (off m hm)⟩
  · rw [chan_t]
    exact bondMembers_other _ _ _ _ _ _ hm
  · simp only [t, State.ok_mem, State.syncCh_mem, State.setBunt_mem]
    exact mem_u

/-- Settles O10, row by row: the members of a Bunting by `bonded_effect`. -/
theorem channelCommandsComplete : Obligations.ChannelCommandsComplete := by
  unfold Obligations.ChannelCommandsComplete
  intro s h ch
  refine ⟨fun _ _ _ => chanSet_ready, fun _ _ _ => chanSet_waits, fun _ _ _ _ => chanConfig_ready, fun hr free => ?_, fun hr latched => ?_,
    fun count members epochs hr => ?_, chanUnbond_ready, fun _ _ _ _ => chanCapture_ready, fun _ _ _ => captureTrigger_ready,
    fun _ _ _ _ => directCmdOff_ready, fun _ _ _ _ => directCmdOn_ready, fun _ _ _ _ _ => directCmdPwm_ready⟩
  · rw [chanClear_ready hr]
    simp only [free, if_false]
  · rw [chanClear_ready hr]
    simp only [latched, if_true]
  · obtain ⟨set, off, run⟩ := chanBond_ready hr
    obtain ⟨nodup, lowest⟩ := bondSet_run set
    exact ⟨_, run, bonded_effect h _ _ nodup lowest off⟩

end Sys2Proof.Machine
end

section
/-! SUPPORT. The life cycle (03 R61, R74): the state the fuse words select, and what the end of an operation or a reset does to them. -/
namespace Sys2Proof.Machine
open Sys2Proof

/-! ### Bits set in a fuse word -/

/-- Further bits set in a word never make it less set. -/
theorem popcount_le_or (w v : Nat) : popcount w ≤ popcount (w ||| v) := by
  simp only [popcount, ← List.countP_eq_length_filter]
  exact List.countP_mono_left fun i _ hi => by rw [Nat.testBit_or, hi, Bool.true_or]

/-- The fuse word of life-cycle state `k` counts as set (03 R74). -/
def State.wordSet (s : State) (k : Nat) : Bool := decide (24 ≤ popcount (look (fun _ => 0) s.sys.lcWord k))

/-! ### The state selected -/

/-- In a falling list the first match is the largest one. -/
theorem le_of_find?_falling {l : List Nat} {p : Nat → Bool} {n k : Nat} (hl : l.Pairwise (· > ·)) (hn : l.find? p = some n) (hk : k ∈ l)
    (pk : p k = true) : k ≤ n := by
  obtain ⟨-, before, after, rfl, none_before⟩ := List.find?_eq_some_iff_append.mp hn
  obtain ⟨-, falls, -⟩ := List.pairwise_append.mp hl
  rcases List.mem_append.mp hk with early | late
  · exact absurd pk (by simpa using none_before k early)
  · rcases List.mem_cons.mp late with rfl | later
    · exact Nat.le_refl _
    · exact Nat.le_of_lt ((List.pairwise_cons.mp falls).1 k later)

theorem lcFused_eq_find (s : State) : s.lcFused = (([5, 4, 3, 2, 1] : List Nat).find? s.wordSet).getD 0 := rfl

theorem mem_lcStates (k : Nat) : k ∈ ([5, 4, 3, 2, 1] : List Nat) ↔ 1 ≤ k ∧ k ≤ 5 := by
  simp only [List.mem_cons, List.not_mem_nil, or_false]
  omega

theorem lcFused_le (s : State) : s.lcFused ≤ 5 := by
  rw [lcFused_eq_find]
  cases hf : ([5, 4, 3, 2, 1] : List Nat).find? s.wordSet with
  | none => exact Nat.zero_le 5
  | some n => exact ((mem_lcStates n).mp (List.mem_of_find?_eq_some hf)).2

theorem le_lcFused {s : State} {k : Nat} (h1 : 1 ≤ k) (h5 : k ≤ 5) (hk : s.wordSet k = true) : k ≤ s.lcFused := by
  have listed := (mem_lcStates k).mpr ⟨h1, h5⟩
  rw [lcFused_eq_find]
  cases hf : ([5, 4, 3, 2, 1] : List Nat).find? s.wordSet with
  | none => exact absurd hk (List.find?_eq_none.mp hf k listed)
  | some n => exact le_of_find?_falling (by decide) hf listed hk

theorem lcFused_blank_or_set (s : State) : s.lcFused = 0 ∨ s.wordSet s.lcFused = true := by
  rw [lcFused_eq_find]
  cases hf : ([5, 4, 3, 2, 1] : List Nat).find? s.wordSet with
  | none => exact .inl rfl
  | some n => exact .inr (List.find?_some hf)

/-- Words that count as set alike select the same state. -/
theorem lcFused_congr {s t : State} (h : ∀ k, s.wordSet k = t.wordSet k) : s.lcFused = t.lcFused := by
  rw [lcFused_eq_find, lcFused_eq_find, funext h]

/-- The state selected is no later than `n` when no word after `n` is set. -/
theorem lcFused_le_of_set_le {s : State} {n : Nat} (h : ∀ k, 1 ≤ k → k ≤ 5 → s.wordSet k = true → k ≤ n) : s.lcFused ≤ n := by
  rcases Nat.eq_zero_or_pos s.lcFused with blank | pos
  · exact blank ▸ Nat.zero_le n
  · exact h _ pos (lcFused_le s) ((lcFused_blank_or_set s).resolve_left (Nat.ne_of_gt pos))

/-- With one more word set the state is that of this word or the one before, whichever is later. -/
theorem lcFused_of_set_one {s t : State} {k : Nat} (h1 : 1 ≤ k) (h5 : k ≤ 5) (set : t.wordSet k = true)
    (same : ∀ j, j ≠ k → t.wordSet j = s.wordSet j) : t.lcFused = Nat.max k s.lcFused := by
  refine Nat.le_antisymm (lcFused_le_of_set_le fun j j1 j5 hj => ?_)
    (Nat.max_le.mpr ⟨le_lcFused h1 h5 set, lcFused_le_of_set_le fun j j1 j5 hj => ?_⟩)
  · by_cases at_k : j = k
    · exact at_k ▸ Nat.le_max_left _ _
    · exact Nat.le_trans (le_lcFused j1 j5 (same j at_k ▸ hj)) (Nat.le_max_right _ _)
  · by_cases at_k : j = k
    · exact at_k ▸ le_lcFused h1 h5 set
    · exact le_lcFused j1 j5 ((same j at_k).trans hj)

/-! ### Words programmed -/

/-- The word of state `k` now holds `w`. -/
def State.setLcWord (s : State) (k w : Nat) : State := { s with sys := { s.sys with lcWord := put s.sys.lcWord k w } }

theorem setLcWord_wordSet (s : State) (k w : Nat) : (s.setLcWord k w).wordSet k = decide (24 ≤ popcount w) := by
  simp [State.wordSet, State.setLcWord]

theorem setLcWord_wordSet_ne (s : State) {k j : Nat} (w : Nat) (h : j ≠ k) : (s.setLcWord k w).wordSet j = s.wordSet j := by
  simp only [State.wordSet, State.setLcWord, look_put_ne _ _ _ h]

theorem finishFuse_lifecycle {s : State} {o : Op} {h : Hdr} {addr len k : Nat} (hr : o.running = true)
    (hc : o.cmd = .sysLifecycle h addr len k) : s.finishFuse o = s.setLcWord k 0xFFFFFFFF := by
  simp [State.finishFuse, hr, hc, State.setLcWord]

/-- An interrupted fuse word either keeps its bits or has more of them, still fewer than 24. -/
theorem cutFuse_cases (s : State) (o : Op) : (s.cutFuse o).sys.lcWord = s.sys.lcWord ∨
    ∃ k v, popcount (look (fun _ => 0) s.sys.lcWord k ||| v) < 24 ∧
      (s.cutFuse o).sys.lcWord = put s.sys.lcWord k (look (fun _ => 0) s.sys.lcWord k ||| v) := by
  unfold State.cutFuse
  split
  · next h addr len k running cmd =>
    dsimp only
    split
    · next few => exact .inr ⟨k, _, few, rfl⟩
    · exact .inl rfl
  · exact .inl rfl

theorem cutFuse_wordSet (s : State) (o : Op) (j : Nat) : (s.cutFuse o).wordSet j = s.wordSet j := by
  rcases cutFuse_cases s o with same | ⟨k, v, few, word⟩
  · simp only [State.wordSet, same]
  · by_cases hj : j = k
    · subst hj
      have before := popcount_le_or (look (fun _ => 0) s.sys.lcWord j) v
      simp only [State.wordSet, word, look_put_same, Nat.not_le.mpr few, Nat.not_le.mpr (Nat.lt_of_le_of_lt before few)]
    · simp only [State.wordSet, word, look_put_ne _ _ _ hj]

/-- Settles O58: the search for the highest set word, and the words that a finished and an interrupted transition leave. -/
theorem lifeCycleIsTheHighestSetWord : Obligations.LifeCycleIsTheHighestSetWord := by
  unfold Obligations.LifeCycleIsTheHighestSetWord
  intro s isSet
  refine ⟨lcFused_le s, fun _ => le_lcFused, lcFused_blank_or_set s, fun o h addr len k running cmd h1 h5 => ?_,
    fun o => lcFused_congr (cutFuse_wordSet s o)⟩
  rw [finishFuse_lifecycle running cmd]
  have full : 24 ≤ popcount 0xFFFFFFFF := by decide
  exact lcFused_of_set_one h1 h5 ((setLcWord_wordSet s k _).trans (decide_eq_true full)) fun j hj => setLcWord_wordSet_ne s _ hj

end Sys2Proof.Machine
end

section
/-! SUPPORT. Resets (03 R57 to R62, R78; 21 R525): what the operations in progress write while a reset finds them, and what is left after it. -/
namespace Sys2Proof.Machine
open Sys2Proof

/-! ### Tables and memory cut down -/

theorem look?_map {α : Type} (f : α → α) (t : Tab α) (k : Nat) : look? (t.map fun p => (p.1, f p.2)) k = (look? t k).map f := by
  induction t with
  | nil => rfl
  | cons p r ih => simp only [List.map_cons, look?, ih]; split <;> rfl

/-- A table with `f` applied to every unit, for an `f` that leaves an unlisted unit's content alone. -/
theorem look_map {α : Type} {d : Nat → α} {f : α → α} (t : Tab α) (k : Nat) (h : f (d k) = d k) :
    look d (t.map fun p => (p.1, f p.2)) k = f (look d t k) := by
  simp only [look, look?_map]
  cases look? t k with
  | none => exact h.symm
  | some v => rfl

theorem memGet_filter (p : Nat → Bool) (m : List Host.Cell) (x : Nat) :
    memGet (m.filter fun (c : Host.Cell) => p c.1) x = if p x then memGet m x else memDefault := by
  induction m with
  | nil => simp [memGet]
  | cons c r ih =>
    by_cases hc : c.1 = x
    · subst hc
      by_cases hp : p c.1 <;> simp [memGet, hp, ih]
    · by_cases hp : p c.1 <;> simp [memGet, hp, hc, ih]

/-! ### What an operation in progress writes -/

/-- What no operation in progress writes while a reset finds it, of what a reset of the C-die keeps. -/
structure State.CutKept (s t : State) : Prop where
  flt : t.flt = s.flt
  wake : t.wake = s.wake
  lch : t.lch = s.lch
  startId : t.sys.startId = s.sys.startId
  pwr : t.sys.pwr = s.sys.pwr
  pending : t.pending = s.pending

theorem State.CutKept.refl (s : State) : s.CutKept s := ⟨rfl, rfl, rfl, rfl, rfl, rfl⟩

theorem State.CutKept.trans {s t u : State} (h : s.CutKept t) (k : t.CutKept u) : s.CutKept u :=
  ⟨k.flt.trans h.flt, k.wake.trans h.wake, k.lch.trans h.lch, k.startId.trans h.startId, k.pwr.trans h.pwr, k.pending.trans h.pending⟩

theorem State.CutKept.foldl {α : Type} {f : State → α → State} (h : ∀ (s : State) a, s.CutKept (f s a)) (l : List α) (s : State) :
    s.CutKept (l.foldl f s) :=
  List.foldlRecOn l f (State.CutKept.refl s) fun t ht a _ => ht.trans (h t a)

/-- A write of whole words meets no word in part, so it raises no fault: only bytes and errors of memory change. -/
theorem store_whole_words (s : State) {a : Nat} {bs : List Byte} (ha : a % 8 = 0) (hn : bs.length % 8 = 0) :
    ∃ e, (s.store a bs).2 = { s with ecc := e, mem := memPutAll s.mem a bs } := by
  have whole : ∀ p, p ∈ s.badWords a bs.length → wholeWord a bs.length p.1 = true := by
    intro p hp
    simp only [State.badWords, List.mem_filter, Bool.and_eq_true, decide_eq_true_eq] at hp
    simp only [wholeWord, Bool.and_eq_true, decide_eq_true_eq]
    omega
  have none_part : (s.badWords a bs.length).filter (fun p => !wholeWord a bs.length p.1) = [] := by simpa using fun _ _ h => whole _ h
  have none_stuck : s.stuck a bs.length = [] := by rw [State.stuck, none_part]; rfl
  rw [store_eq, none_stuck, State.stored, none_part, none_stuck]
  exact ⟨_, rfl⟩

/-- Units of 64 bytes written at a multiple of 64 change bytes and errors of memory alone. -/
theorem cutMem_kept (s t : State) (v : Nat) {a : Nat} (n : Nat) (ha : a % 64 = 0) : s.CutKept (s.cutMem t v a n) := by
  refine State.CutKept.foldl (fun s i => ?_) _ s
  split
  · obtain ⟨e, stored⟩ := store_whole_words s (a := a + 64 * i) (bs := memRead t.mem (a + 64 * i) 64) (by omega) (by simp [memRead])
    rw [stored]
    exact ⟨rfl, rfl, rfl, rfl, rfl, rfl⟩
  · exact .refl s

/-- What an operation writes in eMRAM begins at a unit of 64 bytes. -/
theorem opWrites_aligned {s t : State} {o : Op} {a n : Nat} (h : s.opWrites o = some (a, n, t)) : a % 64 = 0 := by
  have slot_aligned : ∀ i, slotAddr i % 64 = 0 := fun i => by simp only [slotAddr]; omega
  have bank_aligned : ∀ b, bankAddr b % 64 = 0 := fun b => by simp only [bankAddr]; omega
  have copy_aligned : ∀ typ c, copyBase typ c % 64 = 0 := fun typ c => by simp only [copyBase]; split <;> omega
  unfold State.opWrites at h
  split at h <;> simp only [Option.some.injEq, Prod.mk.injEq, reduceCtorEq] at h <;> obtain ⟨rfl, -, -⟩ := h
  · exact slot_aligned _
  · exact slot_aligned _
  · exact slot_aligned _
  · exact bank_aligned _
  · exact copy_aligned _ _
  · rfl

theorem cutOp_kept (s : State) (o : Op) : s.CutKept (s.cutOp o) := by
  unfold State.cutOp
  split
  · exact .refl s
  · split
    · exact .refl s
    · next a n t writes =>
      exact State.CutKept.trans (t := s.draw.2) ⟨rfl, rfl, rfl, rfl, rfl, rfl⟩ (cutMem_kept _ t _ n (opWrites_aligned writes))

theorem finishFuse_kept (s : State) (o : Op) : s.CutKept (s.finishFuse o) := by
  unfold State.finishFuse
  (repeat' split) <;> exact ⟨rfl, rfl, rfl, rfl, rfl, rfl⟩

theorem finishFuse_idle {s : State} {o : Op} (h : o.running = false) : s.finishFuse o = s := by simp [State.finishFuse, h]
theorem cutFuse_idle {s : State} {o : Op} (h : o.running = false) : s.cutFuse o = s := by simp [State.cutFuse, h]
theorem cutOp_idle {s : State} {o : Op} (h : o.running = false) : s.cutOp o = s := by simp [State.cutOp, h]

/-! ### Resets of the C-die -/

/-- The machine as a reset of the C-die finds it, the operations in progress seen to (03 R61). -/
def State.atCdieReset (s : State) : State := s.hal.ops.foldl (fun s o => (s.finishFuse o).cutOp o) s

theorem cdieReset_eq (s : State) (cause : Nat) : s.cdieReset cause =
    { s.atCdieReset.survives with
      sys := { s.atCdieReset.survives.sys with nextCause := s.causeOf cause, nextFull := s.sys.nextFull && decide (s.sys.boot < 2) } } := rfl

theorem atCdieReset_kept (s : State) : s.CutKept s.atCdieReset :=
  .foldl (fun s o => (finishFuse_kept s o).trans (cutOp_kept _ o)) s.hal.ops s

theorem atCdieReset_idle {s : State} (h : ∀ o, o ∈ s.hal.ops → o.running = false) : s.atCdieReset = s :=
  List.foldlRecOn s.hal.ops _ (motive := fun t => t = s) rfl fun t same o ho => by
    rw [same, finishFuse_idle (h o ho), cutOp_idle (h o ho)]

theorem survives_byte (s : State) (a : Nat) : s.survives.byte a = if keptAddr a then s.byte a else memDefault :=
  memGet_filter keptAddr s.mem a

theorem survives_chan (s : State) (n : Nat) : s.survives.chan n = (s.chan n).kept := look_map s.lch.chan n rfl

theorem survives_seg (s : State) (g : Nat) : s.survives.seg g = (s.seg g).kept := look_map s.wake.seg g rfl

/-- Settles O59: the operations in progress write none of what is kept, and `State.survives` keeps it. -/
theorem cdieResetKeepsWhatSurvives : Obligations.CdieResetKeepsWhatSurvives := by
  unfold Obligations.CdieResetKeepsWhatSurvives
  intro s cause t
  obtain ⟨flt, wake, lch, startId, pwr, pending⟩ := atCdieReset_kept s
  have byte : ∀ a, t.byte a = if keptAddr a then s.atCdieReset.byte a else memDefault := survives_byte s.atCdieReset
  have chan : ∀ n, t.chan n = (s.chan n).kept := fun n =>
    (survives_chan s.atCdieReset n).trans (by rw [State.chan, lch, State.chan])
  have seg : ∀ g, t.seg g = (s.seg g).kept := fun g => (survives_seg s.atCdieReset g).trans (by rw [State.seg, wake, State.seg])
  have latch : t.flt.latch = s.atCdieReset.flt.latch := rfl
  have mod : t.wake.modLatch = s.atCdieReset.wake.modLatch := rfl
  have unset : t.clk.dt = 0 := rfl
  have now : t.now = 0 := by simp [State.now, unset]
  refine ⟨fun idle a lo hi => ?_, fun a lo hi => ?_, latch.trans (by rw [flt]), mod.trans (by rw [wake]), fun g => by rw [seg]; rfl, startId,
    now, rfl, rfl, fun n => rfl, pending, fun n => by rw [chan]; exact ⟨rfl, rfl, rfl, rfl⟩, fun valid => ?_⟩
  · rw [byte, atCdieReset_idle idle, if_pos (by simp [keptAddr, lo, hi])]
  · rw [byte, if_neg (by simp [keptAddr]; omega)]
  · exact if_pos (pwr.trans valid)

/-! ### Full resets -/

/-- The machine as a full reset finds it, the operations in progress cut (03 R61). -/
def State.atFullReset (s : State) : State := s.hal.ops.foldl (fun s o => (s.cutFuse o).cutOp o) s

theorem atFullReset_idle {s : State} (h : ∀ o, o ∈ s.hal.ops → o.running = false) : s.atFullReset = s :=
  List.foldlRecOn s.hal.ops _ (motive := fun t => t = s) rfl fun t same o ho => by
    rw [same, cutFuse_idle (h o ho), cutOp_idle (h o ho)]

theorem fullReset_mem (s : State) (cause : Nat) :
    (s.fullReset cause).mem = s.atFullReset.mem.filter fun (c : Host.Cell) => keptAddr c.1 := rfl

/-! ### The rows -/

theorem powerOnReset_ready (s : State) : ∃ t, exec .powerOnReset s = .next t ∧ t.sys.pwr = .off ∧ t.sys.boot = 0 ∧ t.sys.nextFull = true ∧
    t.lch = {} ∧ t.iso = {} ∧ t.wake = {} ∧ t.inp = {} ∧ t.clk.aoCyc = 0 ∧ t.flt.latch = false ∧
    ((s.hal.ops.all fun o => !o.running) = true → t.mem = s.mem.filter fun (c : Host.Cell) => keptAddr c.1) := by
  refine ⟨_, rfl, rfl, rfl, rfl, rfl, rfl, rfl, rfl, rfl, rfl, fun idle => ?_⟩
  have not_running : ∀ o, o ∈ s.hal.ops → o.running = false := by simpa using idle
  exact (fullReset_mem s 1).trans (by rw [atFullReset_idle not_running])

theorem vbatRise_ready {s : State} (hr : readySystem [] .vbatRise s = true) :
    exec .vbatRise s = .next { s with sys := { s.sys with pwr := .starting } } := by
  simp only [readySystem, beq_iff_eq] at hr
  rw [exec_vbatRise, execVbatRise, if_pos hr]

theorem railsValid_ready {s : State} {edges : Nat} (hr : readySystem [] (.railsValid edges) s = true) : exec (.railsValid edges) s =
    .next { s with sys := { s.sys with pwr := .valid, boot := 1, clkSrc := if 64 ≤ edges then .clkin else .xtal }
                   flt := { s.flt with active := s.flt.active.filter (· != (0x02, 0)) } } := by
  simp only [readySystem, beq_iff_eq] at hr
  rw [exec_railsValid, execRailsValid, if_pos hr]

theorem porstNAssert_ready {s : State} (hr : readySystem [] .porstNAssert s = true) : exec .porstNAssert s =
    .next (if s.sys.pwr = .aoOnly then { s.fullReset 2 with sys := { (s.fullReset 2).sys with pwr := .starting, boot := 0 } }
           else s.fullReset 2) := by
  simp only [readySystem, bne_iff_ne] at hr
  rw [exec_porstNAssert, execPorstNAssert, if_neg hr]
  simp only [decide_eq_true_eq]

theorem resetNExternal_ready {s : State} (hr : readySystem [] .resetNExternal s = true) : exec .resetNExternal s = .next (s.cdieReset 3) := by
  simp only [readySystem] at hr
  rw [exec_resetNExternal, execResetNExternal, if_pos hr]

theorem faultResetDemand_ready {s : State} (hr : readySystem [] .faultResetDemand s = true) :
    exec .faultResetDemand s = .next (s.cdieReset 5) := by
  simp only [readySystem, Bool.and_eq_true, Bool.not_eq_true'] at hr
  obtain ⟨⟨live, mirrored⟩, due⟩ := hr
  rw [exec_faultResetDemand, execFaultResetDemand]
  cases ht : s.flt.rst with
  | none => simp [ht] at due
  | some t =>
    simp only [ht, decide_eq_true_eq] at due
    simp [live, mirrored, due]

theorem sysReset_ready {s : State} {h : Hdr} {scope : Nat} (hr : readySystem [] (.sysReset h scope) s = true) : exec (.sysReset h scope) s =
    let u := if scope = 4 then 3 else scope - 1
    let s1 := if scope = 4 then s.resetCluster else s.resetPair u
    .next (if scope = 0 then s.cdieReset 4
           else if (if scope = 4 then s.sys.appHeld else s1.sys.rtHeld.contains u) then
             ({ s1 with sys := { s1.sys with rstWait := s1.sys.rstWait ++ [(u, h)] } } : State).waits h
           else s1.ok h) := by
  simp only [readySystem, Bool.and_eq_true, beq_iff_eq, decide_eq_true_eq] at hr
  obtain ⟨⟨⟨up, epoch⟩, ring⟩, scope_le⟩ := hr
  have pass : firstBad [noEpoch h, t0 h, bp (decide (4 < scope)) 0x12] = none := by
    simp [firstBad, noEpoch, t0, den, bp, epoch, ring, Nat.not_lt.mpr scope_le]
  rw [exec_sysReset, execSysReset, fwGuarded_pass _ up pass]
  by_cases all : scope = 0
  · simp only [all, if_true]
  · by_cases cluster : scope = 4
    · subst cluster
      rfl
    · simp only [all, cluster, if_false, State.resetDone]

/-- Settles O35, row by row. -/
theorem resetsComplete : Obligations.ResetsComplete := by
  unfold Obligations.ResetsComplete
  intro s h
  exact ⟨fun _ => powerOnReset_ready s, vbatRise_ready, fun _ => railsValid_ready, porstNAssert_ready, resetNExternal_ready,
    faultResetDemand_ready, fun _ => sysReset_ready⟩

end Sys2Proof.Machine
end

section
/-! SUPPORT. The boot of the C-die (03 R64 to R74; 16 R407): what the instant t3 leaves of the state, and each instant under its condition. -/
namespace Sys2Proof.Machine
open Sys2Proof

/-! ### What t3 settles before it restores the log -/

/-- The part of the state that BOOT_FUSES_READ fixes first: the boot instant, the life-cycle state, the start count, debug and memory. -/
def State.startView (s : State) : Nat × Nat × Nat × Dbg × List Host.Cell := (s.sys.boot, s.sys.lcCur, s.sys.startId, s.dbg, s.mem)

/-- A change made under a condition keeps that part when the change does. -/
theorem startView_of_ite {c : Prop} [Decidable c] {f : State → State} (s : State) (h : ∀ s, (f s).startView = s.startView) :
    (if c then f s else s).startView = s.startView := by
  split
  · exact h s
  · rfl

theorem foldl_startView {α : Type} {f : State → α → State} (h : ∀ s a, (f s a).startView = s.startView) (l : List α) (s : State) :
    (l.foldl f s).startView = s.startView :=
  List.foldlRecOn l f (motive := fun t => t.startView = s.startView) rfl fun t ht a _ => (h t a).trans ht

theorem pulse_startView (n : Nat) (s : State) : (s.pulse n).startView = s.startView :=
  startView_of_ite (f := fun s => { s with flt := { s.flt with pulses := s.flt.pulses ++ [n] } }) s fun _ => rfl

theorem noteRaise_startView (src : Nat) (s : State) : (s.noteRaise src).startView = s.startView := rfl
theorem demandSafe_startView (src : Nat) (s : State) : (s.demandSafe src).startView = s.startView := rfl
theorem waitReaction_startView (p : Nat × Nat) (s : State) : (s.waitReaction p).startView = s.startView := rfl

theorem logOvf_startView (s : State) : s.logOvf.startView = s.startView := by
  refine (demandSafe_startView 0 _).trans ((noteRaise_startView 0 _).trans ?_)
  dsimp only
  split
  · exact pulse_startView _ _
  · rfl

/-- A real-time pair held by a raise (21 R522). -/
def State.holdPair (k : Nat) (s : State) : State :=
  { s with sys := { s.sys with rtHeld := if s.sys.rtHeld.contains k then s.sys.rtHeld else s.sys.rtHeld ++ [k] } }

/-- A raise changes the fault collector, holds of the real-time pairs and of the fabric, and nothing that t3 has fixed. -/
theorem raise_startView (s : State) (src info : Nat) (inj : Bool) : (s.raise src info inj).startView = s.startView := by
  unfold State.raise
  split
  · rfl
  · split
    · rfl
    · refine (startView_of_ite _ logOvf_startView).trans ?_
      refine (startView_of_ite (f := fun s => s.demandSafe src) _ (demandSafe_startView src)).trans ?_
      refine (startView_of_ite (f := State.holdPair info) _ fun _ => rfl).trans ?_
      refine (startView_of_ite (f := fun s' => s'.pulse (s.srcCfg src).line) _ (pulse_startView _)).trans ?_
      refine (startView_of_ite (f := fun s => s.waitReaction (src, info)) _ (waitReaction_startView (src, info))).trans ?_
      exact noteRaise_startView src _

theorem extend_startView (s : State) (n : Nat) (b : List Byte) : (s.extend n b).startView = s.startView := rfl

theorem restoreLog_startView (s : State) : s.restoreLog.startView = s.startView := by
  unfold State.restoreLog
  dsimp only
  split <;> rfl

theorem orphanReport_startView (d : Nat) (s : State) : (s.orphanReport d).startView = s.startView :=
  startView_of_ite (f := fun s => (s.setPdie d { s.pdie d with orphan := false }).raise 0x38 d) s fun _ => raise_startView _ _ _ _

theorem outputsOff_startView (s : State) : s.outputsOff.startView = s.startView := rfl

/-- BOOT_FUSES_READ as far as the life cycle, the start count and debug go (03 R64, R69 t3, R74; 18 R467). -/
def State.fusesRead (s : State) : State :=
  let lc := s.lcFused
  let on := if lc = 0 then 0xFFFF else 0
  let id := nextStart (le (memRead s.mem 0x22380004 4) 0 4)
  { s with
    sys := { s.sys with boot := 3, lcCur := lc, startId := id }
    dbg := { s.dbg with ni := on, inv := on }
    clk := { s.clk with aoSess := if s.sys.full then (s.clk.aoSess + 1) % 2 ^ 32 else s.clk.aoSess }
    mem := memPutAll s.mem 0x22380004 (toLE 4 id) }

theorem fusesRead_startView (s : State) : s.fusesRead.startView =
    (3, s.lcFused, nextStart (le (memRead s.mem 0x22380004 4) 0 4),
      { s.dbg with ni := if s.lcFused = 0 then 0xFFFF else 0, inv := if s.lcFused = 0 then 0xFFFF else 0 },
      memPutAll s.mem 0x22380004 (toLE 4 (nextStart (le (memRead s.mem 0x22380004 4) 0 4)))) := by
  simp only [State.startView, State.fusesRead]

/-- What t3 does after that in life-cycle state `lc`: it measures the ROM, restores the log, raises the conditions that stand and, in RETIRED,
switches every output off (03 R68, R73; 21 R533, R564). -/
def State.afterFuses (s : State) (lc : Nat) : State :=
  let t := (s.extend 0 (toLE 4 Config.romVersion ++ toLE 4 s.lcstate ++ toLE 4 s.dbgen ++ zeros 52)).restoreLog
  let u := (t.flt.active.foldr (rankIns t.rankOf) []).foldl (fun s p => s.raise p.1 p.2) t
  let v := (u.orphanReport 0).orphanReport 1
  if lc = 5 then v.outputsOff else v

theorem afterFuses_startView (s : State) (lc : Nat) : (s.afterFuses lc).startView = s.startView := by
  refine (startView_of_ite (f := State.outputsOff) _ outputsOff_startView).trans ?_
  refine (orphanReport_startView 1 _).trans ((orphanReport_startView 0 _).trans ?_)
  refine (foldl_startView (f := fun s (p : Nat × Nat) => s.raise p.1 p.2) (fun t p => raise_startView t p.1 p.2 false) _ _).trans ?_
  exact (restoreLog_startView _).trans (extend_startView _ _ _)

theorem bootFusesRead_next {s : State} (h : s.sys.boot = 2) : exec .bootFusesRead s = .next (s.fusesRead.afterFuses s.lcFused) := by
  rw [exec_bootFusesRead, execBootFusesRead, if_pos h]
  rfl

/-! ### The rows -/

theorem bootStart_ready {s : State} (hr : readySystem [] .bootStart s = true) : ∃ t, exec .bootStart s = .next t ∧ t.sys.boot = 2 ∧
    t.sys.cause = s.sys.nextCause ∧ t.sys.full = s.sys.nextFull ∧ t.wake.causeMod = s.wake.modLatch ∧ t.flt.initReq = true ∧
    t.flt.safeReq = s.flt.latch ∧ t.mem = s.mem := by
  simp only [readySystem, Bool.and_eq_true, beq_iff_eq] at hr
  rw [exec_bootStart, execBootStart, if_pos hr]
  exact ⟨_, rfl, rfl, rfl, rfl, rfl, rfl, rfl, rfl⟩

theorem bootFusesRead_ready {s : State} (hr : readySystem [] .bootFusesRead s = true) : ∃ t, exec .bootFusesRead s = .next t ∧
    t.sys.boot = 3 ∧ t.sys.lcCur = s.lcFused ∧ t.sys.startId = nextStart (le (memRead s.mem 0x22380004 4) 0 4) ∧
    t.dbg.inv = (if s.lcFused = 0 then 0xFFFF else 0) ∧ t.dbg.ni = t.dbg.inv ∧
    t.mem = memPutAll s.mem 0x22380004 (toLE 4 t.sys.startId) := by
  simp only [readySystem, beq_iff_eq] at hr
  have view := (afterFuses_startView s.fusesRead s.lcFused).trans (fusesRead_startView s)
  simp only [State.startView, Prod.mk.injEq] at view
  obtain ⟨boot, lc, id, dbg, mem⟩ := view
  exact ⟨_, bootFusesRead_next hr, boot, lc, id, by rw [dbg], by rw [dbg], by rw [mem, id]⟩

/-- Settles O36, row by row: t3 by `bootFusesRead_next`, t4 to t6 by the cases of the stage that passed. -/
theorem bootInstantsComplete : Obligations.BootInstantsComplete := by
  unfold Obligations.BootInstantsComplete
  intro s
  refine ⟨bootStart_ready, bootFusesRead_ready, fun hr => ?_, fun tab items hr => ?_, fun hr => ?_, fun hr => ?_, fun at0 at1 hr => ?_⟩ <;>
    simp only [readySystem, Bool.and_eq_true, beq_iff_eq, bne_iff_ne] at hr
  · rw [exec_bootPatchApply, execBootPatchApply, if_pos hr]
    rcases s.tryCopies 1 with ⟨_ | ⟨k, r⟩, s1⟩ <;> rfl
  · rw [exec_bootBcrApply, execBootBcrApply, if_pos hr]
    lift_lets
    intro s0
    rcases s0.tryCopies 2 with ⟨_ | ⟨k, r⟩, s1⟩ <;> rfl
  · rw [exec_bootKeorePrepare, execBootKeorePrepare, if_pos hr]
    lift_lets
    intro b
    rcases s.tryTwo 3 (bankAddr b) (bankAddr (1 - b)) 0x100000 s.imageOk with ⟨_ | ⟨i, r⟩, s1⟩ <;> rfl
  · rw [exec_bootFirstRelease, execBootFirstRelease, if_pos hr]
  · obtain ⟨step, granted⟩ := hr
    rw [exec_bootLateStages, execBootLateStages, if_neg fun other => other step]
    cases hi : s.handleIdx s.sys.ddrH with
    | none => simp [hi] at granted
    | some i =>
      simp only [hi, beq_iff_eq] at granted
      dsimp only
      rw [if_neg fun other => other granted]

end Sys2Proof.Machine
end

section
/-! SUPPORT. CHAN.SET refused (04 R96; 05 R115, R119; 20 R511, R512): each check of the chain given that the ones before it pass. -/
namespace Sys2Proof.Machine
open Sys2Proof

/-- The field checks of CHAN.SET (05 R119). -/
def chanSetFields (act duty deadline : Nat) : List Chk :=
  [bp (decide (2 < act)) 0x12, bp (decide (act = 2 ∧ 1023 < duty)) 0x12, bp (decide (10000000 < deadline)) 0x12]

/-- Checks that complete a command alike: one that fails decides it, whichever it is. -/
theorem firstBad_alike {l : List Chk} {r : Status × Nat × Nat} (same : ∀ c, c ∈ l → c.2 = r) (bad : ∃ c, c ∈ l ∧ c.1 = true) :
    firstBad l = some r := by
  induction l with
  | nil => simp at bad
  | cons c l ih =>
    obtain ⟨fails, answer⟩ := c
    cases fails with
    | true => rw [firstBad_fail, ← same _ List.mem_cons_self]
    | false =>
      rw [firstBad_pass]
      exact ih (fun c hc => same c (List.mem_cons_of_mem _ hc)) (by simpa using bad)

theorem chanSet_eq {s : State} (h : Hdr) (ch act duty deadline : Nat) (hl : s.live = true) : exec (.chanSet h ch act duty deadline) s =
    .next (s.guarded h (s.chChecks h ch ++ chanSetFields act duty deadline)
      (s.farWrite h (1 + chDie ch) (cmdAddr ch) 0x60 (s.chArrive ch (actOf act) duty (.halyard h) deadline).settle)) := by
  rw [exec_chanSet, execChanSet, hwCmd_live _ hl]
  rfl

section
variable {s : State} {h : Hdr} {ch act duty deadline : Nat}

/-! ### The checks of a unit's owner -/

theorem chChecks_index (hi : 40 ≤ ch) : firstBad (s.chChecks h ch) = some (.badParam, 0x11, 0) := by
  simp [State.chChecks, bp, hi]

theorem chChecks_owner (hi : ch < 40) (ho : s.owner 3 ch ≠ h.ring) : firstBad (s.chChecks h ch) = some (.denied, 0x01, 0) := by
  simp [State.chChecks, bp, den, ho, Nat.not_le.mpr hi]

theorem chChecks_epoch (hi : ch < 40) (ho : s.owner 3 ch = h.ring) (he : h.epoch ≠ s.chEpoch ch) :
    firstBad (s.chChecks h ch) = some (.roleChanged, 0, s.chEpoch ch) := by
  simp [State.chChecks, bp, den, role, ho, he, Nat.not_le.mpr hi]

theorem chChecks_owned (hi : ch < 40) (ho : s.owner 3 ch = h.ring) (he : h.epoch = s.chEpoch ch) : firstBad (s.chChecks h ch) = none := by
  simp [State.chChecks, bp, den, role, ho, he, Nat.not_le.mpr hi]

/-! ### The fields -/

theorem chanSetFields_bad (hf : 2 < act ∨ act = 2 ∧ 1023 < duty ∨ 10000000 < deadline) :
    firstBad (chanSetFields act duty deadline) = some (.badParam, 0x12, 0) := by
  refine firstBad_alike (by simp [chanSetFields, bp]) ?_
  simpa [chanSetFields, bp] using hf

theorem chanSetFields_pass (hact : act ≤ 2) (hduty : act = 2 → duty ≤ 1023) (hdl : deadline ≤ 10000000) :
    firstBad (chanSetFields act duty deadline) = none := by
  have duty_ok : ¬ (act = 2 ∧ 1023 < duty) := fun ⟨pwm, long⟩ => absurd (hduty pwm) (Nat.not_le.mpr long)
  simp [chanSetFields, bp, duty_ok, Nat.not_lt.mpr hact, Nat.not_lt.mpr hdl]

/-! ### The far die -/

/-- A write to a die whose link is DOWN fails. -/
theorem farWrite_down {die addr ini : Nat} (e : State) (hd : s.linkDown die = true) : s.farWrite h die addr ini e = s.fail h .fault 0x04 := by
  simp [State.farWrite, hd]

/-! ### CHAN.SET -/

/-- A check of the channel that fails completes CHAN.SET, whatever its fields hold. -/
theorem chanSet_of_chChecks_fail {st : Status} {d r : Nat} (hl : s.live = true) (hc : firstBad (s.chChecks h ch) = some (st, d, r)) :
    exec (.chanSet h ch act duty deadline) s = .next (s.fail h st d r) := by
  rw [chanSet_eq _ _ _ _ _ hl, guarded_fail _ (by rw [firstBad_append, hc]; rfl)]

theorem chanSet_badField (hl : s.live = true) (hc : firstBad (s.chChecks h ch) = none)
    (hf : 2 < act ∨ act = 2 ∧ 1023 < duty ∨ 10000000 < deadline) :
    exec (.chanSet h ch act duty deadline) s = .next (s.fail h .badParam 0x12) := by
  rw [chanSet_eq _ _ _ _ _ hl, guarded_fail _ (by rw [firstBad_append, hc, chanSetFields_bad hf]; rfl)]

theorem chanSet_linkDown (hl : s.live = true) (hc : firstBad (s.chChecks h ch) = none)
    (hf : firstBad (chanSetFields act duty deadline) = none) (hd : s.linkDown (1 + chDie ch) = true) :
    exec (.chanSet h ch act duty deadline) s = .next (s.fail h .fault 0x04) := by
  rw [chanSet_eq _ _ _ _ _ hl, guarded_pass _ (by rw [firstBad_append, hc, hf]; rfl), farWrite_down _ hd]

end

/-- Settles O60: each clause by the check that fails, the checks before it passed. -/
theorem chanSetChecksInOrder : Obligations.ChanSetChecksInOrder := by
  unfold Obligations.ChanSetChecksInOrder
  intro s h ch act duty deadline hl run
  refine ⟨fun hi => ?_, fun hi ho => ?_, fun hi ho he => ?_, fun hi ho he hf => ?_, fun hi ho he hact hduty hdl hd => ?_⟩
  · exact chanSet_of_chChecks_fail hl (chChecks_index hi)
  · exact chanSet_of_chChecks_fail hl (chChecks_owner hi ho)
  · exact chanSet_of_chChecks_fail hl (chChecks_epoch hi ho he)
  · exact chanSet_badField hl (chChecks_owned hi ho he) hf
  · exact chanSet_linkDown hl (chChecks_owned hi ho he) (chanSetFields_pass hact hduty hdl) hd

end Sys2Proof.Machine
end

section
/-! SUPPORT. Completions (04 R88, R92): the entry's bytes and the completion that a command's answer puts among those due. -/
namespace Sys2Proof.Machine
open Sys2Proof

/-! ### Little-endian fields of a record -/

@[simp] theorem length_toLE (n v : Nat) : (toLE n v).length = n := by
  induction n generalizing v with
  | zero => rfl
  | succ n ih => rw [toLE, List.length_cons, ih]

theorem byteAt_append_right (p q : List Byte) (i : Nat) : byteAt (p ++ q) (p.length + i) = byteAt q i := by
  simp [byteAt, List.getElem?_append_right]

/-- A field behind `p` is read in what follows `p`. -/
theorem le_append_right (p q : List Byte) (o n : Nat) : le (p ++ q) (p.length + o) n = le q o n := by
  induction n generalizing o with
  | zero => rfl
  | succ n ih => rw [le, byteAt_append_right, Nat.add_assoc, ih, le]

/-- A number written as `n` bytes is read back modulo what they hold. -/
theorem le_toLE_append (n v : Nat) (l : List Byte) : le (toLE n v ++ l) 0 n = v % 256 ^ n := by
  induction n generalizing v with
  | zero => simp [le, Nat.mod_one]
  | succ n ih =>
    have low : byteAt (toLE (n + 1) v ++ l) 0 = v % 256 := rfl
    have high : le (toLE (n + 1) v ++ l) 1 n = v / 256 % 256 ^ n := (le_append_right [BitVec.ofNat 8 v] (toLE n (v / 256) ++ l) 0 n).trans (ih _)
    rw [le, low, high, Nat.pow_succ', Nat.mod_mul]

/-! ### The entry -/

theorem Cpl.bytes_eq (c : Cpl) :
    c.bytes = toLE 2 c.ctag ++ (BitVec.ofNat 8 c.status.code :: BitVec.ofNat 8 c.detail :: (toLE 8 c.result ++ toLE 4 c.time)) := by
  simp [Cpl.bytes]

/-- Every status code fits its byte (04 R93). -/
theorem Status.code_lt (st : Status) : st.code < 256 := by
  cases st <;> decide

theorem Cpl.bytes_length (c : Cpl) : c.bytes.length = 16 := by simp [Cpl.bytes]

theorem Cpl.bytes_ctag (c : Cpl) : le c.bytes 0 2 = c.ctag % 2 ^ 16 := by
  rw [Cpl.bytes_eq]
  exact le_toLE_append 2 c.ctag _

theorem Cpl.bytes_status (c : Cpl) : byteAt c.bytes 2 = c.status.code :=
  Nat.mod_eq_of_lt c.status.code_lt

theorem Cpl.bytes_detail (c : Cpl) : byteAt c.bytes 3 = c.detail % 2 ^ 8 := rfl

theorem Cpl.bytes_result (c : Cpl) : le c.bytes 4 8 = c.result % 2 ^ 64 := by
  rw [Cpl.bytes, List.append_assoc]
  exact (le_append_right (toLE 2 c.ctag ++ [BitVec.ofNat 8 c.status.code, BitVec.ofNat 8 c.detail]) _ 0 8).trans (le_toLE_append 8 c.result _)

theorem Cpl.bytes_time (c : Cpl) : le c.bytes 12 4 = c.time % 2 ^ 32 := by
  rw [Cpl.bytes, ← List.append_nil (toLE 4 c.time)]
  exact (le_append_right (toLE 2 c.ctag ++ [BitVec.ofNat 8 c.status.code, BitVec.ofNat 8 c.detail] ++ toLE 8 c.result) _ 0 4).trans
    (le_toLE_append 4 c.time [])

/-! ### A command's answer -/

@[simp] theorem State.setRing_due (s : State) (n : Nat) (x : Ring) : (s.setRing n x).hal.due = s.hal.due := rfl

/-- On a ring that is not DRAINING every completion falls due (04 R84, R88). -/
theorem replyAt_due {s : State} {h : Hdr} (st : Status) (d r t : Nat) (final dup : Bool) (hr : h.ring < 16) (hs : (s.ring h.ring).st ≠ 2) :
    (s.replyAt h st d r t final dup).hal.due = s.hal.due ++
      [{ ring := h.ring, ctag := h.ctag, status := st, detail := d, result := r, time := t % 2 ^ 32, irq := h.irq, final := final, dup := dup }] := by
  unfold State.replyAt
  rw [if_neg (Nat.not_le.mpr hr)]
  by_cases busy : st = .busy
  · simp [busy, hs]
  · simp [busy, hs]

/-- Settles O57: the fields of the entry one by one, and the answer by `replyAt_due`. -/
theorem completionEntryLayout : Obligations.CompletionEntryLayout := by
  unfold Obligations.CompletionEntryLayout
  exact ⟨fun c => ⟨c.bytes_length, c.bytes_ctag, c.bytes_status, c.bytes_detail, c.bytes_result, c.bytes_time⟩,
    fun s h st d r hr hs => ⟨_, replyAt_due st d r s.now true false hr hs, rfl, rfl, rfl, rfl, rfl, rfl, rfl, rfl⟩⟩

end Sys2Proof.Machine
end

section
/-! SUPPORT. Doorbells and ring events (04 R80 to R88, R107, R108): a doorbell of another tag and of the ring's own, each row under its condition. -/
namespace Sys2Proof.Machine
open Sys2Proof

/-! ### Doorbells of another tag (04 R80) -/

/-- A doorbell write of ring `n` refused and counted. -/
def State.rejected (s : State) (n : Nat) : State := s.setRing n { s.ring n with rejCnt := satAdd 32 (s.ring n).rejCnt 1 }

section
variable {s : State} {ini tag n : Nat}

theorem doorbell_rejected (e : State) (hl : s.live = true) (hp : s.presents ini tag = true) (ht : tag ≠ n) :
    s.doorbell ini tag n e = s.rejected n := by
  simp [State.doorbell, hl, hp, ht, State.rejected]

theorem doorbell_own (e : State) (hl : s.live = true) (hp : s.presents ini n = true) : s.doorbell ini n n e = e := by
  simp [State.doorbell, hl, hp]

theorem doorbellRow_rejected (e : State) (hl : s.live = true) (hn : n < 16) (hp : s.presents ini tag = true) (ht : tag ≠ n) :
    unitEvent (decide (n < 16)) (s.doorbell ini tag n e) = .next (s.rejected n) := by
  rw [unitEvent_next _ (decide_eq_true hn), doorbell_rejected _ hl hp ht]

theorem doorbellRow_own (e : State) (hl : s.live = true) (hn : n < 16) (hp : s.presents ini n = true) :
    unitEvent (decide (n < 16)) (s.doorbell ini n n e) = .next e := by
  rw [unitEvent_next _ (decide_eq_true hn), doorbell_own _ hl hp]

/-- The four doorbell words of a ring (04 R107, R108), as a register write reaches them. -/
theorem regWrite_doorbell (j v : Nat) (hn : n < 16) (hj : j < 4) : s.regWrite ini tag (0x4C000000 + 256 * n + 4 * j) v =
    if j = 0 then s.doorbell ini tag n (s.setRing n { s.ring n with baseLo := v })
    else if j = 1 then
      (if bits v 31 30 = 1 then Out.orElse (exec (.ringAttach ini tag n (bits v 11 8) (bits v 7 0)) s) s
       else if bits v 31 30 = 2 then Out.orElse (exec (.ringDetach ini tag n) s) s
       else s.doorbell ini tag n s)
    else if j = 2 then Out.orElse (exec (.cmdDb ini tag n v) s) s
    else Out.orElse (exec (.cplDb ini tag n v) s) s := by
  have window : (0x4C000000 + 256 * n + 4 * j) / 0x1000000 = 0x4C := by omega
  have ring : (0x4C000000 + 256 * n + 4 * j) % 0x1000000 / 256 = n := by omega
  have reg : (0x4C000000 + 256 * n + 4 * j) % 0x1000000 % 256 = 4 * j := by omega
  simp only [State.regWrite, window, ring, reg, Nat.not_le.mpr hn, if_false, exec_ringAttach, exec_ringDetach, exec_cmdDb, exec_cplDb]
  obtain rfl | rfl | rfl | rfl : j = 0 ∨ j = 1 ∨ j = 2 ∨ j = 3 := by omega
  all_goals rfl

theorem registerWriteOther_doorbell (j v : Nat) (hl : s.live = true) (hp : s.presents ini tag = true) :
    exec (.registerWriteOther ini tag (0x4C000000 + 256 * n + 4 * j) v) s =
      .next (s.regWrite ini tag (0x4C000000 + 256 * n + 4 * j) (v % 2 ^ 32)) := by
  have word : (0x4C000000 + 256 * n + 4 * j) / 4 * 4 = 0x4C000000 + 256 * n + 4 * j := by omega
  rw [exec_registerWriteOther, execRegisterWriteOther, hl, hp, word]
  rfl

end

/-- Settles O50: every row of a doorbell goes through `State.doorbell`, and so does each of the four words. -/
theorem doorbellsOfAnotherTag : Obligations.DoorbellsOfAnotherTag := by
  unfold Obligations.DoorbellsOfAnotherTag
  intro s ini tag n hl hn ht hp
  have row : ∀ e, unitEvent (decide (n < 16)) (s.doorbell ini tag n e) = .next (s.rejected n) := fun e => doorbellRow_rejected e hl hn hp ht
  have cmd : ∀ v, exec (.cmdDb ini tag n v) s = .next (s.rejected n) := fun _ => row _
  have cpl : ∀ v, exec (.cplDb ini tag n v) s = .next (s.rejected n) := fun _ => row _
  have attach : ∀ size hi, exec (.ringAttach ini tag n size hi) s = .next (s.rejected n) := fun _ _ => row _
  have detach : exec (.ringDetach ini tag n) s = .next (s.rejected n) := row _
  refine ⟨fun _ => rfl, cmd, cpl, attach, detach, fun j v hj => ?_⟩
  rw [registerWriteOther_doorbell j v hl hp, regWrite_doorbell j _ hn hj]
  simp only [cmd, cpl, attach, detach, doorbell_rejected _ hl hp ht, Out.orElse, ite_self]
  rfl

/-! ### The rows of a ring (04 R82 to R88) -/

section
variable {s : State} {ini tag n : Nat}

theorem ringWrite_reaches {a : Nat} {bs : List Byte} (h : s.spanOK halyardIni n 1 a bs.length = true) : s.ringWrite n a bs = s.writeOut a bs := by
  rw [State.ringWrite, if_pos h]

/-- The oldest completion due on ring `n` taken out. -/
def State.takeDue (s : State) (n : Nat) : State :=
  { s with hal := { s.hal with due := dropFirst (fun (c : Cpl) => c.ring == n) s.hal.due } }

/-- A completion that is due and finds a free slot is published. -/
theorem publish_due {c : Cpl} (hc : (s.hal.due.find? fun (c : Cpl) => c.ring == n) = some c)
    (free : ¬ ((s.ring n).st = 0 ∨ (s.ring n).entries ≤ idx (s.ring n).cplTail (s.ring n).cplHead)) : s.publish n =
      let r := s.ring n
      let s2 := (s.takeDue n).ringWrite n (r.base + 64 * r.entries + 16 * (r.cplTail % r.entries)) c.bytes
      let s3 := (s2.setRing n { s2.ring n with cplTail := (r.cplTail + 1) % 2 ^ 32 }).writeControl n
      let s4 := if c.irq then s3.pulse r.line else s3
      if c.final then s4.release n c.ctag c.dup else s4 := by
  simp only [State.publish, hc, if_neg free]
  rfl

theorem completionPublish_ready {c : Cpl} (hr : readyTenancy (.completionPublish n) s = true)
    (hc : (s.hal.due.find? fun (c : Cpl) => c.ring == n) = some c) : exec (.completionPublish n) s =
      let r := s.ring n
      let s1 : State := { s with hal := { s.hal with due := dropFirst (fun (c : Cpl) => c.ring == n) s.hal.due } }
      let s2 := s1.writeOut (r.base + 64 * r.entries + 16 * (r.cplTail % r.entries)) c.bytes
      let s3 := (s2.setRing n { s2.ring n with cplTail := (r.cplTail + 1) % 2 ^ 32 }).writeControl n
      let s4 := if c.irq then s3.pulse r.line else s3
      .next (if c.final then s4.release n c.ctag c.dup else s4) := by
  simp only [readyTenancy, hc, Bool.and_eq_true, bne_iff_ne, decide_eq_true_eq] at hr
  obtain ⟨⟨⟨⟨ring_ok, live⟩, attached⟩, slot⟩, span⟩ := hr
  have free : ¬ ((s.ring n).st = 0 ∨ (s.ring n).entries ≤ idx (s.ring n).cplTail (s.ring n).cplHead) := by
    simp only [attached, false_or, Nat.not_le, slot]
  have written := ringWrite_reaches (s := s.takeDue n) span
  rw [exec_completionPublish, execCompletionPublish, unitEvent_next _ (decide_eq_true ring_ok), if_pos live, publish_due hc free]
  dsimp only
  rw [written]
  rfl

theorem cmdDb_ready {value : Nat} (hr : readyTenancy (.cmdDb ini tag n value) s = true) :
    exec (.cmdDb ini tag n value) s = .next (s.setRing n { s.ring n with cmdTail := value % 2 ^ 32 }) := by
  simp only [readyTenancy, Bool.and_eq_true, beq_iff_eq, decide_eq_true_eq] at hr
  obtain ⟨⟨⟨⟨⟨ring_ok, live⟩, presents⟩, rfl⟩, attached⟩, fits⟩ := hr
  rw [exec_cmdDb, execCmdDb, doorbellRow_own _ live ring_ok presents]
  dsimp only
  rw [if_neg (fun other => other attached), if_pos fits]

theorem cplDb_ready {value : Nat} (hr : readyTenancy (.cplDb ini tag n value) s = true) :
    exec (.cplDb ini tag n value) s = .next (s.setRing n { s.ring n with cplHead := value % 2 ^ 32 }) := by
  simp only [readyTenancy, Bool.and_eq_true, beq_iff_eq, decide_eq_true_eq] at hr
  obtain ⟨⟨⟨⟨⟨ring_ok, live⟩, presents⟩, rfl⟩, attached⟩, fits⟩ := hr
  rw [exec_cplDb, execCplDb, doorbellRow_own _ live ring_ok presents]
  dsimp only
  rw [if_neg (fun other => other attached), if_pos fits]

theorem ringAttach_ready {size hi : Nat} (hr : readyTenancy (.ringAttach ini tag n size hi) s = true) : exec (.ringAttach ini tag n size hi) s =
    let r := s.ring n
    let s1 : State := { s with hal := { s.hal with due := s.hal.due.filter fun (c : Cpl) => c.ring != n } }
    .next ((s1.setRing n { r with st := 1, size := size, err := 0, base := hi % 256 * 2 ^ 32 + r.baseLo / 4096 * 4096,
                                  cmdHead := 0, cmdTail := 0, cplHead := 0, cplTail := 0, stopped := false }).writeControl n) := by
  simp only [readyTenancy, Bool.and_eq_true, beq_iff_eq, decide_eq_true_eq] at hr
  obtain ⟨⟨⟨⟨⟨⟨⟨ring_ok, live⟩, presents⟩, rfl⟩, enabled⟩, detached⟩, least, most⟩, area⟩ := hr
  have size_ok : ¬ (size < 4 ∨ 10 < size) := by omega
  rw [exec_ringAttach, execRingAttach, doorbellRow_own _ live ring_ok presents]
  simp only [enabled, detached, size_ok, area, Bool.not_true, Bool.false_eq_true, ne_eq, not_true_eq_false, if_false]

theorem ringDetach_ready (hr : readyTenancy (.ringDetach ini tag n) s = true) : exec (.ringDetach ini tag n) s = .next (s.detach n) := by
  simp only [readyTenancy, Bool.and_eq_true, beq_iff_eq, decide_eq_true_eq] at hr
  obtain ⟨⟨⟨⟨ring_ok, live⟩, presents⟩, rfl⟩, attached⟩ := hr
  rw [exec_ringDetach, execRingDetach, doorbellRow_own _ live ring_ok presents, if_pos attached]

end

/-- Settles O25, row by row. -/
theorem ringEventsComplete : Obligations.RingEventsComplete := by
  unfold Obligations.RingEventsComplete
  intro s ini tag n r
  exact ⟨fun _ => completionPublish_ready, fun _ => cmdDb_ready, fun _ => cplDb_ready, fun _ _ => ringAttach_ready, ringDetach_ready⟩

end Sys2Proof.Machine
end

section
/-! SUPPORT. The command transport (04 R94 to R102; 06 R150 to R154): the front of the queue, and each row under the conditions that
`readySystem` gathers for it. -/
namespace Sys2Proof.Machine
open Sys2Proof

theorem step_of_front {s : State} {c : Instr} {rest : List Instr} (h : s.pending = c :: rest) : step s = exec c { s with pending := rest } := by
  rw [step, h]

/-- Settles O41, by the branch of `step` for a queue that is not empty. -/
theorem stepRunsTheFrontCommand : Obligations.StepRunsTheFrontCommand := by
  unfold Obligations.StepRunsTheFrontCommand
  exact fun _ _ _ => step_of_front

section
variable {s : State} {n : Nat}

theorem commandFetch_ready (hr : readySystem [] (.commandFetch n) s = true) : exec (.commandFetch n) s = .next (s.turn n) := by
  simp only [readySystem, Bool.and_eq_true] at hr
  obtain ⟨⟨ring_ok, live⟩, turn⟩ := hr
  simp only [exec_commandFetch, execCommandFetch, unitEvent_next _ ring_ok, live, turn, Bool.and_true, if_true]

/-- The MP's next command, taken from the queue, is carried out (04 R102). -/
theorem mpCommandStart_ready {k c : Nat} {e : InFl} (hr : readySystem [] .mpCommandStart s = true) (hk : s.mpNext = some k)
    (hq : (s.hal.mpq.find? fun (q : Nat × Nat) => q.1 == k) = some (k, c)) (he : s.inflightOf k c = some e) : exec .mpCommandStart s =
      let s1 : State := { s with hal := { s.hal with mpq := dropFirst (· == (k, c)) s.hal.mpq, mpZero := k != 0, mpRr := if k = 0 then s.hal.mpRr else k } }
      let s2 := s1.inflightState (pktHdr k e.pkt) 4
      .next (match pktRow e.pkt with
        | some row => (row.run (pktHdr k e.pkt) (pktParam e.pkt) s2).orElse s2
        | none => s2) := by
  simp only [readySystem, Bool.and_eq_true] at hr
  obtain ⟨⟨live, up⟩, -⟩ := hr
  have entry : ∀ q z m, ({ s with hal := { s.hal with mpq := q, mpZero := z, mpRr := m } } : State).inflightOf k c = some e := fun _ _ _ => he
  rw [exec_mpCommandStart, execMpCommandStart]
  simp only [live, up, hk, hq, entry, Bool.not_true, Bool.or_false, Bool.false_eq_true, if_false] <;> rfl

theorem longRunningOperationEnd_ready {ctag : Nat} {good : Bool} {o : Op} {s1 : State}
    (hr : readySystem [] (.longRunningOperationEnd n ctag good) s = true) (ho : s.opOf { ring := n, ctag := ctag } = some o)
    (he : ((s.freeHandle o.handle).dropOp o.h).opEnds o good = some s1) : exec (.longRunningOperationEnd n ctag good) s = .next s1.settle := by
  simp only [readySystem, ho, Bool.and_eq_true, Bool.or_eq_true, Bool.not_eq_true', beq_iff_eq] at hr
  obtain ⟨live, running, turn⟩ := hr
  have ends : (!s.live || !o.running || (cmdSigns o.cmd && (s.hal.ops.find? Op.signing).map (·.h) != some o.h)) = false := by
    rcases turn with other | first
    · simp [live, running, other]
    · simp [live, running, first]
  rw [exec_longRunningOperationEnd, execLongRunningOperationEnd, ho]
  dsimp only
  rw [ends, he]
  rfl

/-- A dispatched action that is due reaches its target (06 R150 to R154). -/
theorem schedActionApply_ready {smp : Nat} {d : Disp} (hr : readySystem [] (.schedActionApply n smp) s = true)
    (hd : (s.sch.disp.find? fun d => d.ent == n && d.due s.now) = some d) : exec (.schedActionApply n smp) s =
      let a := (s.sent n).action
      let p := (s.dropDisp n).otherAction n d smp
      .next (if d.ok ≠ 0 then (s.dropDisp n).firingEnds n d.ok
             else if 1 ≤ a ∧ a ≤ 3 then (s.chanAction n d).settle
             else p.2.firingEnds n (if p.1 then (if d.late then 2 else 1) else 5)) := by
  simp only [readySystem, hd, Bool.and_eq_true, Bool.or_eq_true, bne_iff_ne, Bool.not_eq_true', decide_eq_false_iff_not, decide_eq_true_eq] at hr
  obtain ⟨⟨entry_ok, live⟩, ready⟩ := hr
  rw [exec_schedActionApply, execSchedActionApply, unitEvent_next _ (decide_eq_true entry_ok), hd]
  simp only [live, Bool.not_true, Bool.false_eq_true, if_false]
  by_cases ended : d.ok ≠ 0
  · rw [if_pos ended, if_pos ended]
  · by_cases chan : 1 ≤ (s.sent n).action ∧ (s.sent n).action ≤ 3
    · have turn : s.actionTurn (s.lead (s.sent n).target) d = true := by simpa [ended, chan] using ready
      rw [if_neg ended, if_neg ended, if_pos chan, if_pos chan, if_pos turn]
    · rw [if_neg ended, if_neg ended, if_neg chan, if_neg chan]

end

/-- Settles O39, row by row. -/
theorem commandTransportComplete : Obligations.CommandTransportComplete := by
  unfold Obligations.CommandTransportComplete
  intro s n ctag
  exact ⟨commandFetch_ready, fun _ _ _ => mpCommandStart_ready, fun _ _ _ => longRunningOperationEnd_ready, fun _ _ => schedActionApply_ready⟩

end Sys2Proof.Machine
end

section
/-! SUPPORT. The state after reset (02, 03 R57; 04 R82, R104, R110; 06 R135; 08 R188) and reads of device time (06 R138). -/
namespace Sys2Proof.Machine
open Sys2Proof

/-! ### Reset -/

/-- A unit that no table lists has its content at reset. -/
@[simp] theorem look_nil {α : Type} (d : Nat → α) (k : Nat) : look d [] k = d k := rfl

theorem reset_ring (n : Nat) : State.reset.ring n = { enabled := decide (n ≤ 1) } := look_nil _ n
theorem reset_chan (n : Nat) : State.reset.chan n = {} := look_nil _ n
theorem reset_owner (kind i : Nat) : State.reset.owner kind i = 0 := look_nil _ _

/-- After reset no Bezel range is enabled, so none covers any address (18 R452). -/
theorem reset_bezels_cover (a : Nat) : State.reset.bezels.any (fun b => b.covers a) = false := by
  rw [State.bezels, List.any_map, List.any_eq_false]
  intro r _
  have unlisted : look (fun _ => ({} : Bezel)) State.reset.ten.bez r = {} := look_nil _ r
  simp [unlisted, Bezel.covers]

/-- Settles O43: the units of each table by what an unlisted one holds, the other fields by their values at reset. -/
theorem stateAfterReset : Obligations.StateAfterReset := by
  unfold Obligations.StateAfterReset
  refine ⟨reset_mem, rfl, rfl, rfl, rfl, rfl, rfl, fun n => ?_, fun n => ?_, fun k i => .inl (reset_owner k i), rfl, rfl, rfl, rfl, reset_bezels_cover⟩
  · rw [reset_ring]
    exact ⟨rfl, rfl, rfl, rfl, rfl⟩
  · rw [reset_chan]
    exact ⟨rfl, rfl, rfl, rfl⟩

/-! ### Device time (06 R138) -/

/-- Device time in ns is a 64-bit number. -/
theorem State.now_lt (s : State) : s.now < 2 ^ 64 := Nat.mod_lt _ (Nat.two_pow_pos 64)

theorem regRead_dtLo (s : State) (ini tag : Nat) : s.regRead ini tag dtAddr = s.now % 2 ^ 32 := Nat.mod_mod _ _
theorem regRead_dtHi (s : State) (ini tag : Nat) :
    s.regRead ini tag 0x45000004 = (look (fun _ => (0, 0)) s.clk.latch ini).1 % 2 ^ 32 := rfl
theorem regRead_dtFrac (s : State) (ini tag : Nat) :
    s.regRead ini tag 0x45000008 = (look (fun _ => (0, 0)) s.clk.latch ini).2 % 2 ^ 32 := rfl

/-- A byte of a 32-bit word is the byte of the number the word cuts off. -/
theorem ofNat_byte_of_word (v : Nat) {i : Nat} (h : i < 4) : BitVec.ofNat 8 (v % 2 ^ 32 / 256 ^ i) = BitVec.ofNat 8 (v / 256 ^ i) := by
  have cut : v % 2 ^ 32 / 256 ^ i % 2 ^ 8 = v / 256 ^ i % 2 ^ 8 := by
    have place : i = 0 ∨ i = 1 ∨ i = 2 ∨ i = 3 := by omega
    rcases place with rfl | rfl | rfl | rfl <;> omega
  exact BitVec.eq_of_toNat_eq (by simpa using cut)

/-- The four bytes of DT_LO are those of device time. -/
theorem regBytes_dtLo (s : State) (ini tag : Nat) : s.regBytes ini tag dtAddr 4 = toLE 4 s.now := by
  have byte : ∀ i, i < 4 → BitVec.ofNat 8 (s.regRead ini tag ((dtAddr + i) / 4 * 4) / 256 ^ ((dtAddr + i) % 4)) = BitVec.ofNat 8 (s.now / 256 ^ i) := by
    intro i hi
    have word : (dtAddr + i) / 4 * 4 = dtAddr := by simp only [dtAddr]; omega
    have place : (dtAddr + i) % 4 = i := by simp only [dtAddr]; omega
    rw [word, place, regRead_dtLo, ofNat_byte_of_word _ hi]
  calc s.regBytes ini tag dtAddr 4
      = (List.range 4).map fun i => BitVec.ofNat 8 (s.now / 256 ^ i) := List.map_congr_left fun i hi => byte i (List.mem_range.mp hi)
    _ = toLE 4 s.now := by simp [List.range_succ, toLE, Nat.div_div_eq_div_mul]

/-- The state after a 32-bit read of DT_LO by `ini`: its latch holds bits [63:32] and the fraction of this instant. -/
def State.latched (s : State) (ini : Nat) : State :=
  { s with clk := { s.clk with latch := put s.clk.latch ini (s.now / 2 ^ 32, (s.clk.dt / 2 ^ 16) % 2 ^ 16) },
           bus := { err := false, data := toLE 4 s.now } }

theorem dtLoRead_next {s : State} (live : s.live = true) (ini : Nat) : exec (.dtLoRead ini) s = .next (s.latched ini) := by
  rw [exec_dtLoRead, execDtLoRead, if_pos live]
  rfl

theorem regReads_dt (s : State) (ini tag : Nat) : s.regReads ini tag dtAddr 8 = (toLE 8 s.now, s) := if_pos ⟨rfl, rfl⟩

theorem regReads_dtLo {s : State} (live : s.live = true) (ini tag : Nat) :
    s.regReads ini tag dtAddr 4 = (toLE 4 s.now, s.latched ini) := by
  have ran : execDtLoRead ini s = .next (s.latched ini) := (exec_dtLoRead ini).symm.trans (dtLoRead_next live ini)
  rw [State.regReads, if_neg (by decide), if_pos ⟨rfl, rfl⟩, regBytes_dtLo, ran]
  rfl

theorem latched_own (s : State) (ini : Nat) :
    look (fun _ => (0, 0)) (s.latched ini).clk.latch ini = (s.now / 2 ^ 32, (s.clk.dt / 2 ^ 16) % 2 ^ 16) := look_put_same _ _ _ _

theorem latched_other (s : State) {ini other : Nat} (h : other ≠ ini) :
    look (fun _ => (0, 0)) (s.latched ini).clk.latch other = look (fun _ => (0, 0)) s.clk.latch other := look_put_ne _ _ _ h

/-- Settles O52: the bytes by `regBytes_dtLo`, the latches by `latched_own` and `latched_other`. -/
theorem deviceTimeReads : Obligations.DeviceTimeReads := by
  unfold Obligations.DeviceTimeReads
  intro s ini tag live
  refine ⟨regReads_dt s ini tag, s.latched ini, regReads_dtLo live ini tag, dtLoRead_next live ini, ?_, ?_, fun other h => ⟨?_, ?_⟩, rfl, rfl⟩
  · have fits : s.now / 2 ^ 32 < 2 ^ 32 := Nat.div_lt_of_lt_mul s.now_lt
    rw [regRead_dtHi, latched_own]
    exact Nat.mod_eq_of_lt fits
  · have fits : s.clk.dt / 2 ^ 16 % 2 ^ 16 < 2 ^ 32 := Nat.lt_trans (Nat.mod_lt _ (by decide)) (by decide)
    rw [regRead_dtFrac, latched_own]
    exact Nat.mod_eq_of_lt fits
  · rw [regRead_dtHi, regRead_dtHi, latched_other s h]
  · rw [regRead_dtFrac, regRead_dtFrac, latched_other s h]

end Sys2Proof.Machine
end

section
/-! SUPPORT. One fabric cycle (06 R135; log 1): what the commands and writes that waited for it leave alone (01 R18; 17 R440), what time
passing leaves alone besides, and the step of an empty queue. -/
namespace Sys2Proof.Machine
open Sys2Proof

/-! ### The views -/

/-- What a channel command, a write to an isolated output and an evaluation of admission leave alone: the clock, the boot instant and the
queue. -/
def State.clockView (s : State) : Clk × Nat × List Instr := (s.clk, s.sys.boot, s.pending)

/-- What a fabric cycle leaves alone once time has advanced and nothing waited for it: the channels and the rings besides. -/
def State.quietView (s : State) : Clk × Nat × List Instr × Tab Chan × Hal := (s.clk, s.sys.boot, s.pending, s.lch.chan, s.hal)

/-- States that agree on the wider view agree on the narrower one. -/
theorem clockView_of_quietView {s t : State} (h : t.quietView = s.quietView) : t.clockView = s.clockView :=
  congrArg (fun v : Clk × Nat × List Instr × Tab Chan × Hal => (v.1, v.2.1, v.2.2.1)) h

theorem clk_of_clockView {s t : State} (h : t.clockView = s.clockView) : t.clk = s.clk := congrArg Prod.fst h
theorem pending_of_clockView {s t : State} (h : t.clockView = s.clockView) : t.pending = s.pending :=
  congrArg (fun v : Clk × Nat × List Instr => v.2.2) h
theorem live_of_clockView {s t : State} (h : t.clockView = s.clockView) : t.live = s.live :=
  congrArg (fun v : Clk × Nat × List Instr => decide (2 ≤ v.2.1)) h

section

variable (clk : Clk) (sys : Sys) (hal : Hal) (adm : Adm) (lch : Lch) (sch : Sch) (inp : Inp) (iso : Iso) (net : Net) (fab : Fab) (flt : Flt)
  (ten : Ten) (dbg : Dbg) (fb : Fb) (can : Can) (wake : Wake) (brg : Brg) (key : Key) (keo : Keo) (bus : Bus) (mem : List Host.Cell) (ecc : Tab Nat)
  (pending : List Instr)

@[simp] theorem clockView_mk :
    State.clockView ⟨clk, sys, hal, adm, lch, sch, inp, iso, net, fab, flt, ten, dbg, fb, can, wake, brg, key, keo, bus, mem, ecc, pending⟩ =
      (clk, sys.boot, pending) := rfl
@[simp] theorem quietView_mk :
    State.quietView ⟨clk, sys, hal, adm, lch, sch, inp, iso, net, fab, flt, ten, dbg, fb, can, wake, brg, key, keo, bus, mem, ecc, pending⟩ =
      (clk, sys.boot, pending, lch.chan, hal) := rfl

end

section

variable (s : State)

@[simp] theorem clockView_fold : (s.clk, s.sys.boot, s.pending) = s.clockView := rfl
@[simp] theorem quietView_fold : (s.clk, s.sys.boot, s.pending, s.lch.chan, s.hal) = s.quietView := rfl

@[simp] theorem clockView_ite (c : Prop) [Decidable c] (a b : State) :
    (if c then a else b).clockView = if c then a.clockView else b.clockView := apply_ite State.clockView c a b
@[simp] theorem quietView_ite (c : Prop) [Decidable c] (a b : State) :
    (if c then a else b).quietView = if c then a.quietView else b.quietView := apply_ite State.quietView c a b

@[simp] theorem clockView_foldl {α : Type} (f : State → α → State) (h : ∀ t a, (f t a).clockView = t.clockView) (l : List α) :
    (l.foldl f s).clockView = s.clockView :=
  List.foldlRecOn l f (motive := fun t => t.clockView = s.clockView) rfl fun t ht a _ => (h t a).trans ht
@[simp] theorem quietView_foldl {α : Type} (f : State → α → State) (h : ∀ t a, (f t a).quietView = t.quietView) (l : List α) :
    (l.foldl f s).quietView = s.quietView :=
  List.foldlRecOn l f (motive := fun t => t.quietView = s.quietView) rfl fun t ht a _ => (h t a).trans ht

/-! ### Raises -/

@[simp] theorem pulse_quietView (n : Nat) : (s.pulse n).quietView = s.quietView := by simp [State.pulse]
@[simp] theorem demandSafe_quietView (src : Nat) : (s.demandSafe src).quietView = s.quietView := rfl
@[simp] theorem waitReaction_quietView (p : Nat × Nat) : (s.waitReaction p).quietView = s.quietView := rfl
@[simp] theorem noteRaise_quietView (src : Nat) : (s.noteRaise src).quietView = s.quietView := rfl
@[simp] theorem logOvf_quietView : s.logOvf.quietView = s.quietView := by simp [State.logOvf]

/-- A raise changes the fault collector and what its reaction holds; of a reserved source there is none. -/
@[simp] theorem raise_quietView (src info : Nat) (inj : Bool) : (s.raise src info inj).quietView = s.quietView := by
  unfold State.raise
  split
  · rfl
  · simp

@[simp] theorem pulse_clockView (n : Nat) : (s.pulse n).clockView = s.clockView := clockView_of_quietView (pulse_quietView s n)
@[simp] theorem raise_clockView (src info : Nat) (inj : Bool) : (s.raise src info inj).clockView = s.clockView :=
  clockView_of_quietView (raise_quietView s src info inj)
@[simp] theorem condition_clockView (src info : Nat) (on : Bool) : (s.condition src info on).clockView = s.clockView := by
  simp [State.condition]

/-! ### Completions and operations -/

@[simp] theorem setRing_clockView (n : Nat) (x : Ring) : (s.setRing n x).clockView = s.clockView := rfl
@[simp] theorem inflightState_clockView (h : Hdr) (st : Nat) : (s.inflightState h st).clockView = s.clockView := rfl
@[simp] theorem dropOp_clockView (h : Hdr) : (s.dropOp h).clockView = s.clockView := rfl
@[simp] theorem setOp_clockView (o : Op) (key : List Byte) : (s.setOp o key).clockView = s.clockView := rfl

@[simp] theorem drained_clockView (n : Nat) : (s.drained n).clockView = s.clockView := by simp [State.drained]
@[simp] theorem release_clockView (n ctag : Nat) (dup : Bool) : (s.release n ctag dup).clockView = s.clockView := by simp [State.release]
@[simp] theorem replyAt_clockView (h : Hdr) (st : Status) (d r t : Nat) (final dup : Bool) :
    (s.replyAt h st d r t final dup).clockView = s.clockView := by simp [State.replyAt]
@[simp] theorem reply_clockView (h : Hdr) (st : Status) (d r : Nat) (final : Bool) : (s.reply h st d r final).clockView = s.clockView :=
  replyAt_clockView s h st d r s.now final false
@[simp] theorem ok_clockView (h : Hdr) (r : Nat) : (s.ok h r).clockView = s.clockView := reply_clockView s h .ok 0 r true
@[simp] theorem fail_clockView (h : Hdr) (st : Status) (d r : Nat) : (s.fail h st d r).clockView = s.clockView := reply_clockView s h st d r true
@[simp] theorem accepted_clockView (h : Hdr) (d : Nat) : (s.accepted h d).clockView = s.clockView := reply_clockView s h .accepted d 0 false

@[simp] theorem guarded_clockView (h : Hdr) (cs : List Chk) {k : State} (hk : k.clockView = s.clockView) :
    (s.guarded h cs k).clockView = s.clockView := by
  unfold State.guarded
  split
  · exact fail_clockView s _ _ _ _
  · exact hk

@[simp] theorem checkSlot_clockView (i : Nat) : (s.checkSlot i).clockView = s.clockView := by simp [State.checkSlot]

@[simp] theorem opStarts_clockView (o : Op) : (s.opStarts o).1.clockView = s.clockView := by
  unfold State.opStarts
  simp only
  (repeat' split) <;> simp

/-! ### Ports and segments -/

@[simp] theorem setPort_clockView (p : Nat) (x : Port) : (s.setPort p x).clockView = s.clockView := rfl
@[simp] theorem setPhy_clockView (p : Nat) (x : Phy) : (s.setPhy p x).clockView = s.clockView := rfl
@[simp] theorem setSeg_clockView (g : Nat) (x : Seg) : (s.setSeg g x).clockView = s.clockView := rfl
@[simp] theorem setCtl_clockView (c : Nat) (x : Ctl) : (s.setCtl c x).clockView = s.clockView := rfl
@[simp] theorem portCnt_clockView (p i : Nat) : (s.portCnt p i).clockView = s.clockView := rfl
@[simp] theorem dropRef_clockView (f : Nat) : (s.dropRef f).clockView = s.clockView := rfl
@[simp] theorem freeStore_clockView (o c n : Nat) : (s.freeStore o c n).clockView = s.clockView := rfl

@[simp] theorem dropLinkFrame_clockView (o c f : Nat) : (s.dropLinkFrame o c f).clockView = s.clockView := by simp [State.dropLinkFrame]

@[simp] theorem flushPort_clockView (p : Nat) : (s.flushPort p).clockView = s.clockView := by
  unfold State.flushPort
  simp only
  (repeat' split) <;> simp

@[simp] theorem reachedUp_clockView (p : Nat) : (s.reachedUp p).clockView = s.clockView := by simp [State.reachedUp]
@[simp] theorem phyFollows_clockView (p : Nat) (l : LState) : (s.phyFollows p l).clockView = s.clockView := by simp [State.phyFollows]
@[simp] theorem setLink_clockView (p : Nat) (l : LState) : (s.setLink p l).clockView = s.clockView := by simp [State.setLink]
@[simp] theorem normal_clockView (g : Nat) : (s.normal g).clockView = s.clockView := by simp [State.normal]
@[simp] theorem wakesRun_clockView (p : Nat) : (s.wakesRun p).clockView = s.clockView :=
  clockView_foldl s (fun s (w : Nat × Hdr × Nat) => s.inflightState w.2.1 4) (fun t w => inflightState_clockView t w.2.1 4) _
@[simp] theorem wakesDenied_clockView (p : Nat) (st : Status) (d : Nat) : (s.wakesDenied p st d).clockView = s.clockView := by
  simp [State.wakesDenied]

/-! ### The admission table and the scheduler's entries -/

@[simp] theorem setBudget_clockView (k : Nat) (b : Budget) : (s.setBudget k b).clockView = s.clockView := rfl
@[simp] theorem setAdmEnt_clockView (i : Nat) (e : AdmEnt) : (s.setAdmEnt i e).clockView = s.clockView := rfl
@[simp] theorem reasons_clockView (k : Nat) : (s.reasons k).clockView = s.clockView := rfl
@[simp] theorem setSent_clockView (n : Nat) (e : SEnt) : (s.setSent n e).clockView = s.clockView := rfl
@[simp] theorem enqueue_clockView (i : Nat) (e : AdmEnt) (dl : Nat) : (s.enqueue i e dl).clockView = s.clockView := rfl

@[simp] theorem freeEntry_clockView (i : Nat) : (s.freeEntry i).clockView = s.clockView := by simp [State.freeEntry]
@[simp] theorem grantEntry_clockView (i : Nat) : (s.grantEntry i).clockView = s.clockView := by simp [State.grantEntry]
@[simp] theorem schedOutcome_clockView (n code : Nat) : (s.schedOutcome n code).clockView = s.clockView := by simp [State.schedOutcome]
@[simp] theorem firingEnds_clockView (n code : Nat) : (s.firingEnds n code).clockView = s.clockView := by simp [State.firingEnds]

@[simp] theorem freeHandle_clockView (hd : Nat) : (s.freeHandle hd).clockView = s.clockView := by
  unfold State.freeHandle
  split <;> simp

@[simp] theorem freeOutside_clockView (ch : Nat) : (s.freeOutside ch).clockView = s.clockView := by
  unfold State.freeOutside
  split <;> simp

@[simp] theorem takeHold_clockView (k : Nat) : (s.takeHold k).clockView = s.clockView := by
  unfold State.takeHold
  split <;> simp

/-! ### Channels -/

@[simp] theorem setChan_clockView (n : Nat) (c : Chan) : (s.setChan n c).clockView = s.clockView := rfl
@[simp] theorem setBunt_clockView (n : Nat) (b : BuntPos) : (s.setBunt n b).clockView = s.clockView := rfl
@[simp] theorem syncCh_clockView (n : Nat) : (s.syncCh n).clockView = s.clockView := rfl
@[simp] theorem wref_clockView : s.wref.clockView = s.clockView := rfl
@[simp] theorem refuseCount_clockView (n : Nat) : (s.refuseCount n).clockView = s.clockView := rfl

@[simp] theorem modCh_clockView (n : Nat) (f : Chan → Chan) : (s.modCh n f).clockView = s.clockView :=
  clockView_foldl s (fun s m => s.setChan m (f (s.chan m))) (fun t m => setChan_clockView t m _) _
@[simp] theorem dcres_clockView (n code : Nat) : (s.dcres n code).clockView = s.clockView := by simp [State.dcres]

@[simp] theorem endWait_clockView (n : Nat) (r : Rep) : (s.endWait n r).clockView = s.clockView := by
  unfold State.endWait
  split <;> simp

/-- What a command's end tells its origin: a completion, a result register, a counter or the end of a firing. -/
@[simp] theorem report_clockView (n : Nat) (o : Origin) (r : Rep) : (s.report n o r).clockView = s.clockView := by
  unfold State.report
  (repeat' split) <;> simp

@[simp] theorem withdraw_clockView (n : Nat) (r : Rep) : (s.withdraw n r).clockView = s.clockView := by simp [State.withdraw]
@[simp] theorem endGrant_clockView (n : Nat) : (s.endGrant n).clockView = s.clockView := by simp [State.endGrant]
@[simp] theorem goCh_clockView (n : Nat) (st : ChState) (f : Chan → Chan) : (s.goCh n st f).clockView = s.clockView := by simp [State.goCh]
@[simp] theorem startPwm_clockView (n grid : Nat) (kept : Bool) : (s.startPwm n grid kept).clockView = s.clockView := by simp [State.startPwm]
@[simp] theorem imbalEnd_clockView (n : Nat) : (s.imbalEnd n).clockView = s.clockView := by simp [State.imbalEnd]
@[simp] theorem turnOff_clockView (n : Nat) : (s.turnOff n).clockView = s.clockView := by simp [State.turnOff]
@[simp] theorem capTrig_clockView (n : Nat) (shut : Bool) : (s.capTrig n shut).clockView = s.clockView := by simp [State.capTrig]
@[simp] theorem shutdown_clockView (n cause : Nat) : (s.shutdown n cause).clockView = s.clockView := by simp [State.shutdown]
@[simp] theorem turnOn_clockView (n grid : Nat) : (s.turnOn n grid).clockView = s.clockView := by simp [State.turnOn]
@[simp] theorem chGranted_clockView (n : Nat) : (s.chGranted n).clockView = s.clockView := by simp [State.chGranted]

@[simp] theorem protect_clockView (n : Nat) : (s.protect n).clockView = s.clockView := by
  unfold State.protect
  split <;> simp

/-! ### Grants and refusals -/

/-- A grant that starts an operation (19 R487, R496), or that the operation's own check refuses. -/
theorem granted_op_clockView {i : Nat} {h : Hdr} (hc : (s.admEnt i).client = .op h) : (s.granted i).clockView = s.clockView := by
  unfold State.granted
  simp only [hc]
  split
  · rfl
  · next o _ =>
    have starts := opStarts_clockView s o
    split
    · next u st d e =>
      rw [e] at starts
      simpa using starts
    · next u e =>
      rw [e] at starts
      simpa using starts

@[simp] theorem granted_clockView (i : Nat) : (s.granted i).clockView = s.clockView := by
  cases hc : (s.admEnt i).client
  case op h => exact granted_op_clockView s hc
  all_goals simp [State.granted, hc]

@[simp] theorem denied_clockView (c : Client) (st : Status) (d : Nat) : (s.denied c st d).clockView = s.clockView := by
  cases c <;> simp [State.denied]

@[simp] theorem refuse_clockView (c : Client) (d : Nat) : (s.refuse c d).clockView = s.clockView := denied_clockView s c .refused d

@[simp] theorem evalLoop_clockView (k fuel : Nat) : (s.evalLoop k fuel).clockView = s.clockView := by
  induction fuel generalizing s with
  | zero => rfl
  | succ n ih =>
    rw [State.evalLoop]
    split
    · exact takeHold_clockView s k
    · exact (ih _).trans (by simp)

@[simp] theorem evaluate_clockView (k : Nat) : (s.evaluate k).clockView = s.clockView := evalLoop_clockView s k 257
@[simp] theorem settle_clockView : s.settle.clockView = s.clockView := by simp [State.settle]

@[simp] theorem takePrio_clockView (e : AdmEnt) (ch dl : Nat) : (s.takePrio e ch dl).2.clockView = s.clockView := by
  unfold State.takePrio
  split <;> simp

@[simp] theorem requestPrio_clockView (e : AdmEnt) (ch dl : Nat) : (s.requestPrio e ch dl).clockView = s.clockView := by
  simp [State.requestPrio]

@[simp] theorem request_clockView (e : AdmEnt) (dl : Nat) {take : State → Nat → State} {onWait : State → State}
    (ht : ∀ t hd, (take t hd).clockView = t.clockView) (hw : ∀ t, (onWait t).clockView = t.clockView) :
    (s.request e dl take onWait).clockView = s.clockView := by
  unfold State.request
  simp only
  split
  · simp
  · simp [ht, hw]

@[simp] theorem requestTurnOn_clockView (n : Nat) (o : Origin) (dl : Nat) : (s.requestTurnOn n o dl).clockView = s.clockView := by
  simp [State.requestTurnOn]

/-! ### What waited for the cycle (01 R18; 17 R440) -/

@[simp] theorem withdrawSched_clockView (n skip : Nat) : (s.withdrawSched n skip).clockView = s.clockView := by simp [State.withdrawSched]

/-- A command for a channel in each of its states (08 R189). -/
@[simp] theorem chCommand_clockView (n : Nat) (act : Act) (duty : Nat) (o : Origin) (dl grid : Nat) :
    (s.chCommand n act duty o dl grid).clockView = s.clockView := by
  unfold State.chCommand
  simp only
  split
  · exact report_clockView s _ o .held
  · cases (s.chan (s.lead n)).st
    case on => cases act <;> simp
    case pwm => cases act <;> simp
    all_goals simp

@[simp] theorem chApply_clockView (w : ChWait) : (s.chApply w).clockView = s.clockView := by simp [State.chApply]

@[simp] theorem chNext_clockView (m : Nat) : (s.chNext m).clockView = s.clockView := by
  unfold State.chNext
  split <;> simp

@[simp] theorem chWaits_clockView : s.chWaits.clockView = s.clockView := by simp [State.chWaits]

@[simp] theorem setIsoCh_clockView (n : Nat) (x : IsoCh) : (s.setIsoCh n x).clockView = s.clockView := rfl
@[simp] theorem syncIso_clockView : s.syncIso.clockView = s.clockView := rfl
@[simp] theorem isoSet_clockView (n : Nat) (v : Bool) : (s.isoSet n v).clockView = s.clockView := by simp [State.isoSet]

/-- A write of an ISO.SET, and one of the Keore engine. -/
@[simp] theorem isoApply_clockView (w : IsoWr) : (s.isoApply w).clockView = s.clockView := by
  unfold State.isoApply
  simp only
  split
  · simp
  · split <;> simp

@[simp] theorem isoWaits_clockView : s.isoWaits.clockView = s.clockView := by simp [State.isoWaits]

theorem chWaits_of_none {s : State} (h : s.lch.wait = []) : s.chWaits = s := by rw [State.chWaits, h]; rfl
theorem isoWaits_of_none {s : State} (h : s.iso.wr = []) : s.isoWaits = s := by rw [State.isoWaits, h]; rfl

/-! ### The rest of the cycle -/

@[simp] theorem setBank_quietView (k : Nat) (b : Bank) : (s.setBank k b).quietView = s.quietView := rfl
@[simp] theorem setCtl_quietView (c : Nat) (x : Ctl) : (s.setCtl c x).quietView = s.quietView := rfl
@[simp] theorem dropCopy_quietView (e k : Nat) : (s.dropCopy e k).quietView = s.quietView := rfl
@[simp] theorem anchor_quietView : s.anchor.quietView = s.quietView := rfl
@[simp] theorem waitTick_quietView : s.waitTick.quietView = s.quietView := rfl
@[simp] theorem tickSlot_quietView : s.tickSlot.quietView = s.quietView := rfl

@[simp] theorem tickDies_quietView : s.tickDies.quietView = s.quietView := by
  unfold State.tickDies
  split <;> rfl

@[simp] theorem auditBank_quietView (k : Nat) : (s.auditBank k).quietView = s.quietView := by simp [State.auditBank]
@[simp] theorem auditTick_quietView : s.auditTick.quietView = s.quietView := by simp [State.auditTick]
@[simp] theorem ageRouted_quietView (c : Nat) : (s.ageRouted c).quietView = s.quietView := by
  unfold State.ageRouted
  simp only
  split
  · rfl
  · exact (quietView_foldl _ (fun s (r : Rtd) => s.dropCopy r.entry 8) (fun t r => dropCopy_quietView t r.entry 8) _).trans
      (setCtl_quietView s c _)

@[simp] theorem reactionDone_quietView : s.reactionDone.quietView = s.quietView := by
  unfold State.reactionDone
  split <;> rfl

/-! ### The cycle -/

/-- After the commands and writes that waited, only the advance of the clock shows in the view. -/
theorem tick_quietView : s.tick.quietView = s.chWaits.isoWaits.tickClk.quietView := by simp [State.tick]

theorem waits_clockView : s.chWaits.isoWaits.clockView = s.clockView := (isoWaits_clockView _).trans (chWaits_clockView s)

/-- The queue waits while time passes. -/
theorem tick_pending : s.tick.pending = s.pending :=
  calc s.tick.pending
      = s.chWaits.isoWaits.tickClk.pending := pending_of_clockView (clockView_of_quietView (tick_quietView s))
    _ = s.chWaits.isoWaits.pending := rfl
    _ = s.pending := pending_of_clockView (waits_clockView s)

theorem tick_cyc : s.tick.clk.cyc = s.clk.cyc + 1 :=
  calc s.tick.clk.cyc
      = s.chWaits.isoWaits.tickClk.clk.cyc := congrArg Clk.cyc (clk_of_clockView (clockView_of_quietView (tick_quietView s)))
    _ = s.chWaits.isoWaits.clk.cyc + 1 := rfl
    _ = s.clk.cyc + 1 := by rw [clk_of_clockView (waits_clockView s)]

/-- 06 R135: device time advances while the C-die runs. -/
theorem tick_dt : s.tick.clk.dt = if s.live then (s.clk.dt + dtStep s.clk.rate) % 2 ^ 96 else s.clk.dt :=
  calc s.tick.clk.dt
      = s.chWaits.isoWaits.tickClk.clk.dt := congrArg Clk.dt (clk_of_clockView (clockView_of_quietView (tick_quietView s)))
    _ = if s.live then (s.clk.dt + dtStep s.clk.rate) % 2 ^ 96 else s.clk.dt := by
      rw [← live_of_clockView (waits_clockView s), ← clk_of_clockView (waits_clockView s)]
      rfl

end

/-- With nothing that waited for it, a fabric cycle leaves the channels and the rings as they were. -/
theorem tick_idle {s : State} (hw : s.lch.wait = []) (hi : s.iso.wr = []) : s.tick.lch.chan = s.lch.chan ∧ s.tick.hal = s.hal := by
  have quiet := tick_quietView s
  rw [chWaits_of_none hw, isoWaits_of_none hi] at quiet
  obtain ⟨-, -, -, chan, hal⟩ := by simpa only [State.quietView, Prod.mk.injEq] using quiet
  exact ⟨chan, hal⟩

/-- 06 R135 at RATE 0: 2.5 ns per fabric cycle. -/
theorem dtStep_zero : dtStep 0 = 10737418240 := rfl

theorem step_of_empty {s : State} (h : s.pending = []) : step s = .next s.tick := by rw [step, h]

/-- Settles O42: `tick_cyc` and `tick_dt` for the clock, `State.tick_mem`, `tick_pending` and `tick_idle` for what stays. -/
theorem emptyQueuePassesOneCycle : Obligations.EmptyQueuePassesOneCycle := by
  unfold Obligations.EmptyQueuePassesOneCycle
  intro s empty
  refine ⟨s.tick, step_of_empty empty, tick_cyc s, fun live rate => ?_, fun down => ?_, State.tick_mem s, (tick_pending s).trans empty, tick_idle⟩
  · rw [tick_dt, if_pos live, rate, dtStep_zero]
  · rw [tick_dt, down]
    rfl

end Sys2Proof.Machine
end

section
/-! SUPPORT. The events of a channel's state (08 R190, R193 to R197; 09 R214 to R223, R238): each row under the conditions that `readyChanEvent`
gathers for it; the protective rows through the condition that their member has met. -/
namespace Sys2Proof.Machine
open Sys2Proof

/-! ### A channel written: the Buntings stay -/

/-- A channel written with its Bunting unchanged leaves every channel in its Bunting. -/
theorem setChan_bunt_eq {s : State} {n : Nat} {x : Chan} (hx : x.bunt = (s.chan n).bunt) (k : Nat) :
    ((s.setChan n x).chan k).bunt = (s.chan k).bunt := by
  by_cases hk : k = n
  · subst hk
    simp [hx]
  · rw [State.setChan_chan_ne s x hk]

theorem setChan_bonded {s : State} {n : Nat} {x : Chan} (hx : x.bunt = (s.chan n).bunt) (k : Nat) :
    (s.setChan n x).bonded k = s.bonded k := congrArg (fun b => decide (b < 40)) (setChan_bunt_eq hx k)

theorem setChan_lead {s : State} {n : Nat} {x : Chan} (hx : x.bunt = (s.chan n).bunt) (k : Nat) : (s.setChan n x).lead k = s.lead k := by
  rw [State.lead, State.lead, setChan_bonded hx, setChan_bunt_eq hx]

/-! ### The end of a turn-on and of a turn-off (08 R190, R193 to R195; 09 R216) -/

section
variable {s : State} {ch : Nat}

theorem turnOnEnd_pwm (hr : readyChanEvent (.turnOnEnd ch) s = true) (hact : (s.chan (s.lead ch)).act = .pwm) :
    exec (.turnOnEnd ch) s = .next ((s.startPwm (s.lead ch) (s.chNow (s.lead ch)) false).relimitAll (s.lead ch)) := by
  simp only [readyChanEvent, Bool.and_eq_true, beq_iff_eq, Bool.or_eq_true, decide_eq_true_eq] at hr
  obtain ⟨⟨index, st⟩, due⟩ := hr
  rw [exec_turnOnEnd, execTurnOnEnd, unitEvent_next _ (decide_eq_true index)]
  simp [st, due, hact]

theorem turnOnEnd_on (hr : readyChanEvent (.turnOnEnd ch) s = true) (hact : (s.chan (s.lead ch)).act ≠ .pwm) :
    exec (.turnOnEnd ch) s = .next ((s.goCh (s.lead ch) .on fun x => { x with
      out := true, onCyc := s.cyc, limCyc := 0, scCyc := 0, limAt := s.cyc, scAt := s.cyc, limPer := x.limit }).relimitAll (s.lead ch)) := by
  simp only [readyChanEvent, Bool.and_eq_true, beq_iff_eq, Bool.or_eq_true, decide_eq_true_eq] at hr
  obtain ⟨⟨index, st⟩, due⟩ := hr
  rw [exec_turnOnEnd, execTurnOnEnd, unitEvent_next _ (decide_eq_true index)]
  simp [st, due, hact, Chan.output]

theorem turnOffEnd_off (hr : readyChanEvent (.turnOffEnd ch) s = true) (hclamp : (s.chan (s.lead ch)).clampShut = 0) :
    exec (.turnOffEnd ch) s = .next (s.goCh (s.lead ch) .off fun x => { x.output false with offAt := s.cyc, offRead := 0 }) := by
  simp only [readyChanEvent, Bool.and_eq_true, beq_iff_eq] at hr
  obtain ⟨index, st⟩ := hr
  rw [exec_turnOffEnd, execTurnOffEnd, unitEvent_next _ index]
  simp [st, hclamp]

theorem turnOffEnd_clamped (hr : readyChanEvent (.turnOffEnd ch) s = true) (hclamp : (s.chan (s.lead ch)).clampShut ≠ 0) :
    exec (.turnOffEnd ch) s = .next (((s.shutdown (s.lead ch) (s.chan (s.lead ch)).clampShut).settle).releaseOrphan (s.lead ch)) := by
  simp only [readyChanEvent, Bool.and_eq_true, beq_iff_eq] at hr
  obtain ⟨index, st⟩ := hr
  rw [exec_turnOffEnd, execTurnOffEnd, unitEvent_next _ index]
  simp [st, hclamp]

/-! ### Protective conditions (09 R214 to R218) -/

/-- A row whose condition its member has met shuts the channel down. -/
theorem protectRow_met {cyc cause : Nat} (h : (cyc, cause) ∈ s.trips ch) : s.protectRow ch cause = (s.protect ch).settle := by
  have met : ((s.trips ch).any fun p => p.2 == cause) = true := List.any_eq_true.mpr ⟨_, h, beq_self_eq_true cause⟩
  rw [State.protectRow, met]
  rfl

/-- Outside an undervoltage the conditions of a member are those that its own state and the junction now give. -/
theorem trips_powered (huv : (s.grp (chGroup ch)).uv = false) :
    s.trips ch = (s.chan ch).tripsAt ch s.cyc (decide (175 ≤ s.tjNow ch)) (decide (60 ≤ s.tjNow ch - (s.pdie (chDie ch)).tref)) := by
  simp [State.trips, huv]

theorem slewDeadline_ready (hr : readyChanEvent (.slewDeadline ch) s = true) : exec (.slewDeadline ch) s = .next (s.protect ch).settle := by
  simp only [readyChanEvent, Bool.and_eq_true, Bool.not_eq_true', beq_iff_eq] at hr
  obtain ⟨⟨⟨⟨⟨index, heavy⟩, rising⟩, out⟩, late⟩, powered⟩ := hr
  have met : ((s.chan ch).t0 + msCyc 10 + 200, 5) ∈ s.trips ch := by
    rw [trips_powered powered]
    simp [Chan.tripsAt, heavy, rising, out, of_decide_eq_true late]
  rw [exec_slewDeadline, execSlewDeadline, unitEvent_next _ index, protectRow_met met]

theorem protectOc_ready (hr : readyChanEvent (.protectOc ch) s = true) : exec (.protectOc ch) s = .next (s.protect ch).settle := by
  simp only [readyChanEvent, Bool.and_eq_true, Bool.not_eq_true'] at hr
  obtain ⟨⟨⟨⟨index, steady⟩, limit⟩, late⟩, powered⟩ := hr
  have met : ((s.chan ch).limAt + (tlimCyc ch - (s.chan ch).limCyc), 1) ∈ s.trips ch := by
    rw [trips_powered powered]
    simp [Chan.tripsAt, steady, limit, of_decide_eq_true late]
  rw [exec_protectOc, execProtectOc, unitEvent_next _ index, protectRow_met met]

theorem protectSc_ready (hr : readyChanEvent (.protectSc ch) s = true) : exec (.protectSc ch) s = .next (s.protect ch).settle := by
  simp only [readyChanEvent, Bool.and_eq_true, Bool.not_eq_true'] at hr
  obtain ⟨⟨⟨⟨index, steady⟩, low⟩, late⟩, powered⟩ := hr
  have met : ((s.chan ch).scAt + (usCyc 20 - (s.chan ch).scCyc), 2) ∈ s.trips ch := by
    rw [trips_powered powered]
    simp [Chan.tripsAt, steady, low, of_decide_eq_true late]
  rw [exec_protectSc, execProtectSc, unitEvent_next _ index, protectRow_met met]

/-- The state that holds a junction reading of channel `ch`. -/
def State.readsTj (s : State) (ch : Nat) (tj : Int) : State := s.setChan ch { s.chan ch with tj := tj }

theorem readsTj_lead (tj : Int) (k : Nat) : (s.readsTj ch tj).lead k = s.lead k :=
  setChan_lead (x := { s.chan ch with tj := tj }) rfl k

/-- A reading leaves each channel's state and output as they are. -/
theorem readsTj_falling (tj : Int) (k : Nat) : ((s.readsTj ch tj).chan k).falling = (s.chan k).falling := by
  by_cases hk : k = ch
  · rw [hk, State.readsTj, State.setChan_chan]
    rfl
  · rw [State.readsTj, State.setChan_chan_ne _ _ hk]

theorem readsTj_driven (tj : Int) : ((s.readsTj ch tj).chan ch).driven = (s.chan ch).driven := by
  rw [State.readsTj, State.setChan_chan]
  rfl

/-- A reading while the output does not fall: the row acts on the state that holds the reading. -/
theorem thermal_steady {cause : Nat} {tj : Int} {met : Bool} (hf : (s.chan (s.lead ch)).falling = false) :
    s.thermal ch cause tj met = (s.readsTj ch tj).protectRow ch cause := by
  have still : ((s.readsTj ch tj).chan ((s.readsTj ch tj).lead ch)).falling = false := by
    rw [readsTj_falling, readsTj_lead, hf]
  exact if_neg fun both => Bool.false_ne_true (still.symm.trans both.2)

theorem protectOt_ready {tj : Int} (hr : readyChanEvent (.protectOt ch tj) s = true) (hf : (s.chan (s.lead ch)).falling = false) :
    exec (.protectOt ch tj) s = .next ((s.readsTj ch tj).protect ch).settle := by
  simp only [readyChanEvent, State.tells, Bool.and_eq_true, Bool.not_eq_true', beq_iff_eq] at hr
  obtain ⟨⟨⟨⟨index, reading⟩, hot⟩, driven⟩, powered⟩ := hr
  have reads : (s.readsTj ch tj).tjNow ch = tj := reading
  have met : ((s.readsTj ch tj).cyc, 3) ∈ (s.readsTj ch tj).trips ch := by
    rw [trips_powered (s := s.readsTj ch tj) powered, reads]
    simp [Chan.tripsAt, readsTj_driven, driven, of_decide_eq_true hot]
  rw [exec_protectOt, execProtectOt, unitEvent_next _ index, thermal_steady hf, protectRow_met met]

theorem protectDt_ready {tj : Int} (hr : readyChanEvent (.protectDt ch tj) s = true) (hf : (s.chan (s.lead ch)).falling = false) :
    exec (.protectDt ch tj) s = .next ((s.readsTj ch tj).protect ch).settle := by
  simp only [readyChanEvent, State.tells, Bool.and_eq_true, Bool.not_eq_true', beq_iff_eq] at hr
  obtain ⟨⟨⟨⟨index, reading⟩, warm⟩, driven⟩, powered⟩ := hr
  have reads : (s.readsTj ch tj).tjNow ch = tj := reading
  have warm : 60 ≤ tj - ((s.readsTj ch tj).pdie (chDie ch)).tref := of_decide_eq_true warm
  have met : ((s.readsTj ch tj).cyc, 4) ∈ (s.readsTj ch tj).trips ch := by
    rw [trips_powered (s := s.readsTj ch tj) powered, reads]
    simp [Chan.tripsAt, readsTj_driven, driven, warm]
  rw [exec_protectDt, execProtectDt, unitEvent_next _ index, thermal_steady hf, protectRow_met met]

/-! ### Pulse-width modulation (08 R196, R197, R206; 09 R222) -/

theorem pwmPeriodStart_ready (hr : readyChanEvent (.pwmPeriodStart ch) s = true) :
    exec (.pwmPeriodStart ch) s =
      let m := s.lead ch
      let c := s.chan m
      let on := onCycles m (s.grp (chGroup m)).mv2 c.duty c.cfg
      let mean := fun (x : Chan) => if x.synced && x.onN != 0 then x.filter (divRI x.onSum x.onN) else x
      .next (s.modCh m fun x => { mean x with
        out := decide (on ≠ 0), perAt := s.cyc, perOn := on, per := (periodIndex c.cfg c.grid (s.chNow m)).1, gridOk := true, onSum := 0, onN := 0,
        limCyc := if (mean x).limPer then (mean x).limCyc else 0, scCyc := if (mean x).limPer then (mean x).scCyc else 0,
        limPer := (mean x).limit }) := by
  simp only [readyChanEvent, Bool.and_eq_true, bne_iff_ne] at hr
  obtain ⟨⟨⟨index, runs⟩, powered⟩, begins⟩ := hr
  rw [exec_pwmPeriodStart, execPwmPeriodStart, unitEvent_next _ index]
  dsimp only
  rw [if_pos ⟨runs, powered, begins⟩]

theorem pwmOffEdge_ready (hr : readyChanEvent (.pwmOffEdge ch) s = true) :
    exec (.pwmOffEdge ch) s = .next ((s.modCh (s.lead ch) fun x => { x with out := false }).relimitAll (s.lead ch)) := by
  simp only [readyChanEvent, Bool.and_eq_true] at hr
  obtain ⟨⟨⟨index, runs⟩, out⟩, passed⟩ := hr
  rw [exec_pwmOffEdge, execPwmOffEdge, unitEvent_next _ index]
  dsimp only
  rw [if_pos ⟨runs, out, of_decide_eq_true passed⟩]

/-! ### Retries (09 R221 to R223) -/

theorem retryRestart_ready (hr : readyChanEvent (.retryRestart ch) s = true) :
    exec (.retryRestart ch) s = .next (s.requestTurnOn (s.lead ch) .self 0).settle := by
  simp only [readyChanEvent, Bool.and_eq_true, beq_iff_eq, bne_iff_ne] at hr
  obtain ⟨⟨⟨⟨⟨index, waits⟩, rested⟩, cool⟩, commanded⟩, powered⟩ := hr
  rw [exec_retryRestart, execRetryRestart, unitEvent_next _ index]
  dsimp only
  rw [if_pos ⟨waits, of_decide_eq_true rested, cool, commanded, powered⟩]

theorem retryCounterReset_ready (hr : readyChanEvent (.retryCounterReset ch) s = true) :
    exec (.retryCounterReset ch) s = .next (s.modCh (s.lead ch) fun x => { x with retry := 0 }) := by
  simp only [readyChanEvent, Bool.and_eq_true, Bool.or_eq_true, beq_iff_eq] at hr
  obtain ⟨⟨⟨index, runs⟩, unlimited⟩, long⟩ := hr
  rw [exec_retryCounterReset, execRetryCounterReset, unitEvent_next _ index]
  dsimp only
  rw [if_pos ⟨runs, unlimited, of_decide_eq_true long⟩]

end

/-- Settles O12, row by row: the protective rows by the condition met (`protectRow_met`); OHOLD's end by its own branch, where the channel is
orphaned as log 38 has it. -/
theorem channelStateEventsComplete : Obligations.ChannelStateEventsComplete := by
  unfold Obligations.ChannelStateEventsComplete
  intro s ch
  refine ⟨turnOnEnd_pwm, turnOnEnd_on, turnOffEnd_off, turnOffEnd_clamped, slewDeadline_ready, protectOc_ready, protectSc_ready,
    fun _ => protectOt_ready, fun _ => protectDt_ready, pwmPeriodStart_ready, pwmOffEdge_ready, retryRestart_ready, retryCounterReset_ready,
    fun hr => ?_⟩
  simp only [readyChanEvent, Bool.and_eq_true, beq_iff_eq] at hr
  obtain ⟨⟨index, held⟩, passed⟩ := hr
  rw [exec_orphanHoldEnd, execOrphanHoldEnd, unitEvent_next _ index]
  dsimp only
  rw [if_pos ⟨held, of_decide_eq_true passed⟩]

end Sys2Proof.Machine
end

section
/-! SUPPORT. The measurements of the channels, the supply groups and the dies (08 R203 to R206; 09 R215, R228 to R239): what a change of every
member leaves alone, what current limiting, a sample and an off-state test show, and each row under the conditions of `readyChanEvent`. -/
namespace Sys2Proof.Machine
open Sys2Proof

/-! ### A change of every member (08 R200) -/

/-- A change of the members touches the channels alone. -/
theorem modCh_frame (s : State) (n : Nat) (f : Chan → Chan) : (s.modCh n f).adm = s.adm ∧ (s.modCh n f).hal = s.hal :=
  List.foldlRecOn (s.members n) _ (motive := fun t : State => t.adm = s.adm ∧ t.hal = s.hal) ⟨rfl, rfl⟩ fun _ same _ _ => same

/-- A channel that is no member stays. -/
theorem modCh_other {s : State} {n k : Nat} (f : Chan → Chan) (hk : k ∉ s.members n) : (s.modCh n f).chan k = s.chan k :=
  List.foldlRecOn (s.members n) _ (motive := fun t : State => t.chan k = s.chan k) rfl fun t same m hm =>
    (State.setChan_chan_ne t _ fun (eq : k = m) => hk (eq.symm ▸ hm)).trans same

/-- What the change leaves of a channel record, it leaves of every channel. -/
theorem modCh_keeps {α : Type} (view : Chan → α) {f : Chan → Chan} (hf : ∀ c, view (f c) = view c) (s : State) (n k : Nat) :
    view ((s.modCh n f).chan k) = view (s.chan k) :=
  List.foldlRecOn (s.members n) _ (motive := fun t : State => view (t.chan k) = view (s.chan k)) rfl fun t same m _ => by
    by_cases hk : k = m
    · rw [hk, State.setChan_chan, hf, ← hk, same]
    · rw [State.setChan_chan_ne t _ hk, same]

theorem setChan_members {s : State} {n : Nat} {x : Chan} (hx : x.bunt = (s.chan n).bunt) (k : Nat) :
    (s.setChan n x).members k = s.members k := by
  rw [State.members, State.members, setChan_bonded hx, setChan_lead hx]
  rfl

/-- A raise leaves the channels alone. -/
theorem raise_chan (s : State) (src info k : Nat) : (s.raise src info).chan k = s.chan k :=
  congrArg (fun v : Clk × Nat × List Instr × Tab Chan × Hal => look (fun _ => ({} : Chan)) v.2.2.2.1 k) (raise_quietView s src info false)

/-! ### Current limiting (09 R214, R215) -/

/-- What a channel's record shows of the limiting: it is on, the load, its start, the low voltage; and the state and the output. -/
def Chan.limitView (c : Chan) : Bool × Nat × Nat × Bool × ChState × Bool := (c.limit, c.load, c.limAt, c.scOn, c.st, c.out)

/-- The event writes its channel, and its members' second without limiting starts again where the channel has been limiting (09 R223). -/
theorem relimit_writes (s : State) (ch : Nat) :
    let c := s.chan ch
    let on := c.driven && c.out && decide (c.limitNow ch s.cyc < c.load)
    ∃ d : Chan,
      s.relimit ch = (if c.limit || on then (s.setChan ch d).modCh ch fun x => { x with onCyc := s.cyc } else s.setChan ch d) ∧
      d.bunt = c.bunt ∧
      d.limitView = (on, c.load, if c.limit then c.limAt else s.cyc, on && decide (100 * c.limV < 40 * ((s.grp (chGroup ch)).mv2 * 2)),
        c.st, c.out) :=
  ⟨_, rfl, rfl, rfl⟩

theorem relimit_limitView (s : State) (ch : Nat) :
    let c := s.chan ch
    let on := c.driven && c.out && decide (c.limitNow ch s.cyc < c.load)
    ((s.relimit ch).chan ch).limitView =
      (on, c.load, if c.limit then c.limAt else s.cyc, on && decide (100 * c.limV < 40 * ((s.grp (chGroup ch)).mv2 * 2)), c.st, c.out) := by
  intro c on
  obtain ⟨d, run, -, shows⟩ := relimit_writes s ch
  rw [← shows, run]
  split
  · exact (modCh_keeps Chan.limitView (fun _ => by rfl) _ ch ch).trans (congrArg Chan.limitView (State.setChan_chan s ch d))
  · rw [State.setChan_chan]

theorem relimit_other {s : State} {ch n : Nat} (hm : n ∉ s.members ch) (hn : n ≠ ch) : (s.relimit ch).chan n = s.chan n := by
  obtain ⟨d, run, bunt, -⟩ := relimit_writes s ch
  rw [run]
  split
  · rw [modCh_other _ (by rwa [setChan_members bunt]), State.setChan_chan_ne _ _ hn]
  · rw [State.setChan_chan_ne _ _ hn]

theorem relimit_frame (s : State) (ch : Nat) : (s.relimit ch).adm = s.adm ∧ (s.relimit ch).hal = s.hal := by
  obtain ⟨d, run, -, -⟩ := relimit_writes s ch
  rw [run]
  split
  · exact modCh_frame _ _ _
  · exact ⟨rfl, rfl⟩

/-- The row of the limiting: the load of the operands, the limiting that follows from it, and nothing of the channels beside the members. -/
theorem currentLimiting_shows {s : State} {ch ma v : Nat} (hr : readyChanEvent (.currentLimiting ch ma v) s = true) :
    ∃ t : State, exec (.currentLimiting ch ma v) s = .next t ∧
      let c := s.chan ch
      let on := c.driven && c.out && decide (c.limitNow ch s.cyc < ma)
      (t.chan ch).limitView =
        (on, ma, if c.limit then c.limAt else s.cyc, on && decide (100 * v < 40 * ((s.grp (chGroup ch)).mv2 * 2)), c.st, c.out) ∧
      (∀ n, n ∉ s.members ch → n ≠ ch → t.chan n = s.chan n) ∧ t.mem = s.mem ∧ t.adm = s.adm ∧ t.hal = s.hal := by
  let x : Chan := { s.chan ch with load := ma, limV := v }
  refine ⟨(s.setChan ch x).relimit ch, unitEvent_next _ hr, ?_, fun n hm hn => ?_, State.relimit_mem _ _, relimit_frame _ _⟩
  · rw [relimit_limitView, State.setChan_chan]
    rfl
  · rw [relimit_other (by rwa [setChan_members (x := x) rfl]) hn, State.setChan_chan_ne _ _ hn]

/-! ### Samples (08 R204 to R206) -/

/-- What a channel's record shows of its last sample, and its state. -/
def Chan.sampleView (c : Chan) : Int × Bool × Bool × Int × Int × Nat × Nat × Nat × ChState :=
  (c.smp, c.fine, c.sat, c.vout, c.tj, c.smpT, c.smpNext, c.curPk, c.st)

theorem capture0_sampleView (c : Chan) (n : Nat) : (c.capture0 n).sampleView = c.sampleView := rfl

theorem filter_sampleView (c : Chan) (x : Int) : (c.filter x).sampleView = c.sampleView := by
  unfold Chan.filter
  dsimp only
  split <;> rfl

/-- A sample counts towards the mean of the period under PWMSYNC, else it goes through the filter (08 R206); neither changes the sample. -/
theorem averaged_sampleView (c : Chan) (x : Int) (p : Prop) [Decidable p] :
    (if c.synced then (if p then { c with onSum := c.onSum + x, onN := c.onN + 1 } else c) else c.filter x).sampleView = c.sampleView := by
  split
  · split <;> rfl
  · exact filter_sampleView c x

theorem magnitude_eq (x : Int) : (if x < 0 then (-x).toNat else x.toNat) = x.natAbs := by split <;> omega

/-- The row of a sample: it writes its channel and its group's reading, and the runs of open load and imbalance follow. -/
theorem currentSample_shows {s : State} {ch vb : Nat} {cur vout tj : Int} (hr : readyChanEvent (.currentSample ch cur vout tj vb) s = true) :
    ∃ c : Chan, exec (.currentSample ch cur vout tj vb) s =
        .next ((((s.setChan ch c).setGrp (chGroup ch) ((s.grp (chGroup ch)).read vb s.cyc s.sys.variant)).olRun ch).imbRun ch) ∧
      let x := currentSample ch (s.chan ch).cfg cur
      let at_ := s.chNow ch / 20000 * 20000
      c.sampleView = (x.1, x.2.1, x.2.2 || (voltSample vout).2, (voltSample vout).1, tj, at_, at_ + 20000,
        Nat.max (s.chan ch).curPk x.1.natAbs, (s.chan ch).st) := by
  simp only [readyChanEvent, Bool.and_eq_true, decide_eq_true_eq] at hr
  obtain ⟨index, due⟩ := hr
  rw [exec_currentSample, execCurrentSample, unitEvent_next _ (decide_eq_true index)]
  dsimp only
  rw [if_neg (Nat.not_lt.mpr due)]
  refine ⟨_, rfl, ?_⟩
  rw [capture0_sampleView, averaged_sampleView, ← magnitude_eq]
  rfl

/-! ### Off-state tests (09 R229, R230) -/

/-- The reading of an off-state test with OFFTEST: 1 load present, 2 open load, 3 short to battery, 0 none of them. -/
def offReading (v1 v2 : Int) : Nat :=
  if v1 < 2000 ∧ v2 < 2000 then 1 else if 2000 ≤ v1 ∧ v2 < 2000 then 2 else if 2000 ≤ v1 ∧ 2000 ≤ v2 then 3 else 0

theorem raise_if_chan (c : Prop) [Decidable c] (s : State) (src info k : Nat) :
    (if c then s.raise src info else s).chan k = s.chan k := by
  split
  · exact raise_chan s src info k
  · rfl

/-- A run that has lasted `n` cycles began that long ago. -/
theorem ranFor_getD {o : Option Nat} {n cyc : Nat} (h : ranFor o n cyc = true) : o.getD cyc + n ≤ cyc := by
  cases o with
  | none => exact absurd h Bool.false_ne_true
  | some t => exact of_decide_eq_true h

/-- The row of an off-state test. With OFFTEST two equal readings in a row set the flag of their kind, or clear both; without it the run of
high outputs sets STB. -/
theorem offStateTest_shows {s : State} {ch : Nat} {v1 v2 : Int} (hr : readyChanEvent (.offStateTest ch v1 v2) s = true) :
    ∃ t : State, exec (.offStateTest ch v1 v2) s = .next t ∧
      let c := s.chan ch
      let rd := offReading v1 v2
      (bit (le c.cfg 30 2) 14 = true → c.offRead = rd →
        (t.chan ch).stb = (rd == 3 || c.stb && !(rd == 1)) ∧ (t.chan ch).olOff = (rd == 2 || c.olOff && !(rd == 1))) ∧
      (bit (le c.cfg 30 2) 14 = false → ((s.grp (chGroup ch)).mv2 : Int) * 2 ≤ 2 * v2 → ranFor c.stbAt (msCyc 10) s.cyc = true →
        (t.chan ch).stb = true ∧ (t.chan ch).olOff = c.olOff) ∧
      (t.chan ch).testAt = s.cyc ∧ (t.chan ch).st = .off ∧ (∀ n, n ≠ ch → t.chan n = s.chan n) ∧ t.mem = s.mem := by
  simp only [readyChanEvent, Bool.and_eq_true, Bool.or_eq_true, Bool.not_eq_true', beq_iff_eq, decide_eq_true_eq] at hr
  obtain ⟨⟨⟨index, off⟩, settled⟩, rested⟩ := hr
  have runs : ¬ ((s.chan ch).st ≠ .off ∨ s.cyc < (s.chan ch).offAt + msCyc 10 ∨
      (bit (le (s.chan ch).cfg 30 2) 14 = true ∧ s.cyc < (s.chan ch).testAt + msCyc 10)) := by
    rcases rested with plain | rested
    · simp [off, settled, plain]
    · simp [off, settled, rested]
  rw [exec_offStateTest, execOffStateTest, unitEvent_next _ (decide_eq_true index)]
  dsimp only
  rw [if_neg runs]
  refine ⟨_, rfl, ?_⟩
  simp only [raise_if_chan, State.setChan_chan]
  refine ⟨fun test twice => ?_, fun test high ran => ?_, trivial, off, fun n hn => State.setChan_chan_ne _ _ hn, by simp⟩
  · simp [test, twice, offReading]
  · simp [test, high, ranFor_getD ran]

/-! ### Open load and imbalance (08 R203; 09 R228) -/

section
variable {s : State} {ch g d mv : Nat}

theorem openLoadOn_ready (hr : readyChanEvent (.openLoadOn ch) s = true) :
    exec (.openLoadOn ch) s =
      let m := s.lead ch
      .next (if (s.chan m).olOn then s.modCh m fun x => { x with olOn := false }
             else (s.modCh m fun x => { x with olOn := true }).raise 0x32 m) := by
  simp only [readyChanEvent, Bool.and_eq_true] at hr
  obtain ⟨⟨index, runs⟩, ran⟩ := hr
  rw [exec_openLoadOn, execOpenLoadOn, unitEvent_next _ index]
  cases on : (s.chan (s.lead ch)).olOn with
  | true =>
    simp only [on, if_true] at ran
    simp [on, runs, ran]
  | false =>
    simp only [on, Bool.false_eq_true, if_false] at ran
    simp [on, runs, ran]

theorem buntingImbalance_ready (hr : readyChanEvent (.buntingImbalance ch) s = true) :
    exec (.buntingImbalance ch) s =
      let m := s.lead ch
      .next ((s.setBunt m { s.bunt m with imbal := !(s.bunt m).imbal }).condition 0x39 m (!(s.bunt m).imbal)) := by
  simp only [readyChanEvent, Bool.and_eq_true] at hr
  obtain ⟨⟨index, bonded⟩, ran⟩ := hr
  rw [exec_buntingImbalance, execBuntingImbalance, unitEvent_next _ index]
  cases imbal : (s.bunt (s.lead ch)).imbal with
  | true =>
    simp only [imbal, if_true, Bool.and_eq_true, beq_iff_eq, decide_eq_true_eq] at ran
    simp [imbal, bonded, ran]
  | false =>
    simp only [imbal, Bool.false_eq_true, if_false, Bool.and_eq_true, beq_iff_eq, decide_eq_true_eq] at ran
    simp [imbal, bonded, ran]

/-! ### Supply groups (09 R232 to R234) -/

theorem groupUndervoltage_ready (hr : readyChanEvent (.groupUndervoltage g mv) s = true) :
    exec (.groupUndervoltage g mv) s =
      let x := (s.grp g).read (mv / 2) s.cyc s.sys.variant
      let s1 := (s.setGrp g x).setGrp g { x with uv := true }
      .next ((((s1.leadsOf fun n => chGroup n == g).foldl (fun s n => s.undervolt n) s1).condition 0x34 g true).settle) := by
  simp only [readyChanEvent, Bool.and_eq_true] at hr
  obtain ⟨⟨index, powered⟩, ran⟩ := hr
  rw [exec_groupUndervoltage, execGroupUndervoltage, unitEvent_next _ index]
  exact congrArg Host.Outcome.next (if_pos ⟨powered, ran⟩)

theorem groupUvRecover_ready (hr : readyChanEvent (.groupUvRecover g mv) s = true) :
    exec (.groupUvRecover g mv) s =
      let x := (s.grp g).read (mv / 2) s.cyc s.sys.variant
      let s1 := ((s.setGrp g x).setGrp g { x with uv := false }).condition 0x34 g false
      let first := fun (n : Nat) => (s1.chan n).inHold || prioOf (s1.chan n).cfg
      .next ((((s1.leadsOf fun n => chGroup n == g && first n) ++ s1.leadsOf fun n => chGroup n == g && !first n).foldl
        (fun s n => s.uvRecover n) s1).settle) := by
  simp only [readyChanEvent, Bool.and_eq_true] at hr
  obtain ⟨⟨index, low⟩, ran⟩ := hr
  rw [exec_groupUvRecover, execGroupUvRecover, unitEvent_next _ index]
  exact congrArg Host.Outcome.next (if_pos ⟨low, ran⟩)

theorem groupOvervoltage_ready (hr : readyChanEvent (.groupOvervoltage g mv) s = true) :
    exec (.groupOvervoltage g mv) s =
      let x := (s.grp g).read (mv / 2) s.cyc s.sys.variant
      .next (((s.setGrp g x).setGrp g { x with ov := !x.ov }).condition 0x35 g (!x.ov)) := by
  simp only [readyChanEvent, Bool.and_eq_true] at hr
  obtain ⟨index, ran⟩ := hr
  rw [exec_groupOvervoltage, execGroupOvervoltage, unitEvent_next _ index]
  dsimp only
  cases ov : ((s.grp g).read (mv / 2) s.cyc s.sys.variant).ov with
  | true =>
    simp only [ov, if_true] at ran
    exact congrArg Host.Outcome.next ((if_neg fun both => Bool.false_ne_true both.1).trans (if_pos ⟨rfl, ran⟩))
  | false =>
    simp only [ov, Bool.false_eq_true, if_false] at ran
    exact congrArg Host.Outcome.next (if_pos ⟨rfl, ran⟩)

/-! ### Dies (09 R231, R237 to R239; 17 R445) -/

theorem dieTempHigh_ready {temp : Int} (hr : readyChanEvent (.dieTempHigh d temp) s = true) :
    exec (.dieTempHigh d temp) s = .next ((s.setPdie d { s.pdie d with tref := temp, hot := true }).condition 0x37 d true) := by
  simp only [readyChanEvent, Bool.and_eq_true, decide_eq_true_eq] at hr
  obtain ⟨index, hot⟩ := hr
  rw [exec_dieTempHigh, execDieTempHigh, unitEvent_next _ (decide_eq_true index)]
  simp [hot]

theorem dieTempNormal_ready {temp : Int} (hr : readyChanEvent (.dieTempNormal d temp) s = true) :
    exec (.dieTempNormal d temp) s = .next ((s.setPdie d { s.pdie d with tref := temp, hot := false }).condition 0x37 d false) := by
  simp only [readyChanEvent, Bool.and_eq_true, decide_eq_true_eq] at hr
  obtain ⟨index, cool⟩ := hr
  rw [exec_dieTempNormal, execDieTempNormal, unitEvent_next _ (decide_eq_true index)]
  simp [cool]

theorem cDieAbsent_pdie (hr : readyChanEvent (.cDieAbsent d) s = true) (hd : d < 2) :
    exec (.cDieAbsent d) s =
      let s1 := s.setPdie d { s.pdie d with absent := true, absentAt := s.cyc, orphan := true }
      .next ((s1.leadsOf fun n => chDie n == d).foldl (fun s n => s.orphanCh n) s1) := by
  simp only [readyChanEvent, Bool.and_eq_true, Bool.or_eq_true, decide_eq_true_eq, if_neg (Nat.ne_of_lt hd)] at hr
  obtain ⟨⟨⟨index, seen⟩, present⟩, gone⟩ := hr
  rw [exec_cDieAbsent, execCDieAbsent, unitEvent_next _ (decide_eq_true index)]
  simp only [if_neg (Nat.ne_of_lt hd)]
  rw [if_pos ⟨seen, present, gone⟩]
  rfl

theorem cDieAbsent_idie (hr : readyChanEvent (.cDieAbsent 2) s = true) :
    exec (.cDieAbsent 2) s =
      .next { s with iso := { s.iso with
        die := { s.iso.die with absent := true, absentAt := s.cyc, orphan := true },
        ch := s.iso.ch.map fun (p : Nat × IsoCh) => if p.2.mode = 2 then (p.1, { p.2 with hold := true }) else p } } := by
  simp only [readyChanEvent, Bool.and_eq_true, Bool.or_eq_true, decide_eq_true_eq, if_true] at hr
  obtain ⟨⟨⟨index, seen⟩, present⟩, gone⟩ := hr
  rw [exec_cDieAbsent, execCDieAbsent, unitEvent_next _ (decide_eq_true index)]
  simp only [if_true]
  rw [if_pos ⟨seen, present, gone⟩]

theorem cDiePresent_pdie (hr : readyChanEvent (.cDiePresent d) s = true) (hd : d < 2) :
    exec (.cDiePresent d) s =
      let s1 := ((s.setPdie d { s.pdie d with absent := false }).realign d).orphanReport d
      .next ((s1.leadsOf fun n => chDie n == d).foldl (fun s n =>
        if (s.chan n).st = .safeHold then
          (s.modCh n fun x => { x with orphaned := true, holds := HoldBy.orphan :: (if s.flt.safe || s.flt.latch then [HoldBy.safe] else []) }).releaseOrphan n
        else s) s1) := by
  simp only [readyChanEvent, Bool.and_eq_true, decide_eq_true_eq, if_neg (Nat.ne_of_lt hd)] at hr
  obtain ⟨⟨⟨index, absent⟩, boots⟩, back⟩ := hr
  rw [exec_cDiePresent, execCDiePresent, unitEvent_next _ (decide_eq_true index)]
  simp only [if_neg (Nat.ne_of_lt hd)]
  rw [if_pos ⟨absent, boots, back⟩]

theorem cDiePresent_idie (hr : readyChanEvent (.cDiePresent 2) s = true) :
    exec (.cDiePresent 2) s = .next { s with iso := { s.iso with die := { s.iso.die with absent := false } } } := by
  simp only [readyChanEvent, Bool.and_eq_true, decide_eq_true_eq, if_true] at hr
  obtain ⟨⟨⟨index, absent⟩, boots⟩, back⟩ := hr
  rw [exec_cDiePresent, execCDiePresent, unitEvent_next _ (decide_eq_true index)]
  simp only [if_true]
  rw [if_pos ⟨absent, boots, back⟩]

end

/-- Settles O13, row by row: limiting, samples and off-state tests by what each shows of its channel. -/
theorem channelMeasurementEventsComplete : Obligations.ChannelMeasurementEventsComplete := by
  unfold Obligations.ChannelMeasurementEventsComplete
  intro s ch g d mv
  refine ⟨fun ma v hr => ?_, fun cur vout tj vb hr => ?_, openLoadOn_ready, fun v1 v2 hr test => ?_, fun v1 v2 hr test high ran => ?_,
    buntingImbalance_ready, groupUndervoltage_ready, groupUvRecover_ready, groupOvervoltage_ready, fun _ => unitEvent_next _,
    fun _ => dieTempHigh_ready, fun _ => dieTempNormal_ready, cDieAbsent_pdie, cDieAbsent_idie, cDiePresent_pdie, cDiePresent_idie⟩
  · obtain ⟨t, run, shows, others, mem, adm, hal⟩ := currentLimiting_shows hr
    simp only [Chan.limitView, Prod.mk.injEq] at shows
    obtain ⟨limit, load, start, low, st, out⟩ := shows
    exact ⟨t, run, limit, load, start, low, st, out, others, mem, adm, hal⟩
  · obtain ⟨c, run, shows⟩ := currentSample_shows hr
    simp only [Chan.sampleView, Prod.mk.injEq] at shows
    obtain ⟨smp, fine, sat, volt, junction, time, next, peak, st⟩ := shows
    refine ⟨_, run, ?_⟩
    have written : ((s.setChan ch c).setGrp (chGroup ch) ((s.grp (chGroup ch)).read vb s.cyc s.sys.variant)).chan ch = c :=
      State.setChan_chan s ch c
    simp only [written, State.setGrp_grp]
    exact ⟨smp, fine, sat, volt, junction, time, next, peak, st, rfl, fun n hn => State.setChan_chan_ne s c hn, rfl, rfl⟩
  · obtain ⟨t, run, tested, -, time, st, others, mem⟩ := offStateTest_shows hr
    refine ⟨t, run, fun low1 low2 before => ?_, fun high1 low2 before => ?_, fun high1 high2 before => ?_, time, st, others, mem⟩
    · have reading : offReading v1 v2 = 1 := if_pos ⟨low1, low2⟩
      simpa [reading] using tested test (before.trans reading.symm)
    · have reading : offReading v1 v2 = 2 := by simp [offReading, high1, low2, Int.not_lt.mpr high1]
      simpa [reading, and_comm] using tested test (before.trans reading.symm)
    · have reading : offReading v1 v2 = 3 := by simp [offReading, high1, high2, Int.not_lt.mpr high1, Int.not_lt.mpr high2]
      simpa [reading] using tested test (before.trans reading.symm)
  · obtain ⟨t, run, -, plain, -, -, others, mem⟩ := offStateTest_shows hr
    obtain ⟨stb, olOff⟩ := plain test high ran
    exact ⟨t, run, stb, olOff, others, mem⟩

end Sys2Proof.Machine
end

section
/-! SUPPORT. Port traffic (10 R247, R264; 11 R276 to R288): each row of a port's transmission, gates and reception, and of the timers of the
address table and of the recovery streams, under the conditions that `readyFabric` gathers for it. -/
namespace Sys2Proof.Machine
open Sys2Proof

section
variable {s : State} {p : Nat}

/-! ### Transmission (11 R281, R288) -/

/-- A fragment that is not due to end stays on the line. -/
theorem fragmentEnd_goesOn {x : Tx} (hx : (s.port p).tx = some x) (hc : (s.cutDue p x).isNone = true) : s.fragmentEnd p = s := by
  simp only [State.fragmentEnd, hx, Option.isNone_iff_eq_none.mp hc]

/-- The end of a frame whose last octet has left (10 R250, R264; 11 R277; 13 R344). -/
theorem transmitEnd_ready {dma buf : Nat} {x : Tx} (hr : readyFabric (.transmitEnd p dma buf) s = true) (hx : (s.port p).tx = some x) :
    exec (.transmitEnd p dma buf) s =
      let s1 := s.credits p
      let f := s1.frameOf x.frame
      let int := decide (16 ≤ p ∧ p ≤ 18)
      let out := (if int then f.header p else []) ++ (if x.stomp then invertFcs x.bytes else x.bytes).drop x.sent
      let s2 := if x.express then s1 else s1.freeStore p x.cls x.frame
      let s3 := (s2.dropRef x.frame).setPort p { s2.port p with tx := none, last := out }
      let s4 := if int then s3.deliverFrame dma buf (s3.owner 7 f.vid) out else s3
      let s5 := if isT1s p then s4.segEvent (p + 6) else s4
      .next (if x.stomp then { s5 with fab := { s5.fab with stomp := satAdd 32 s5.fab.stomp 1 } } else s5.portCnt p 1) := by
  simp only [readyFabric, hx, Bool.and_eq_true] at hr
  obtain ⟨index, uncut, left⟩ := hr
  rw [exec_transmitEnd, execTransmitEnd, unitEvent_next _ index, fragmentEnd_goesOn hx uncut]
  dsimp only
  rw [hx]
  exact congrArg Host.Outcome.next (if_pos (of_decide_eq_true left))

theorem preemptionVerification_ready {good : Bool} (hr : readyFabric (.preemptionVerification p good) s = true) :
    exec (.preemptionVerification p good) s = .next ((s.setPort p { s.port p with pver := good }).fragmentEnd p) := by
  simp only [readyFabric, Bool.and_eq_true, beq_iff_eq] at hr
  obtain ⟨index, up⟩ := hr
  rw [exec_preemptionVerification, execPreemptionVerification, unitEvent_next _ index, if_pos up]

/-! ### Gates (11 R283) -/

theorem gateEntryChange_ready (hr : readyFabric (.gateEntryChange p) s = true) : exec (.gateEntryChange p) s = .next ((s.credits p).setGates p) := by
  simp only [readyFabric, Bool.and_eq_true] at hr
  obtain ⟨index, live⟩ := hr
  rw [exec_gateEntryChange, execGateEntryChange, unitEvent_next _ index, if_pos live]

theorem gateListSwitch_ready {g : Gcl} (hr : readyFabric (.gateListSwitch p) s = true) (hg : (s.port p).gclNew = some g) :
    exec (.gateListSwitch p) s = .next (((s.credits p).setPort p { (s.credits p).port p with gcl := g, gclNew := none }).setGates p) := by
  simp only [readyFabric, hg, Bool.and_eq_true, decide_eq_true_eq] at hr
  obtain ⟨index, started⟩ := hr
  rw [exec_gateListSwitch, execGateListSwitch, unitEvent_next _ (decide_eq_true index), hg]
  exact congrArg Host.Outcome.next (if_pos started)

/-! ### Timers (11 R278, R287) -/

theorem cbRecoveryReset_ready {i : Nat} (hr : readyFabric (.cbRecoveryReset i) s = true) :
    exec (.cbRecoveryReset i) s = .next (s.setCb i { s.cb i with rcv := none, hist := [] }) := by
  simp only [readyFabric, Bool.and_eq_true] at hr
  obtain ⟨⟨⟨index, recov⟩, started⟩, silent⟩ := hr
  rw [exec_cbRecoveryReset, execCbRecoveryReset, unitEvent_next _ index]
  simp only [recov, started, silent, Bool.and_true, if_true]

theorem fdbAgeout_ready {i : Nat} (hr : readyFabric (.fdbAgeout i) s = true) : exec (.fdbAgeout i) s = .next (s.setFdb i {}) := by
  simp only [readyFabric, Bool.and_eq_true] at hr
  obtain ⟨⟨⟨index, valid⟩, dynamic⟩, aged⟩ := hr
  rw [exec_fdbAgeout, execFdbAgeout, unitEvent_next _ index]
  simp only [valid, dynamic, aged, Bool.and_true, if_true]

/-! ### Reception (10 R247; 11 R276; 14 R361) -/

/-- A frame for which the input buffer has room is counted, taken at ingress as a Pennant frame, or goes on through MACsec. -/
theorem received_roomy {l : List Byte} {ago frags : Nat} {good : Bool} {tag : Option Nat} (hl : l.isEmpty = false)
    (room : s.fifoUsed p + recMax (s.portRec p) ≤ 16384) : s.received p l good ago frags tag =
      let s1 := if p ≤ 5 then (List.range frags).foldl (fun s _ => s.portCnt p 11) s else s
      let s2 := if isT1s p then s1.segEvent (p + 6) else s1
      if good && s1.isPennantEth p l then s1.portCnt p 0
      else match s2.macsecRx p l with
        | (none, s3) => s3
        | (some l, s3) => s3.classify p l good (s3.now - ago * 5 / 2) tag :=
  (if_neg (ne_true_of_eq_false hl)).trans (if_neg (Nat.not_lt.mpr room))

/-- What SP19 receives is no Pennant frame, wakes no segment and has no MACsec (13 R341, R344; 11 R290). -/
theorem received_bridge {l : List Byte} {ago frags : Nat} {tag : Option Nat} (hl : l.isEmpty = false)
    (room : s.fifoUsed 19 + recMax (s.portRec 19) ≤ 16384) :
    s.received 19 l true ago frags tag = s.classify 19 l true (s.now - ago * 5 / 2) tag := by
  rw [received_roomy hl room]
  rfl

/-- A frame reaches the port while its link is up. -/
theorem receive_up {data : List Byte} {good : Bool} {ago dma frags : Nat} (live : s.live = true)
    (link : ((s.port p).lst == .up || (s.port p).lst == .sleepReq) = true) (hp : p ≠ 19) :
    s.receive p data good ago dma frags = s.received p data good ago frags (if 16 ≤ p then some (s.owner 1 dma) else none) := by
  simp only [State.receive, live, link, hp, Bool.and_true, Bool.not_true, Bool.false_eq_true, if_false]

theorem frameIngress_ready {data : List Byte} {good : Bool} {ago dma frags : Nat} (hp : p < 19)
    (hr : readyFabric (.frameIngress p data good ago dma frags) s = true) : exec (.frameIngress p data good ago dma frags) s =
      let s1 := if p ≤ 5 then (List.range frags).foldl (fun s _ => s.portCnt p 11) s else s
      let s2 := if isT1s p then s1.segEvent (p + 6) else s1
      .next ((if good && s1.isPennantEth p data then s1.portCnt p 0
              else match s2.macsecRx p data with
                | (none, s3) => s3
                | (some l, s3) => s3.classify p l good (s3.now - ago * 5 / 2) (if 16 ≤ p then some (s.owner 1 dma) else none)).sendDue) := by
  simp only [readyFabric, if_neg (Nat.ne_of_lt hp), Bool.and_eq_true, Bool.not_eq_true'] at hr
  obtain ⟨⟨⟨⟨index, live⟩, link⟩, octets⟩, room⟩ := hr
  rw [exec_frameIngress, execFrameIngress, unitEvent_next _ index, receive_up live link (Nat.ne_of_lt hp),
    received_roomy octets (of_decide_eq_true room)]

theorem frameIngress_bridge {data b : List Byte} {good : Bool} {ago dma frags o : Nat} {rest : List (Nat × List Byte)}
    (hr : readyFabric (.frameIngress 19 data good ago dma frags) s = true) (hq : s.brg.eth = (o, b) :: rest) :
    exec (.frameIngress 19 data good ago dma frags) s =
      let s1 : State := { s with brg := { s.brg with eth := rest } }
      .next ((s1.classify 19 (b ++ toLE 4 (crc32 b)) true (s1.now - ago * 5 / 2) (some o)).sendDue) := by
  simp only [readyFabric, Bool.and_eq_true] at hr
  obtain ⟨⟨⟨⟨index, live⟩, link⟩, -⟩, room⟩ := hr
  have octets : (b ++ toLE 4 (crc32 b)).isEmpty = false := by simp [toLE]
  have taken : s.receive 19 data good ago dma frags = ({ s with brg := { s.brg with eth := rest } } : State).received 19
      (b ++ toLE 4 (crc32 b)) true ago frags (some o) := by
    simp only [State.receive, live, link, hq, Bool.and_true, Bool.not_true, Bool.false_eq_true, if_false, if_true]
  rw [exec_frameIngress, execFrameIngress, unitEvent_next _ index, taken]
  exact congrArg (fun t : State => Host.Outcome.next t.sendDue) (received_bridge octets (of_decide_eq_true room))

end

/-- Settles O31, row by row; the delivery of a frame to the operands' channel and the check value of a broken one are the model's choice
(log 59), and so is the recovery state (log 22). What a transmission opportunity drops and chooses stays as the model computes it. -/
theorem portTrafficEventsComplete : Obligations.PortTrafficEventsComplete := by
  unfold Obligations.PortTrafficEventsComplete
  intro s p
  refine ⟨fun hr => ?_, fun _ _ _ => transmitEnd_ready, gateEntryChange_ready, fun _ => gateListSwitch_ready,
    fun _ => preemptionVerification_ready, fun _ => cbRecoveryReset_ready, fun _ => fdbAgeout_ready, fun _ _ _ _ _ => frameIngress_ready,
    fun _ _ _ _ _ _ _ _ => frameIngress_bridge⟩
  simp only [readyFabric, Bool.and_eq_true] at hr
  obtain ⟨⟨index, live⟩, able⟩ := hr
  have run := exec_transmitStart (s := s) p
  rw [execTransmitStart, unitEvent_next _ index, if_neg (by simp [live, able])] at run
  dsimp only at run ⊢
  rewrite [run]
  generalize (List.range 8).foldl _ _ = s1
  generalize s1.pickClass p _ = pick
  rfl

end Sys2Proof.Machine
end

section
/-! SUPPORT. The switch fabric (10 R244 to R261): the slots of an input and of a bank, the gap of a resequencer lane, the leak audit, and what the
discard of an initialisation leaves of every port and of the counters. -/
namespace Sys2Proof.Machine
open Sys2Proof

section
variable {s : State}

/-! ### Banks (10 R248) -/

/-- A bank shows no cell whose return to the free list is due. -/
theorem bank_pr_late {k : Nat} {r : Nat × Nat} (h : r ∈ (s.bank k).pr) : s.fab.slot < r.2 := by
  simpa [State.bank] using (List.mem_filter.mp h).2

/-- While no return is due the free list stands as it was written. -/
theorem bank_free_written {k : Nat} {b : Bank} {l : Tab Bank} (hb : s.fab.bank = put l k b) (late : ∀ r ∈ b.pr, s.fab.slot < r.2) :
    (s.bank k).free = b.free := by
  have stands : look (fun _ => ({} : Bank)) s.fab.bank k = b := by rw [hb, look_put_same]
  have none_due : (b.pr.filter fun r => decide (r.2 ≤ s.fab.slot)) = [] := by simpa using fun c n hr => late (c, n) hr
  simp only [State.bank, stands, none_due, List.isEmpty_nil, if_true]

/-! ### The slots (10 R246 to R251) -/

/-- An input with a cell to write, once in a slot and while no initialisation keeps it. -/
theorem cellWrite_conditions {i ecc : Nat} (hr : readyFabric (.cellWrite i ecc) s = true) :
    decide (i < 20) = true ∧ (!s.live || decide (2 ≤ s.fab.init) || decide (look (fun _ => 0) s.fab.wSlot i = s.fab.slot + 1)) = false ∧
      ∃ cp rest, look (fun _ => []) s.fab.inq i = cp :: rest := by
  simp only [readyFabric, Bool.and_eq_true, bne_iff_ne, decide_eq_true_eq, Bool.not_eq_true', List.isEmpty_eq_false_iff] at hr
  obtain ⟨⟨⟨⟨index, live⟩, started⟩, slot⟩, waiting⟩ := hr
  exact ⟨decide_eq_true index, by simp [live, started, slot], List.exists_cons_of_ne_nil waiting⟩

/-- A bank without a free cell is skipped and counted. -/
theorem cellWrite_skips {i ecc : Nat} (hr : readyFabric (.cellWrite i ecc) s = true) (full : (s.bank ((i + s.fab.slot) % 20)).free = some []) :
    exec (.cellWrite i ecc) s =
      .next { s with fab := { s.fab with wSlot := put s.fab.wSlot i (s.fab.slot + 1), bankSkip := satAdd 32 s.fab.bankSkip 1 } } := by
  obtain ⟨index, free, cp, rest, hq⟩ := cellWrite_conditions hr
  rw [exec_cellWrite, execCellWrite, unitEvent_next _ index]
  dsimp only
  rw [hq]
  dsimp only
  rw [if_neg (ne_true_of_eq_false free), full]
  rfl

/-- What the writing of a cell changes in the tables of the fabric. -/
theorem cellWrite_tables {i c : Nat} {cp : Copy} {rest : List Copy} {free : List Nat} (hr : readyFabric (.cellWrite i 0) s = true)
    (hq : look (fun _ => []) s.fab.inq i = cp :: rest) (hf : (s.bank ((i + s.fab.slot) % 20)).free.getD (List.range 1024) = c :: free) :
    ∃ (t : State) (cell : Cell) (b : Bank), exec (.cellWrite i 0) s = .next t ∧
      t.fab.cells = put s.fab.cells ((i + s.fab.slot) % 20 * 1024 + c) cell ∧
      cell.frame = cp.frame ∧ cell.j = cp.j ∧ cell.inp = i ∧ cell.rd = s.fab.slot + 2 ∧
      t.fab.bank = put s.fab.bank ((i + s.fab.slot) % 20) b ∧ b.free = some free ∧ b.pr = (s.bank ((i + s.fab.slot) % 20)).pr ∧
      t.fab.slot = s.fab.slot ∧ t.fab.wSlot = put s.fab.wSlot i (s.fab.slot + 1) ∧ t.mem = s.mem := by
  obtain ⟨index, taken, -⟩ := cellWrite_conditions hr
  rw [exec_cellWrite, execCellWrite, unitEvent_next _ index]
  dsimp only
  rw [hq]
  dsimp only
  rw [if_neg (ne_true_of_eq_false taken), hf]
  exact ⟨_, _, _, rfl, rfl, rfl, rfl, rfl, rfl, rfl, rfl, rfl, rfl, rfl, rfl⟩

/-- The first free place of the bank holds the cell and leaves the free list (10 R246, R248). -/
theorem cellWrite_writes {i c : Nat} {cp : Copy} {rest : List Copy} {free : List Nat} (hr : readyFabric (.cellWrite i 0) s = true)
    (hq : look (fun _ => []) s.fab.inq i = cp :: rest) (hf : (s.bank ((i + s.fab.slot) % 20)).free.getD (List.range 1024) = c :: free) :
    ∃ t cell, exec (.cellWrite i 0) s = .next t ∧ look? t.fab.cells ((i + s.fab.slot) % 20 * 1024 + c) = some cell ∧
      cell.frame = cp.frame ∧ cell.j = cp.j ∧ cell.inp = i ∧ cell.rd = s.fab.slot + 2 ∧
      (t.bank ((i + s.fab.slot) % 20)).free = some free ∧ look (fun _ => 0) t.fab.wSlot i = s.fab.slot + 1 ∧ t.mem = s.mem := by
  obtain ⟨t, cell, b, run, cells, frame, j, inp, rd, bank, left, pipe, slot, wSlot, mem⟩ := cellWrite_tables hr hq hf
  have late : ∀ r ∈ b.pr, t.fab.slot < r.2 := fun r h => slot ▸ bank_pr_late (pipe ▸ h)
  exact ⟨t, cell, run, cells ▸ look?_put_same _ _ _, frame, j, inp, rd, (bank_free_written bank late).trans left,
    wSlot ▸ look_put_same _ _ _ _, mem⟩

/-- A bank takes part in a slot once, while no initialisation keeps it. -/
theorem cellRead_conditions {k ecc : Nat} (hr : readyFabric (.cellRead k ecc) s = true) :
    decide (k < 20) = true ∧
      (!s.live || decide (2 ≤ s.fab.init) || decide (look (fun _ => 0) s.fab.rSlot k = s.fab.slot + 1)) = false := by
  simp only [readyFabric, Bool.and_eq_true, bne_iff_ne, decide_eq_true_eq] at hr
  obtain ⟨⟨⟨index, live⟩, started⟩, slot⟩ := hr
  exact ⟨decide_eq_true index, by simp [live, started, slot]⟩

/-- The cell of class `c` that bank `k` may read to the output of this slot. -/
def State.readHead (s : State) (k c : Nat) : Option Nat :=
  (look (fun _ => []) (s.bank k).q (qIdx ((k + s.fab.slot) % 20) c)).head?.filter fun idx =>
    decide ((look (fun _ => ({} : Cell)) s.fab.cells (k * 1024 + idx)).rd ≤ s.fab.slot)

/-- The highest class that bank `k` can read from in this slot. -/
def State.readPick (s : State) (k : Nat) : Option Nat :=
  ([7, 6, 5, 4, 3, 2, 1, 0] : List Nat).find? fun c =>
    (s.readHead k c).isSome && (!s.canSend ((k + s.fab.slot) % 20) || s.storeRoom ((k + s.fab.slot) % 20) c)

theorem cellRead_nothing {k ecc : Nat} (hr : readyFabric (.cellRead k ecc) s = true) (hp : s.readPick k = none) :
    exec (.cellRead k ecc) s = .next s := by
  obtain ⟨index, free⟩ := cellRead_conditions hr
  simp only [State.readPick, State.readHead] at hp
  rw [exec_cellRead, execCellRead, unitEvent_next _ index]
  dsimp only
  rw [if_neg (ne_true_of_eq_false free), hp]

theorem cellRead_takes {k ecc c idx : Nat} (hr : readyFabric (.cellRead k ecc) s = true) (hp : s.readPick k = some c)
    (hh : s.readHead k c = some idx) : exec (.cellRead k ecc) s =
      let o := (k + s.fab.slot) % 20
      let cell := look (fun _ => ({} : Cell)) s.fab.cells (k * 1024 + idx)
      let s1 := s.setBank k { s.bank k with q := put (s.bank k).q (qIdx o c) ((look (fun _ => []) (s.bank k).q (qIdx o c)).drop 1),
                                            pr := (s.bank k).pr ++ [(idx, s.fab.slot + 2)] }
      let s2 : State := { s1 with fab := { s1.fab with rSlot := put s1.fab.rSlot k (s.fab.slot + 1), cells := del s1.fab.cells (k * 1024 + idx),
                                                       qcnt := put s1.fab.qcnt (qIdx o c) (s1.qcnt o c - 1) } }
      .next ((s2.resequence o { cell with disc := !s.canSend o, err := cell.err || ecc == 2 }).cellEcc k ecc) := by
  obtain ⟨index, free⟩ := cellRead_conditions hr
  simp only [State.readPick, State.readHead] at hp hh
  rw [exec_cellRead, execCellRead, unitEvent_next _ index]
  dsimp only
  rw [if_neg (ne_true_of_eq_false free), hp]
  dsimp only
  rw [hh]

/-! ### The gap of a lane (10 R254) -/

theorem rsqGap_ready {o i c : Nat} {hd : Nat × Cell} {rest : List (Nat × Cell)} (hr : readyFabric (.rsqGap o i c) s = true)
    (hl : (s.lane (laneIdx o i c)).held = hd :: rest) : exec (.rsqGap o i c) s =
      let n := laneIdx o i c
      let l := s.lane n
      let dist := fun (q : Nat) => (q + 4096 - l.exp % 4096) % 4096
      let m := rest.foldl (fun (m : Nat) x => if dist x.1 < dist m then x.1 else m) hd.1
      let s1 := s.freeCells o c l.cur.length
      let s2 := (s1.setLane n { l with exp := m, cur := [], skip := false, timer := 0, waitDt := s1.now }).releaseRun o i c l.held.length
      let s3 := if (s2.lane n).held.isEmpty then s2.setLane n { s2.lane n with waitDt := 0 } else s2
      .next (({ s3 with fab := { s3.fab with gaps := bump 32 s3.fab.gaps o } } : State).raise 0x43 (o + 256 * i + 8192 * c)) := by
  simp only [readyFabric, Bool.and_eq_true, decide_eq_true_eq] at hr
  obtain ⟨⟨⟨index, -⟩, timeout⟩, missing⟩ := hr
  rw [exec_rsqGap, execRsqGap, unitEvent_next _ (decide_eq_true index)]
  dsimp only
  rw [hl]
  dsimp only
  rw [if_pos ⟨timeout, missing⟩]

/-! ### The discard of an initialisation (10 R261) -/

/-- The frame of a transmission comes from the egress store. -/
def ofStore : Option Tx → Bool
  | some t => !t.express
  | none => false

/-- The discard at port `p`: no frame is ready, and those of the store end on the line with an inverted FCS. -/
def State.discardPort (s : State) (p : Nat) : State :=
  let x := s.port p
  let last := match x.tx with
    | some t => if t.express then x.last else t.broken (s.fragSent p t)
    | none => x.last
  let k := b2n (ofStore x.tx) + b2n (ofStore x.pre)
  let s := s.setPort p { x with ready := [], tx := if ofStore x.tx then none else x.tx, pre := if ofStore x.pre then none else x.pre, last := last }
  { s with fab := { s.fab with stomp := satAdd 32 s.fab.stomp k } }

/-- A port without ready frames that sends at most an express frame. -/
def Port.Emptied (x : Port) : Prop := x.ready = [] ∧ ∀ t, x.tx = some t → t.express = true

theorem discardPort_emptied (s : State) (p : Nat) : ((s.discardPort p).port p).Emptied := by
  have written : ((s.discardPort p).port p).tx = if ofStore (s.port p).tx then none else (s.port p).tx := congrArg Port.tx (State.setPort_port s p _)
  refine ⟨congrArg Port.ready (State.setPort_port s p _), fun t ht => ?_⟩
  rw [written] at ht
  split at ht
  · cases ht
  · next kept => simpa [ofStore, ht] using kept

theorem discardPort_port_ne (s : State) {p q : Nat} (h : q ≠ p) : (s.discardPort p).port q = s.port q := State.setPort_port_ne s _ h

/-- The discard goes through the ports from 0 up. -/
theorem discardPorts_emptied (s : State) {n p : Nat} (hp : p < n) : (((List.range n).foldl State.discardPort s).port p).Emptied := by
  induction n with
  | zero => exact absurd hp (Nat.not_lt_zero p)
  | succ n ih =>
    rw [List.range_succ, List.foldl_append, List.foldl_cons, List.foldl_nil]
    by_cases last : p = n
    · exact last ▸ discardPort_emptied _ _
    · rw [discardPort_port_ne _ last]
      exact ih (by omega)

/-- The discard at every port. -/
def State.discardPorts (s : State) : State := (List.range 20).foldl State.discardPort s

/-- Time, memory and the count of discarded cells stay as the ports are emptied. -/
theorem discardPorts_frame (s : State) :
    s.discardPorts.clk = s.clk ∧ s.discardPorts.fab.reinitCells = s.fab.reinitCells ∧ s.discardPorts.mem = s.mem :=
  List.foldlRecOn (List.range 20) State.discardPort
    (motive := fun d : State => d.clk = s.clk ∧ d.fab.reinitCells = s.fab.reinitCells ∧ d.mem = s.mem) ⟨rfl, rfl, rfl⟩ fun _ same _ _ => same

/-- The instant t1 empties the ports and the fabric's own tables. -/
theorem fabricInitDiscard_ready (hr : readyFabric .fabricInitDiscard s = true) :
    ∃ t, exec .fabricInitDiscard s = .next t ∧ t.fab.init = 2 ∧ t.fab.initAt = s.discardPorts.clk.cyc ∧
      t.fab.inq = [] ∧ t.fab.cells = [] ∧ t.fab.store = [] ∧
      t.fab.reinitCells = satAdd 32 s.discardPorts.fab.reinitCells
        (s.banks (fun b => b.nQueued + b.pw.length) + (s.fab.store.map fun (q : Nat × Nat) => q.2).sum) ∧
      t.net = s.discardPorts.net ∧ t.mem = s.discardPorts.mem := by
  simp only [readyFabric, Bool.and_eq_true, beq_iff_eq, decide_eq_true_eq] at hr
  rw [exec_fabricInitDiscard, execFabricInitDiscard, if_pos hr, State.discardPorts]
  generalize List.range 20 = ports
  exact ⟨_, rfl, rfl, rfl, rfl, rfl, rfl, rfl, rfl, rfl⟩

end

/-- Settles O32, row by row; that a pass of the audit ends with an initialisation is the model's choice (log 59), and so is the discard of what
the inputs hold (log 48). -/
theorem fabricEventsComplete : Obligations.FabricEventsComplete := by
  unfold Obligations.FabricEventsComplete
  intro s i k ecc
  refine ⟨cellWrite_skips, fun cp rest c free hr hq hecc => ?_, fun hr => ⟨cellRead_nothing hr, fun c idx => cellRead_takes hr⟩,
    fun _ _ _ _ => rsqGap_ready, fun hr => congrArg Host.Outcome.next (if_pos hr), fun hr => congrArg Host.Outcome.next (if_pos hr), fun hr => ?_,
    fun hr => congrArg Host.Outcome.next (if_pos (beq_iff_eq.mp hr)), fun hr => ?_⟩
  · subst hecc
    exact cellWrite_writes hr hq
  · obtain ⟨t, run, init, initAt, inq, cells, store, count, net, mem⟩ := fabricInitDiscard_ready hr
    obtain ⟨clk, counted, kept⟩ := discardPorts_frame s
    rw [clk] at initAt
    rw [counted] at count
    have emptied : ∀ n, n < 20 → (t.port n).Emptied := fun n hn => by
      rw [State.port, net]
      exact discardPorts_emptied s hn
    exact ⟨t, run, init, initAt, inq, cells, store, count, emptied, mem.trans kept⟩
  · simp only [readyFabric, Bool.and_eq_true, beq_iff_eq, decide_eq_true_eq] at hr
    exact congrArg Host.Outcome.next (if_pos hr)

end Sys2Proof.Machine
end

section
/-! SUPPORT. Links (11 R271 to R273, R292; 13 R338): each row of a port's link and of its TC10 sleep and wake-up, under the conditions that
`readyNet` gathers for it. -/
namespace Sys2Proof.Machine
open Sys2Proof

section
variable {s : State} {p : Nat}

/-! ### Port kinds (11 R270) -/

/-- A 10BASE-T1S port is no T1 port. -/
theorem isT1_eq_false_of_isT1s (h : isT1s p = true) : isT1 p = false := by
  simp only [isT1s, isT1, Bool.and_eq_true, decide_eq_true_eq, Bool.and_eq_false_iff, decide_eq_false_iff_not] at h ⊢
  omega

/-- A T1 or a 10BASE-T1S port is no USXGMII port. -/
theorem not_usx_of_isT1 (h : isT1 p = true) : ¬ p ≤ 1 := by
  simp only [isT1, Bool.and_eq_true, decide_eq_true_eq] at h
  omega

theorem not_usx_of_isT1s (h : isT1s p = true) : ¬ p ≤ 1 := by
  simp only [isT1s, Bool.and_eq_true, decide_eq_true_eq] at h
  omega

theorem isT1_eq_false_of_usx (h : p ≤ 1) : isT1 p = false := Bool.eq_false_iff.mpr fun t1 => not_usx_of_isT1 t1 h

theorem isT1s_eq_false_of_usx (h : p ≤ 1) : isT1s p = false := Bool.eq_false_iff.mpr fun t1s => not_usx_of_isT1s t1s h

/-! ### Training and loss (11 R271, R272) -/

/-- Block lock on SP00 and SP01; on a T1 port that trains and on a 10BASE-T1S port that is DOWN and awake, the link. -/
theorem linkTrainingDone_ready (hr : readyNet [] (.linkTrainingDone p) s = true) :
    exec (.linkTrainingDone p) s = .next (if p ≤ 1 then (s.setPort p { s.port p with lock := true }).usxCheck p else s.portUp p) := by
  simp only [readyNet, Bool.and_eq_true, Bool.or_eq_true, beq_iff_eq, bne_iff_ne, Bool.not_eq_true', decide_eq_true_eq] at hr
  obtain ⟨index, kind⟩ := hr
  rw [exec_linkTrainingDone, execLinkTrainingDone, unitEvent_next _ (decide_eq_true index)]
  obtain (⟨t1, training⟩ | ⟨⟨⟨t1s, normal⟩, down⟩, awake⟩) | usx := kind
  · rw [if_pos t1, if_pos training, if_neg (not_usx_of_isT1 t1)]
  · simp only [isT1_eq_false_of_isT1s t1s, t1s, normal, down, awake, not_usx_of_isT1s t1s, Bool.false_eq_true, Bool.not_false, and_self, if_false,
      if_true]
  · simp only [isT1_eq_false_of_usx usx, isT1s_eq_false_of_usx usx, usx, Bool.false_eq_true, if_false, if_true]

theorem linkTrainingTimeout_ready (hr : readyNet [] (.linkTrainingTimeout p) s = true) : exec (.linkTrainingTimeout p) s =
    let s1 := (s.endLink p).setLink p .down
    .next (s1.setPort p { s1.port p with retryAt := some (s1.cyc + msCyc 100) }).settle := by
  simp only [readyNet, Bool.and_eq_true, beq_iff_eq, decide_eq_true_eq] at hr
  obtain ⟨⟨index, training⟩, late⟩ := hr
  rw [exec_linkTrainingTimeout, execLinkTrainingTimeout, unitEvent_next _ (decide_eq_true index), if_pos ⟨training, late⟩]

/-- The wait that is over is the segment's on a 10BASE-T1S port (13 R331), the port's own on a T1 port. -/
theorem linkRetryTimer_ready (hr : readyNet [] (.linkRetryTimer p) s = true) : exec (.linkRetryTimer p) s =
    .next (if isT1s p then (s.setSeg (p + 6) { s.seg (p + 6) with retryLink := none }).askNormal (p + 6)
           else (s.setPort p { s.port p with retryAt := none }).linkWanted p) := by
  simp only [readyNet, Bool.and_eq_true] at hr
  obtain ⟨index, due⟩ := hr
  rw [exec_linkRetryTimer, execLinkRetryTimer, unitEvent_next _ index]
  by_cases t1s : isT1s p = true
  · rw [if_pos t1s] at due
    rw [if_pos t1s, if_pos t1s]
    cases wait : (s.seg (p + 6)).retryLink with
    | none => simp [wait] at due
    | some t => exact congrArg Host.Outcome.next (if_pos (by simpa [wait] using due))
  · rw [if_neg t1s] at due
    rw [if_neg t1s, if_neg t1s]
    cases wait : (s.port p).retryAt with
    | none => simp [wait] at due
    | some t => exact congrArg Host.Outcome.next (if_pos (by simpa [wait] using due))

theorem linkLoss_ready (hr : readyNet [] (.linkLoss p) s = true) : exec (.linkLoss p) s =
    .next (if p ≤ 1 then (s.setPort p { s.port p with lock := false, exch := false, txWord := 1 }).usxCheck p else s.lostLink p) := by
  simp only [readyNet, Bool.and_eq_true, Bool.or_eq_true, beq_iff_eq, decide_eq_true_eq, or_assoc] at hr
  obtain ⟨external, kind⟩ := hr
  rw [exec_linkLoss, execLinkLoss, unitEvent_next _ (decide_eq_true (by omega))]
  obtain usx | linked := kind
  · rw [if_pos usx, if_pos usx]
  · rw [if_neg (Nat.not_le.mpr external), if_pos linked]

/-! ### USXGMII (11 R273) -/

theorem mdioPoll_ready {up : Bool} (hr : readyNet [] (.mdioPoll p up) s = true) :
    exec (.mdioPoll p up) s = .next ((s.setPort p { s.port p with mdioUp := up }).usxCheck p) := by
  simp only [readyNet, Bool.and_eq_true] at hr
  obtain ⟨index, live⟩ := hr
  rw [exec_mdioPoll, execMdioPoll, unitEvent_next _ index, if_pos live]

/-- A word is the same as the last one when they agree without their acknowledge bits (log 23). -/
theorem usxgmiiInbandWord_ready {w : Nat} (hr : readyNet [] (.usxgmiiInbandWord p w) s = true) : exec (.usxgmiiInbandWord p w) s =
    let plain := fun (v : Nat) => if bit v 14 then v - 2 ^ 14 else v
    let same := plain w == plain (s.port p).word
    .next ((s.setPort p { s.port p with word := w, txWord := if same then 0x4001 else 1,
                                        exch := same && ((s.port p).exch || bit w 14) }).usxCheck p) := by
  simp only [readyNet, Bool.and_eq_true] at hr
  obtain ⟨⟨index, live⟩, usxgmii⟩ := hr
  rw [exec_usxgmiiInbandWord, execUsxgmiiInbandWord, unitEvent_next _ index]
  exact congrArg Host.Outcome.next (if_neg (by simp [live, usxgmii]))

/-! ### TC10 sleep and wake-up (11 R292; 13 R338) -/

theorem tc10SleepRequestRx_ready (hr : readyNet [] (.tc10SleepRequestRx p) s = true) :
    exec (.tc10SleepRequestRx p) s = .next (s.setLink p .asleep) := by
  simp only [readyNet, Bool.and_eq_true] at hr
  obtain ⟨⟨index, t1⟩, up⟩ := hr
  rw [exec_tc10SleepRequestRx, execTc10SleepRequestRx, unitEvent_next _ index, if_pos (by rw [t1, up]; rfl)]

theorem tc10SleepAckRx_ready (hr : readyNet [] (.tc10SleepAckRx p) s = true) : exec (.tc10SleepAckRx p) s = .next (s.setLink p .asleep) := by
  simp only [readyNet, Bool.and_eq_true] at hr
  obtain ⟨⟨⟨index, t1⟩, asked⟩, inTime⟩ := hr
  rw [exec_tc10SleepAckRx, execTc10SleepAckRx, unitEvent_next _ index, if_pos (by rw [t1, asked, inTime]; rfl)]

theorem tc10SleepAbort_ready (hr : readyNet [] (.tc10SleepAbort p) s = true) : exec (.tc10SleepAbort p) s = .next (s.sleepAborted p) := by
  simp only [readyNet, Bool.and_eq_true] at hr
  obtain ⟨⟨index, t1⟩, asked⟩ := hr
  rw [exec_tc10SleepAbort, execTc10SleepAbort, unitEvent_next _ index, if_pos (by rw [t1, asked]; rfl)]

theorem tc10WakeupRx_ready (hr : readyNet [] (.tc10WakeupRx p) s = true) : exec (.tc10WakeupRx p) s = .next (s.tc10Wake p) := by
  rw [exec_tc10WakeupRx, execTc10WakeupRx, unitEvent_next _ (by simpa only [readyNet] using hr)]

/-- Every NET.WAKE of the port whose deadline has passed fails with TIMEOUT (05 R120). -/
theorem netWakeDeadline_ready (hr : readyNet [] (.netWakeDeadline p) s = true) : exec (.netWakeDeadline p) s =
    let past := fun (w : Nat × Hdr × Nat) => w.1 == p && decide (w.2.2 ≤ s.cyc)
    .next ((s.net.wakeOps.filter past).foldl (fun s (w : Nat × Hdr × Nat) => s.fail w.2.1 .timeout 0x10)
      { s with net := { s.net with wakeOps := s.net.wakeOps.filter fun w => !past w } }) := by
  rw [exec_netWakeDeadline, execNetWakeDeadline, unitEvent_next _ (by simpa only [readyNet] using hr)]

end

/-- Settles O29, row by row; the word sent and what restarts the exchange of a USXGMII port are the model's choice (log 23). -/
theorem linkEventsComplete : Obligations.LinkEventsComplete := by
  unfold Obligations.LinkEventsComplete
  intro s p
  exact ⟨linkTrainingDone_ready, linkTrainingTimeout_ready, linkRetryTimer_ready, linkLoss_ready, fun _ => mdioPoll_ready,
    fun _ => usxgmiiInbandWord_ready, tc10SleepRequestRx_ready, tc10SleepAckRx_ready, tc10SleepAbort_ready, tc10WakeupRx_ready,
    netWakeDeadline_ready⟩

end Sys2Proof.Machine
end

section
/-! SUPPORT. CAN buses (12 R303 to R314; 13 R337, R344; 14 R355): each event of a bus under the conditions that `readyCanBus` gathers for it,
and the two events that a segment asleep under SELWAKE answers in its own way. -/
namespace Sys2Proof.Machine
open Sys2Proof

section
variable {s : State} {c : Nat}

/-! ### Sleep with wake on a wake-up frame (13 R337) -/

theorem canFrameReceive_wakes {frame : CanFrame} {ago : Nat} (index : c < 8) (asleep : s.selWake c = true) (valid : validFrame frame = true)
    (wakeUp : s.wakeUpFrame c frame = true) : exec (.canFrameReceive c frame ago) s = .next (s.wokenSeg c) := by
  rw [exec_canFrameReceive, execCanFrameReceive, unitEvent_next _ (decide_eq_true (by omega)), if_pos asleep, if_pos (by rw [valid, wakeUp]; rfl)]

theorem canReceiveError_asleep {kind : Nat} {dominant : Bool} (index : c < 8) (asleep : s.selWake c = true) :
    exec (.canReceiveError c kind dominant) s =
      let g := s.seg c
      .next (if 31 ≤ g.wufErr then (s.setSeg c { g with wufErr := 0 }).wokenSeg c else s.setSeg c { g with wufErr := g.wufErr + 1 }) := by
  rw [exec_canReceiveError, execCanReceiveError, unitEvent_next _ (decide_eq_true (by omega)), if_pos asleep]

/-! ### Receiving (12 R303, R307) -/

theorem canReceiveError_ready {kind : Nat} {dominant : Bool} (hr : readyCanBus (.canReceiveError c kind dominant) s = true) :
    exec (.canReceiveError c kind dominant) s = .next ((s.setCtl c { s.ctl c with
      recv := if s.counts c then Nat.min 255 ((s.ctl c).recv + if dominant then 8 else 1) else (s.ctl c).recv,
      errs := bump 16 (s.ctl c).errs kind, last := kind }).updErr c) := by
  simp only [readyCanBus, Bool.and_eq_true, Bool.not_eq_true', decide_eq_true_eq] at hr
  obtain ⟨⟨⟨⟨⟨index, awake⟩, live⟩, onBus⟩, anError, known⟩, silent⟩ := hr
  rw [exec_canReceiveError, execCanReceiveError, unitEvent_next _ (decide_eq_true index), if_neg (by simp [awake]),
    if_neg (by simp [live, onBus, Option.isNone_iff_eq_none.mp silent, known, Nat.one_le_iff_ne_zero.mp anError])]
  rfl

/-! ### Sending (12 R310) -/

theorem canTxStart_ready (hr : readyCanBus (.canTxStart c) s = true) : exec (.canTxStart c) s = .next (s.startFrame c 65) := by
  simp only [readyCanBus, Bool.and_assoc] at hr
  obtain ⟨index, idle⟩ := Bool.and_eq_true_iff.mp hr
  rw [exec_canTxStart, execCanTxStart, unitEvent_next _ index, if_pos (by simpa only [Bool.and_assoc] using idle)]

/-- What a sent frame ends goes by its kind: a Pennant frame, the reference message, an object's frame or a routed copy. -/
theorem canTxDone_ready {tdc : Nat} {t : CTx} (hr : readyCanBus (.canTxDone c tdc) s = true) (sending : (s.ctl c).tx = some t) :
    exec (.canTxDone c tdc) s =
      let x := s.ctl c
      let s1 := (s.setCtl c { x with
        tx := none, txfrm := (x.txfrm + 1) % 2 ^ 32, tec := x.tec - 1, tdc := if t.frame.fmt = 0 then x.tdc else tdc }).updErr c
      let p := s1.setCtl c { s1.ctl c with pen := (s1.ctl c).pen.drop 1 }
      let s2 := if c < 8 then s1.segEvent c else s1
      let y := s2.ctl c
      let o := s2.cobj t.obj
      let s3 := s2.setCobj t.obj { o with st := 0, h := none, built := none, sdata := o.data, sxl := o.xl, cnt := (o.cnt + 1) % 65536, time := t.sof }
      .next (if t.kind = 1 then (if byteAt t.frame.data 0 % 16 = 4 then (p.penAbortEnd c).roundChecked c else p)
             else if t.kind = 0 then s2.setCtl c { y with refCyc := (y.refCyc + 1) % 64, refBeg := false }
             else if t.kind = 2 then (s3.txEnds o.h 1 o.retr t.sof).objFree t.obj
             else (s2.unroute c t.rtd).delivered t.rtd.entry) := by
  simp only [readyCanBus, Bool.and_eq_true] at hr
  obtain ⟨index, -⟩ := hr
  rw [exec_canTxDone, execCanTxDone, unitEvent_next _ index, sending]

/-- A frame that leaves the bus unsent: under ONESHOT an object's attempt fails unless later data wait, on lost arbitration too (log 17), and a
routed copy is dropped (14 R358); anything else goes back to be sent. TEC rises but for the two exceptions of ISO 11898-1 (log 19). -/
theorem txError_sending {kind : Nat} {exc : Bool} {t : CTx} (sending : (s.ctl c).tx = some t) : s.txError c kind exc =
    let x := s.ctl c
    let up := if kind = 0 ∨ (exc = true ∧ (kind = 2 ∨ (kind = 4 ∧ x.err = 1))) then 0 else 8
    let s1 := (s.setCtl c { x with
      tx := none, tec := x.tec + up, errs := if kind = 0 then x.errs else bump 16 x.errs kind, last := if kind = 0 then x.last else kind }).updErr c
    let o := s1.cobj t.obj
    if oneShot x.rcd = true ∧ t.kind = 2 ∧ o.later = none then
      ((s1.setCobj t.obj { o with st := 0, h := none, built := none }).txFails o.h .badState 0x17 0).roleDue t.obj
    else if oneShot x.rcd = true ∧ t.kind = 3 then (s1.unroute c t.rtd).dropCopy t.rtd.entry 9
    else s1.txBack c t := by
  rw [State.txError, sending]
  simp only [Bool.and_eq_true, Bool.or_eq_true, beq_iff_eq, Option.isNone_iff_eq_none]

theorem canTxError_ready {kind : Nat} {exc : Bool} (hr : readyCanBus (.canTxError c kind exc) s = true) :
    exec (.canTxError c kind exc) s = .next (s.txError c kind exc) := by
  simp only [readyCanBus, Bool.and_eq_true, decide_eq_true_eq] at hr
  obtain ⟨⟨index, known⟩, -⟩ := hr
  rw [exec_canTxError, execCanTxError, unitEvent_next _ (decide_eq_true index), if_neg (Nat.not_lt.mpr known)]

/-! ### Errors of the die-to-die link (12 R305) -/

/-- The affected bit is a bit error of the frame being sent, else of the one being received. -/
theorem d2dError_can (hr : readyCanBus (.d2dError c) s = true) (can : c < 8) : exec (.d2dError c) s =
    let x := s.ctl c
    let s1 := (s.setCtl c { x with d2d := satAdd 32 x.d2d 1 }).raise 0x53 c
    .next (if x.tx.isSome then s1.txError c 1 false else if s1.onBus c then s1.rxError c 1 false else s1) := by
  obtain ⟨live, -⟩ := Bool.and_eq_true_iff.mp hr
  rw [exec_d2dError, execD2dError, unitEvent_next _ (decide_eq_true (.inl can)), if_neg (by simp [live]), if_pos can]

/-- A LIN commander takes the bit error only while it awaits a response. -/
theorem d2dError_lin (hr : readyCanBus (.d2dError c) s = true) (lin : 8 ≤ c) : exec (.d2dError c) s =
    let s1 := s.raise 0x53 c
    let l := s1.lin (c - 12)
    .next (if l.wait.isSome then (s1.setLin (c - 12) { l with bitErr := satAdd 16 l.bitErr 1 }).raise 0x54 c else s1) := by
  simp only [readyCanBus, Bool.and_eq_true, Bool.or_eq_true, decide_eq_true_eq] at hr
  obtain ⟨live, link⟩ := hr
  rw [exec_d2dError, execD2dError, unitEvent_next _ (decide_eq_true link), if_neg (by simp [live]), if_neg (Nat.not_lt.mpr lin)]

end

/-- Settles O19, row by row; that the error counters follow ISO 11898-1 is presumed (log 19), and that ONESHOT ends an attempt on lost
arbitration is the model's choice (log 17). -/
theorem canBusEventsComplete : Obligations.CanBusEventsComplete := by
  unfold Obligations.CanBusEventsComplete
  intro s c
  refine ⟨fun frame ago hr => ?_, fun _ _ => canFrameReceive_wakes, fun _ _ => canReceiveError_asleep, fun _ _ => canReceiveError_ready,
    canTxStart_ready, fun _ _ => canTxDone_ready, fun _ _ _ hr sending => ?_, d2dError_can, d2dError_lin⟩
  · simp only [readyCanBus, Bool.and_eq_true, Bool.not_eq_true', decide_eq_true_eq] at hr
    obtain ⟨⟨⟨⟨index, awake⟩, live⟩, onBus⟩, valid⟩ := hr
    rw [exec_canFrameReceive, execCanFrameReceive, unitEvent_next _ (decide_eq_true index), if_neg (by simp [awake]),
      if_neg (by simp [live, onBus, valid])]
    rfl
  · rw [canTxError_ready hr, txError_sending sending]

end Sys2Proof.Machine
end

section
/-! SUPPORT. Module sleep (13 R334 to R339, R346; 17 R430): WAKE.MODULE, the two instants of its sleep, and what a wake does, each under the
conditions that `readySystem` gathers for it. -/
namespace Sys2Proof.Machine
open Sys2Proof

section
variable {s : State}

/-! ### Going to sleep (13 R346) -/

/-- A command before the latch check joins those that wait for it, one after it completes at once: the model's choice (log 51). -/
theorem wakeModule_ready {h : Hdr} (hr : readySystem [] (.wakeModule h) s = true) : exec (.wakeModule h) s =
    let s1 := if s.wake.phase = 0 then s.sleepT0 else s
    .next (if s1.wake.phase = 2 then s1.ok h
           else (({ s1 with
             wake := { s1.wake with phase := 1, h := s1.wake.h ++ [h], at_ := if s1.wake.phase = 0 then s1.cyc else s1.wake.at_ } } : State).inflightState
               h 4).syncWake) := by
  simp only [readySystem, Bool.and_eq_true, beq_iff_eq, Bool.not_eq_true'] at hr
  obtain ⟨⟨⟨⟨⟨⟨up, epoch⟩, ring⟩, unlatched⟩, armed⟩, off⟩, reaches⟩ := hr
  have pass : firstBad [noEpoch h, t0 h, bst s.anyLatch 0x11, bst (!s.anyArmed) 0x12, bst s.anyOn 0x13] = none := by
    simp [firstBad, noEpoch, t0, den, bp, bst, epoch, ring, unlatched, armed, off]
  rw [exec_wakeModule, execWakeModule, fwGuarded_pass _ up pass, farWrite_reaches _ reaches]

theorem moduleSleepLatchCheck_ready (hr : readySystem [] .moduleSleepLatchCheck s = true) : exec .moduleSleepLatchCheck s =
    let s1 : State := { s with wake := { s.wake with phase := 0, h := [] } }
    let s2 := s.wake.h.foldl (fun s h => s.ok h) s1
    .next (if s.anyLatch then ((s.wake.h.foldl (fun s h => s.fail h .badState 0x11) s1).wakeLatched).syncWake.settle
           else { s2 with wake := { s2.wake with phase := 2 } }) := by
  simp only [readySystem, Bool.and_eq_true, beq_iff_eq] at hr
  rw [exec_moduleSleepLatchCheck, execModuleSleepLatchCheck, if_pos hr]

/-- The module with rails 2 to 5 off, the operations in progress cut (03 R61; 13 R346 t3). -/
def State.railsOff (s : State) : State :=
  let s := (s.hal.ops.foldl (fun s o => (s.finishFuse o).cutOp o) s).survives.dropDies
  { s with sys := { s.sys with pwr := .aoOnly, boot := 0, clkSrc := .unset }
           wake := { s.wake with phase := 3, inhOff := true, at_ := s.cyc, pulseAt := s.cyc + msCyc 10 } }

theorem moduleSleepPowerOff_next (live : s.live = true) (phase : s.wake.phase = 2) :
    exec .moduleSleepPowerOff s = .next (if s.railsOff.moduleWake then s.railsOff.wakeStart else s.railsOff) := by
  rw [exec_moduleSleepPowerOff, execModuleSleepPowerOff, if_pos ⟨live, phase⟩]
  rfl

/-- A wake latched since the check starts the rails again, with the cause of a wake (03 R62). -/
theorem moduleSleepPowerOff_ready (hr : readySystem [] .moduleSleepPowerOff s = true) : ∃ t, exec .moduleSleepPowerOff s = .next t ∧
    t.sys.boot = 0 ∧ t.lch = {} ∧ t.iso = {} ∧
    (t.sys.pwr = .aoOnly ∧ t.wake.phase = 3 ∧ t.wake.inhOff = true ∨ t.sys.pwr = .starting ∧ t.wake.phase = 0 ∧ t.sys.nextCause = 6) := by
  simp only [readySystem, Bool.and_eq_true, beq_iff_eq] at hr
  obtain ⟨live, phase⟩ := hr
  rw [moduleSleepPowerOff_next live phase]
  by_cases wakes : s.railsOff.moduleWake = true
  · rw [if_pos wakes]
    exact ⟨_, rfl, rfl, rfl, rfl, .inr ⟨rfl, rfl, rfl⟩⟩
  · rw [if_neg wakes]
    exact ⟨_, rfl, rfl, rfl, rfl, .inl ⟨rfl, rfl, rfl⟩⟩

/-! ### Wakes (13 R337 to R339) -/

/-- What the table of R337 does not decide is a free value. -/
theorem wakeDetect_ready {src t n : Nat} (hr : readySystem [] (.wakeDetect src t n) s = true) : exec (.wakeDetect src t n) s =
    .next (if s.isWake src t n = some true then s.wokenBy src
           else if bit (s.draw).1 0 then (s.draw).2.wokenBy src else (s.draw).2) := by
  simp only [readySystem, Bool.and_eq_true, bne_iff_ne] at hr
  obtain ⟨⟨⟨index, powered⟩, possible⟩, -⟩ := hr
  rw [exec_wakeDetect, execWakeDetect, unitEvent_next _ index, if_neg powered]
  cases decided : s.isWake src t n with
  | none => simp
  | some w =>
    cases w with
    | true => simp
    | false => exact absurd decided possible

/-- A sleeping segment's latch bit sets, and the wake is served or ends module sleep. -/
theorem wokenBy_segment {g : Nat} (index : g < 22) (asleep : s.asleep g = true) :
    let s1 := s.setSeg g { s.seg g with latch := true }
    s.wokenBy g = if s1.servesWakes then s1.segWake g else s1.sleepEnds := by
  rw [State.wokenBy, if_pos index, if_pos asleep, State.wokenSeg]

theorem wokenBy_wakePin {w : Nat} (index : w < 4) : s.wokenBy (22 + w) = (s.latchMod w).sleepEnds := by
  rw [State.wokenBy, if_neg (by omega), if_pos (by omega), Nat.add_sub_cancel_left]

/-- `w` counts the T1 ports from SP02, and MODLATCH has their bits from 4 on. -/
theorem wokenBy_port {w : Nat} (armed : s.wake.phase = 3 → bit (byteAt s.wake.rcd 4) w = true) :
    s.wokenBy (26 + w) = if s.wake.phase = 3 then (s.latchMod (4 + w)).sleepEnds
      else if s.servesWakes then s.tc10Wake (2 + w)
      else if (s.phy (2 + w)).asleep then (s.setPhy (2 + w) { s.phy (2 + w) with asleep := false }).latchMod (4 + w) else s := by
  have port : 26 + w - 24 = 2 + w := by omega
  have latch : 2 + w + 2 = 4 + w := by omega
  rw [State.wokenBy, if_neg (by omega), if_neg (by omega)]
  simp only [port, latch, Nat.add_sub_cancel_left]
  by_cases sleeps : s.wake.phase = 3
  · rw [if_pos sleeps, if_pos sleeps, if_pos (armed sleeps)]
  · rw [if_neg sleeps, if_neg sleeps]

/-- The timer is due from 0.95 of its time on, the tolerance of its oscillator (log 51). -/
theorem sleepTimer_ready (hr : readySystem [] .sleepTimer s = true) : exec .sleepTimer s = .next (s.latchMod 13).sleepEnds := by
  simp only [readySystem, Bool.and_eq_true, beq_iff_eq, bne_iff_ne, decide_eq_true_eq, and_assoc] at hr
  exact congrArg Host.Outcome.next (if_pos hr)

theorem sleepWettingPulse_ready {mask : Nat} (hr : readySystem [] (.sleepWettingPulse mask) s = true) : exec (.sleepWettingPulse mask) s =
    let s1 : State := { s with wake := { s.wake with pulseAt := s.wake.pulseAt + msCyc 10 } }
    .next (((List.range 48).filter fun n => (s1.sw n).armed).foldl (fun (s : State) (n : Nat) =>
      let x := s.sw n
      let s := s.setSw n { x with diff := if bit mask n != x.ref then x.diff + 1 else 0 }
      if bit mask n != x.ref ∧ 1 ≤ x.diff then ({ s with inp := { s.inp with wakeSw := s.inp.wakeSw ++ [n] } } : State).latchMod 12 else s)
      s1).sleepEnds := by
  simp only [readySystem, Bool.and_eq_true, beq_iff_eq, decide_eq_true_eq] at hr
  rw [exec_sleepWettingPulse, execSleepWettingPulse, if_pos hr]

end

/-- Settles O38, row by row; that a second WAKE.MODULE joins the first, or completes at once after the check, is the model's choice (log 51). -/
theorem moduleSleepComplete : Obligations.ModuleSleepComplete := by
  unfold Obligations.ModuleSleepComplete
  intro s h
  exact ⟨wakeModule_ready, moduleSleepLatchCheck_ready, moduleSleepPowerOff_ready, fun _ _ _ => wakeDetect_ready, fun _ => wokenBy_segment,
    fun _ => wokenBy_wakePin, fun _ _ => wokenBy_port, sleepTimer_ready, fun _ => sleepWettingPulse_ready⟩

end Sys2Proof.Machine
end

section
/-! SUPPORT. The words of the Keore engine (15 R390, R391): what each format's fields are in the word that `kWord` makes, and that encoder and decoder
undo each other. -/
namespace Sys2Proof.Machine
open Sys2Proof

/-! ### The fields of a word (15 R390) -/

/-! A word is a sum of fields, each a multiple of its place: what a field above, at or below the one read adds to it. -/

section
variable {above n k v rest : Nat}

theorem sum_lt {bound : Nat} (hv : v < k) (hr : rest < n) (room : n * k ≤ bound) : v * n + rest < bound :=
  calc v * n + rest < v * n + n := Nat.add_lt_add_left hr _
    _ = n * (v + 1) := by rw [Nat.mul_add, Nat.mul_one, Nat.mul_comm]
    _ ≤ n * k := Nat.mul_le_mul_left n hv
    _ ≤ bound := room

theorem sum_div (hr : rest < n) : (v * n + rest) / n = v := by
  rw [Nat.mul_comm, Nat.mul_add_div (Nat.zero_lt_of_lt hr), Nat.div_eq_of_lt hr, Nat.add_zero]

theorem sum_field (hv : v < k) (hr : rest < n) : (v * n + rest) / n % k = v := by
  rw [sum_div hr, Nat.mod_eq_of_lt hv]

theorem sum_mod (hn : n ∣ k) : (v * k + rest) % n = rest % n := by
  obtain ⟨m, rfl⟩ := hn
  rw [Nat.mul_left_comm, Nat.mul_add_mod]

theorem sum_mod_of_lt (hr : rest < n) : (v * n + rest) % n = rest := by
  rw [sum_mod (Nat.dvd_refl n), Nat.mod_eq_of_lt hr]

/-- A field that lies below `above` is a field of the rest. -/
theorem sum_field_below {place : Nat} (hn : n * k ∣ place) : (above * place + rest) / n % k = rest / n % k := by
  rw [← Nat.mod_mul_right_div_self, sum_mod hn, Nat.mod_mul_right_div_self]

end

section
variable {op d rest : Nat}

theorem kWord_eq : kWord op d rest = op * 16777216 + (d * 1048576 + rest) := Nat.add_assoc ..

theorem kWord_op (hd : d < 16) (hr : rest < 1048576) : kWord op d rest / 16777216 = op := by
  rw [kWord_eq, sum_div (sum_lt hd hr (by decide))]

theorem kWord_d (hd : d < 16) (hr : rest < 1048576) : kWord op d rest / 1048576 % 16 = d := by
  rw [kWord_eq, sum_field_below (by decide), sum_field hd hr]

theorem kWord_mod {n : Nat} (hn : n ∣ 1048576) : kWord op d rest % n = rest % n := by
  rw [kWord_eq, sum_mod (Nat.dvd_trans hn (by decide)), sum_mod hn]

theorem kWord_field {n k : Nat} (hn : n * k ∣ 1048576) : kWord op d rest / n % k = rest / n % k := by
  rw [kWord_eq, sum_field_below (Nat.dvd_trans hn (by decide)), sum_field_below hn]

end

theorem fmtR_fields {a b p t : Nat} (ha : a < 16) (hb : b < 16) (hp : p < 8) (ht : t < 8) :
    fmtR a b p t < 1048576 ∧ fmtR a b p t / 65536 % 16 = a ∧ fmtR a b p t / 4096 % 16 = b ∧ fmtR a b p t / 8 % 8 = p ∧
      fmtR a b p t % 8 = t := by
  have sum : fmtR a b p t = a * 65536 + (b * 4096 + (p * 8 + t)) := by rw [fmtR, Nat.add_assoc, Nat.add_assoc]
  have below_b : p * 8 + t < 4096 := sum_lt hp ht (by decide)
  have below_a : b * 4096 + (p * 8 + t) < 65536 := sum_lt hb below_b (by decide)
  rw [sum]
  refine ⟨sum_lt ha below_a (by decide), sum_field ha below_a, ?_, ?_, ?_⟩
  · rw [sum_field_below (by decide), sum_field hb below_b]
  · rw [sum_field_below (by decide), sum_field_below (by decide), sum_field hp ht]
  · rw [sum_mod (by decide), sum_mod (by decide), sum_mod_of_lt ht]

theorem fmtM_fields {base off : Nat} (hbase : base < 4) (hoff : off < 262144) :
    fmtM base off < 1048576 ∧ fmtM base off / 262144 % 4 = base ∧ fmtM base off % 262144 = off :=
  ⟨sum_lt hbase hoff (by decide), sum_field hbase hoff, sum_mod_of_lt hoff⟩

/-- Formats X and B and the bit fields: `top` at `place`, `mid` at `n`, `low` below it. -/
theorem three_fields {top mid low n k m place : Nat} (htop : top < m) (hmid : mid < k) (hlow : low < n)
    (aligned : n * k ∣ place) (room : n * k ≤ place) (bound : place * m ≤ 1048576) :
    top * place + mid * n + low < 1048576 ∧ (top * place + mid * n + low) / place % m = top ∧
      (top * place + mid * n + low) / n % k = mid ∧ (top * place + mid * n + low) % n = low := by
  have below : mid * n + low < place := sum_lt hmid hlow room
  rw [Nat.add_assoc]
  refine ⟨sum_lt htop below bound, sum_field htop below, ?_, ?_⟩
  · rw [sum_field_below aligned, sum_field hmid hlow]
  · rw [sum_mod (Nat.dvd_trans (Nat.dvd_mul_right n k) aligned), sum_mod_of_lt hlow]

theorem fmtX_fields {base x off : Nat} (hbase : base < 4) (hx : x < 16) (hoff : off < 16384) :
    fmtX base x off < 1048576 ∧ fmtX base x off / 262144 % 4 = base ∧ fmtX base x off / 16384 % 16 = x ∧
      fmtX base x off % 16384 = off :=
  three_fields hbase hx hoff (by decide) (by decide) (by decide)

theorem fmtB_fields {base byte bit : Nat} (hbase : base < 4) (hbyte : byte < 32768) (hbit : bit < 8) :
    fmtB base byte bit < 1048576 ∧ fmtB base byte bit / 262144 % 4 = base ∧ fmtB base byte bit / 8 % 32768 = byte ∧
      fmtB base byte bit % 8 = bit :=
  three_fields hbase hbyte hbit (by decide) (by decide) (by decide)

/-! ### Rows of the decoder's table -/

/-- Each of the numbers lies below its bound: `Instr.wellFormed` as a conjunction. -/
def Below : List (Nat × Nat) → Prop
  | [] => True
  | (n, bound) :: rest => n < bound ∧ Below rest

theorem below_iff (l : List (Nat × Nat)) : Below l ↔ l.all (fun p => decide (p.1 < p.2)) = true := by
  induction l with
  | nil => simp [Below]
  | cons field rest ih => simp [Below, ih]

/-- The word holds OP and the fields of the instruction, and nothing above bit 31. -/
def Spells (w : Nat) (i : Instr) : Prop := rawWord w = some i ∧ w / 16777216 < 256

/-! One lemma per format. -/

section
variable {op d : Nat}

/-- `row` is the row of the decoder's table that OP picks, `g` what it makes of the fields. -/
theorem spells_kWord {rest : Nat} {i : Instr} {g : Nat → Instr} (hop : op < 256) (hd : d < 16) (low : rest < 1048576)
    (row : ∀ w, w / 16777216 = op → rawWord w = some (g w)) (same : g (kWord op d rest) = i) : Spells (kWord op d rest) i := by
  have word : kWord op d rest / 16777216 = op := kWord_op hd low
  exact ⟨by rw [row _ word, same], by rw [word]; exact hop⟩

theorem spells_fmtR_two {a b t : Nat} {mk : Nat → Nat → Nat → Nat → Instr} (hop : op < 256)
    (fits : Below [(d, 16), (a, 16), (b, 16), (t, 8)])
    (row : ∀ w, w / 16777216 = op → rawWord w = some (mk (w / 1048576 % 16) (w / 65536 % 16) (w / 4096 % 16) (w % 8))) :
    Spells (kWord op d (fmtR a b 0 t)) (mk d a b t) := by
  obtain ⟨hd, ha, hb, ht, -⟩ := fits
  obtain ⟨low, fa, fb, -, ft⟩ := fmtR_fields (p := 0) ha hb (by decide) ht
  exact spells_kWord hop hd low row (by
    rw [kWord_d hd low, kWord_field (by decide), fa, kWord_field (by decide), fb, kWord_mod (by decide), ft])

theorem spells_fmtR_one {a t : Nat} {mk : Nat → Nat → Nat → Instr} (hop : op < 256)
    (fits : Below [(d, 16), (a, 16), (t, 8)])
    (row : ∀ w, w / 16777216 = op → rawWord w = some (mk (w / 1048576 % 16) (w / 65536 % 16) (w % 8))) :
    Spells (kWord op d (fmtR a 0 0 t)) (mk d a t) := by
  obtain ⟨hd, ha, ht, -⟩ := fits
  obtain ⟨low, fa, -, -, ft⟩ := fmtR_fields (b := 0) (p := 0) ha (by decide) (by decide) ht
  exact spells_kWord hop hd low row (by
    rw [kWord_d hd low, kWord_field (by decide), fa, kWord_mod (by decide), ft])

theorem spells_fmtR_cvt {a f t : Nat} {mk : Nat → Nat → Nat → Nat → Instr} (hop : op < 256)
    (fits : Below [(d, 16), (a, 16), (f, 8), (t, 8)])
    (row : ∀ w, w / 16777216 = op → rawWord w = some (mk (w / 1048576 % 16) (w / 65536 % 16) (w / 8 % 8) (w % 8))) :
    Spells (kWord op d (fmtR a 0 f t)) (mk d a f t) := by
  obtain ⟨hd, ha, hf, ht, -⟩ := fits
  obtain ⟨low, fa, -, ff, ft⟩ := fmtR_fields (b := 0) ha (by decide) hf ht
  exact spells_kWord hop hd low row (by
    rw [kWord_d hd low, kWord_field (by decide), fa, kWord_field (by decide), ff, kWord_mod (by decide), ft])

theorem spells_fmtM {base off : Nat} {mk : Nat → Nat → Nat → Instr} (hop : op < 256)
    (fits : Below [(d, 16), (base, 4), (off, 262144)])
    (row : ∀ w, w / 16777216 = op → rawWord w = some (mk (w / 1048576 % 16) (w / 262144 % 4) (w % 262144))) :
    Spells (kWord op d (fmtM base off)) (mk d base off) := by
  obtain ⟨hd, hbase, hoff, -⟩ := fits
  obtain ⟨low, fbase, foff⟩ := fmtM_fields hbase hoff
  exact spells_kWord hop hd low row (by
    rw [kWord_d hd low, kWord_field (by decide), fbase, kWord_mod (by decide), foff])

theorem spells_fmtX {base x off : Nat} {mk : Nat → Nat → Nat → Nat → Instr} (hop : op < 256)
    (fits : Below [(d, 16), (base, 4), (x, 16), (off, 16384)])
    (row : ∀ w, w / 16777216 = op → rawWord w = some (mk (w / 1048576 % 16) (w / 262144 % 4) (w / 16384 % 16) (w % 16384))) :
    Spells (kWord op d (fmtX base x off)) (mk d base x off) := by
  obtain ⟨hd, hbase, hx, hoff, -⟩ := fits
  obtain ⟨low, fbase, fx, foff⟩ := fmtX_fields hbase hx hoff
  exact spells_kWord hop hd low row (by
    rw [kWord_d hd low, kWord_field (by decide), fbase, kWord_field (by decide), fx, kWord_mod (by decide), foff])

theorem spells_fmtB {base byte bit : Nat} {mk : Nat → Nat → Nat → Nat → Instr} (hop : op < 256)
    (fits : Below [(d, 16), (base, 4), (byte, 32768), (bit, 8)])
    (row : ∀ w, w / 16777216 = op → rawWord w = some (mk (w / 1048576 % 16) (w / 262144 % 4) (w / 8 % 32768) (w % 8))) :
    Spells (kWord op d (fmtB base byte bit)) (mk d base byte bit) := by
  obtain ⟨hd, hbase, hbyte, hbit, -⟩ := fits
  obtain ⟨low, fbase, fbyte, fbit⟩ := fmtB_fields hbase hbyte hbit
  exact spells_kWord hop hd low row (by
    rw [kWord_d hd low, kWord_field (by decide), fbase, kWord_field (by decide), fbyte, kWord_mod (by decide), fbit])

theorem spells_bits {a pos len : Nat} {mk : Nat → Nat → Nat → Nat → Instr} (hop : op < 256)
    (fits : Below [(d, 16), (a, 16), (pos, 64), (len, 64)])
    (row : ∀ w, w / 16777216 = op → rawWord w = some (mk (w / 1048576 % 16) (w / 65536 % 16) (w / 64 % 64) (w % 64))) :
    Spells (kWord op d (a * 65536 + pos * 64 + len)) (mk d a pos len) := by
  obtain ⟨hd, ha, hpos, hlen, -⟩ := fits
  obtain ⟨low, fa, fpos, flen⟩ := three_fields (k := 64) (n := 64) (m := 16) (place := 65536) ha hpos hlen (by decide) (by decide) (by decide)
  exact spells_kWord hop hd low row (by
    rw [kWord_d hd low, kWord_field (by decide), fa, kWord_field (by decide), fpos, kWord_mod (by decide), flen])

theorem spells_imm {imm : Nat} {mk : Nat → Nat → Instr} (hop : op < 256) (fits : Below [(d, 16), (imm, 1048576)])
    (row : ∀ w, w / 16777216 = op → rawWord w = some (mk (w / 1048576 % 16) (w % 1048576))) : Spells (kWord op d imm) (mk d imm) := by
  obtain ⟨hd, low, -⟩ := fits
  exact spells_kWord hop hd low row (by
    rw [kWord_d hd low, kWord_mod (by decide), Nat.mod_eq_of_lt low])

/-- Nothing is said of a command that is no legal instruction. -/
theorem spells_of_illegal {i : Instr} (illegal : kLegal i = false) : Below i.fields → kLegal i = true → Spells (encodeWord i) i :=
  fun _ legal => absurd (illegal.symm.trans legal) Bool.false_ne_true

end

theorem tMem_iff {t : Nat} : tMem t = true ↔ 1 ≤ t ∧ t ≤ 6 := by simp [tMem]

/-- The four ranges of OP that end in a type code (15 R391). -/
theorem rawWord_typed {w op : Nat} (hop : w / 16777216 = op) :
    (0x11 ≤ op ∧ op ≤ 0x16 → rawWord w = some (.kLd (w / 1048576 % 16) (w / 262144 % 4) (w % 262144) (op - 0x10))) ∧
    (0x19 ≤ op ∧ op ≤ 0x1E → rawWord w = some (.kSt (w / 1048576 % 16) (w / 262144 % 4) (w % 262144) (op - 0x18))) ∧
    (0x21 ≤ op ∧ op ≤ 0x26 →
      rawWord w = some (.kLdx (w / 1048576 % 16) (w / 262144 % 4) (w / 16384 % 16) (w % 16384) (op - 0x20))) ∧
    (0x29 ≤ op ∧ op ≤ 0x2E →
      rawWord w = some (.kStx (w / 1048576 % 16) (w / 262144 % 4) (w / 16384 % 16) (w % 16384) (op - 0x28))) := by
  subst hop
  refine ⟨fun ld => if_pos ld, fun st => ?_, fun ldx => ?_, fun stx => ?_⟩
  · exact (if_neg (by omega)).trans (if_pos st)
  · exact (if_neg (by omega)).trans ((if_neg (by omega)).trans (if_pos ldx))
  · exact (if_neg (by omega)).trans ((if_neg (by omega)).trans ((if_neg (by omega)).trans (if_pos stx)))

/-- Each instruction by its format, with the row of the decoder's table that its OP picks. -/
theorem spells_encodeWord (i : Instr) : Below i.fields → kLegal i = true → Spells (encodeWord i) i := by
  cases i
  case kLdb d base byte bit | kStb d base byte bit | kSetb d base byte bit | kRstb d base byte bit | kAndb d base byte bit
      | kOrb d base byte bit | kXorb d base byte bit | kAndnb d base byte bit =>
    exact fun fits _ => spells_fmtB (by decide) fits fun w op => by unfold rawWord; rw [op]; rfl
  case kLea d base off | kTon d base off | kTof d base off | kTp d base off | kRtrig d base off | kFtrig d base off | kCtu d base off
      | kCtd d base off | kSr d base off | kRs d base off | kRamp d base off | kPid d base off =>
    exact fun fits _ => spells_fmtM (by decide) fits fun w op => by unfold rawWord; rw [op]; rfl
  case kLd d base off t =>
    rintro ⟨hd, hbase, hoff, -⟩ legal
    obtain ⟨lo, hi⟩ := tMem_iff.1 legal
    refine spells_fmtM (op := 0x10 + t) (mk := (.kLd · · · t)) (by omega) ⟨hd, hbase, hoff, trivial⟩ fun w op => ?_
    obtain ⟨ranged, -, -, -⟩ := rawWord_typed op
    rw [ranged (by omega), Nat.add_sub_cancel_left]
  case kSt d base off t =>
    rintro ⟨hd, hbase, hoff, -⟩ legal
    obtain ⟨lo, hi⟩ := tMem_iff.1 legal
    refine spells_fmtM (op := 0x18 + t) (mk := (.kSt · · · t)) (by omega) ⟨hd, hbase, hoff, trivial⟩ fun w op => ?_
    obtain ⟨-, ranged, -, -⟩ := rawWord_typed op
    rw [ranged (by omega), Nat.add_sub_cancel_left]
  case kLdx d base x off t =>
    rintro ⟨hd, hbase, hx, hoff, -⟩ legal
    obtain ⟨lo, hi⟩ := tMem_iff.1 legal
    refine spells_fmtX (op := 0x20 + t) (mk := (.kLdx · · · · t)) (by omega) ⟨hd, hbase, hx, hoff, trivial⟩ fun w op => ?_
    obtain ⟨-, -, ranged, -⟩ := rawWord_typed op
    rw [ranged (by omega), Nat.add_sub_cancel_left]
  case kStx d base x off t =>
    rintro ⟨hd, hbase, hx, hoff, -⟩ legal
    obtain ⟨lo, hi⟩ := tMem_iff.1 legal
    refine spells_fmtX (op := 0x28 + t) (mk := (.kStx · · · · t)) (by omega) ⟨hd, hbase, hx, hoff, trivial⟩ fun w op => ?_
    obtain ⟨-, -, -, ranged⟩ := rawWord_typed op
    rw [ranged (by omega), Nat.add_sub_cancel_left]
  case kAdd d a b t | kSub d a b t | kMul d a b t | kDiv d a b t | kMod d a b t | kMin d a b t | kMax d a b t | kAnd d a b t | kOr d a b t
      | kXor d a b t | kShl d a b t | kShr d a b t | kRol d a b t | kRor d a b t | kCeq d a b t | kCne d a b t | kClt d a b t | kCle d a b t
      | kCgt d a b t | kCge d a b t | kSel d a b t | kLimit d a b t =>
    exact fun fits _ => spells_fmtR_two (by decide) fits fun w op => by unfold rawWord; rw [op]; rfl
  case kNeg d a t | kAbs d a t | kNot d a t | kSqrt d a t | kTrunc d a t | kMov d a t =>
    exact fun fits _ => spells_fmtR_one (by decide) fits fun w op => by unfold rawWord; rw [op]; rfl
  case kCvt d a f t =>
    exact fun fits _ => spells_fmtR_cvt (by decide) fits fun w op => by unfold rawWord; rw [op]; rfl
  case kLdi d imm | kLui d imm | kAddi d imm | kJt d imm | kJf d imm | kCall d imm =>
    exact fun fits _ => spells_imm (by decide) fits fun w op => by unfold rawWord; rw [op]; rfl
  case kBfx d a pos len | kBfi d a pos len =>
    exact fun fits _ => spells_bits (by decide) fits fun w op => by unfold rawWord; rw [op]; rfl
  case kJmp disp =>
    exact fun fits _ => spells_imm (mk := fun _ disp => .kJmp disp) (by decide) ⟨by decide, fits⟩ fun w op => by unfold rawWord; rw [op]; rfl
  case kNow d =>
    rintro ⟨hd, -⟩ -
    exact spells_imm (mk := fun d _ => .kNow d) (by decide) ⟨hd, by decide, trivial⟩ fun w op => by unfold rawWord; rw [op]; rfl
  case kNowr d =>
    rintro ⟨hd, -⟩ -
    exact spells_imm (mk := fun d _ => .kNowr d) (by decide) ⟨hd, by decide, trivial⟩ fun w op => by unfold rawWord; rw [op]; rfl
  case kNop | kRet | kEnd => exact fun _ _ => ⟨rfl, by decide⟩
  all_goals exact spells_of_illegal rfl

/-- The same of what `isKeore` admits. -/
theorem spells_of_isKeore {i : Instr} (keore : isKeore i = true) : Spells (encodeWord i) i ∧ kLegal i = true := by
  simp only [isKeore, Bool.and_eq_true] at keore
  obtain ⟨fits, legal⟩ := keore
  exact ⟨spells_encodeWord i ((below_iff _).2 fits) legal, legal⟩

/-- A legal instruction with its fields in range is what its word decodes to. -/
theorem decodeWord_encodeWord {i : Instr} (keore : isKeore i = true) : decodeWord (encodeWord i) = some i := by
  obtain ⟨⟨raw, -⟩, legal⟩ := spells_of_isKeore keore
  simp [decodeWord, raw, Option.filter_some, legal]

/-- The same of a word written out. -/
theorem decodeWord_of_word {w : Nat} {i : Instr} (word : encodeWord i = w) (keore : isKeore i = true) : decodeWord w = some i :=
  word ▸ decodeWord_encodeWord keore

theorem encodeWord_lt {i : Instr} (keore : isKeore i = true) : encodeWord i < 2 ^ 32 := by
  obtain ⟨⟨-, op⟩, -⟩ := spells_of_isKeore keore
  omega

/-- What the decoder gives has the word it was given, and is legal. -/
theorem decodeWord_eq_some {w : Nat} {i : Instr} (decoded : decodeWord w = some i) : encodeWord i = w ∧ kLegal i = true := by
  simp only [decodeWord, Option.filter_eq_some_iff, Bool.and_eq_true, beq_iff_eq] at decoded
  obtain ⟨-, legal, word⟩ := decoded
  exact ⟨word, legal⟩

/-- Settles O47: the fields of each word by the format of its instruction, the converse by what `decodeWord` asks of a word. That a register
field an instruction does not use is 0 is the model's choice (log 28). -/
theorem keoreWordsRoundTrip : Obligations.KeoreWordsRoundTrip := by
  unfold Obligations.KeoreWordsRoundTrip
  exact ⟨fun _ keore => ⟨decodeWord_encodeWord keore, encodeWord_lt keore⟩, fun _ _ => decodeWord_eq_some⟩

/-- Settles O46: the legal words as those of their instructions, the illegal ones by decoding them. 0x700FFFFF holds DISP -1, so its
target is the word before it. -/
theorem keoreWordsDecode : Obligations.KeoreWordsDecode := by
  unfold Obligations.KeoreWordsDecode
  exact ⟨decodeWord_of_word rfl rfl, decodeWord_of_word rfl rfl, decodeWord_of_word rfl rfl, decodeWord_of_word rfl rfl,
    decodeWord_of_word rfl rfl, decodeWord_of_word rfl rfl, decodeWord_of_word rfl rfl, decodeWord_of_word rfl rfl,
    decodeWord_of_word rfl rfl, decodeWord_of_word rfl rfl, rfl, rfl, rfl, rfl⟩

end Sys2Proof.Machine
end

section
/-! SUPPORT. What the instructions of the Keore engine do (15 R389 to R393), each under the conditions that `State.kRuns` and `State.kClear` name:
the ends an instruction can have, the meanings that several instructions share, and the statements that list them. -/
namespace Sys2Proof.Machine
open Sys2Proof

/-! ### The end of an instruction -/

/-- The record of task `k` is `t`, except for the bytes that stores of the task have changed. -/
def State.HoldsTask (s : State) (k : Nat) (t : KTask) : Prop := { t with dirty := (s.ktask k).dirty } = s.ktask k

section
variable {s : State} {k a i : Nat} {t : KTask} {bs : List Byte} {v : Bool}

theorem holdsTask_kCharge (s : State) (k c : Nat) : (s.kCharge k c).HoldsTask k (s.kPaid k c) := by
  rw [State.HoldsTask, ktask_kCharge]

theorem State.HoldsTask.drawn (h : s.HoldsTask k t) : s.drawn.HoldsTask k t := h

theorem State.HoldsTask.kStore (h : s.HoldsTask k t) : (s.kStore k a bs).HoldsTask k t := by
  rw [State.HoldsTask, ← kStore_task, ← show _ = s.ktask k from h]

theorem State.HoldsTask.kStoreBit (h : s.HoldsTask k t) : (s.kStoreBit k a i v).HoldsTask k t := by
  rw [State.HoldsTask, ← kStoreBit_task, ← show _ = s.ktask k from h]

/-- After its stores an instruction leaves its registers to the record that the stores left. -/
theorem kBlockEnd_done (f : KTask → KTask) (h : s.HoldsTask k t) (hf : ∀ l, { f t with dirty := l } = f { t with dirty := l }) :
    s.kBlockEnd k (f t) = s.kDone k f := by
  rw [State.kBlockEnd, hf, show _ = s.ktask k from h, State.kDone]

end

section
variable {s : State} {k : Nat}

/-- `kRun_runs` with the cycles named. -/
theorem kRun_costs {i : Instr} {n : Nat} {cost : KTask → Nat} {f : State → Nat → KTask → State} (hn : cost (s.ktask k) = n)
    (h : s.kRuns k i n = true) : s.kRun i cost f = .next (f (s.kCharge k n) k (s.kPaid k n)) :=
  hn ▸ kRun_runs f (hn.symm ▸ h)

/-- Of the function that changes the record only its value at the charged record counts. -/
theorem kAfter_congr {c : Nat} {f g : KTask → KTask} (h : f (s.kPaid k c) = g (s.kPaid k c)) : s.kAfter k c f = s.kAfter k c g := by
  rw [State.kAfter, State.kAfter, h]

/-! ### Bits, loads and stores (15 R389, R391) -/

/-- SETB and RSTB: the bit is written when Wd[0] is 1. -/
theorem kBitOp_storeIf {d base byte i : Nat} {ins : Instr} (v : Bool) (hc : s.kClear k base byte 1 1 = true) (h : s.kRuns k ins 1 = true) :
    s.kBitOp ins base byte i (fun s k t a _ =>
        let s := if (t.reg d).toNat % 2 = 1 then s.kStoreBit k a i v else s; s.kNext k { t with dirty := (s.ktask k).dirty }) =
      .next (if s.kFlag k d then ((s.kCharge k 1).kStoreBit k (s.kAt k base byte) i v).kDone k else s.kAfter k 1 id) := by
  rw [kBitOp_runs _ hc h]
  by_cases flag : ((s.ktask k).reg d).toNat % 2 = 1
  · simp only [State.kFlag, flag, kPaid_reg, if_true, beq_self_eq_true]
    exact congrArg _ (kBlockEnd_done id (holdsTask_kCharge s k 1).kStoreBit fun _ => rfl)
  · simp only [State.kFlag, flag, kPaid_reg, if_false, beq_iff_eq, ktask_kCharge]
    exact congrArg _ (kCharge_kNext s k 1 _)

theorem kLoad_runs {d base t n : Nat} {ins : Instr} {off : KTask → Nat} (same : off (s.kPaid k 1) = n) (h : s.kRuns k ins 1 = true)
    (hc : s.kClear k base n (tySize t) (tySize t) = true) : s.kLoad ins d base t off =
      .next (s.kAfter k 1 fun w => w.setReg d (loadTy t (s.iread (s.kAt k base n) (tySize t)))) := by
  rw [State.kLoad, kRun_costs rfl h, same, kAccess_paid _ hc, kCharge_kNext]
  rfl

theorem kPut_runs {d base t n : Nat} {ins : Instr} {off : KTask → Nat} (same : off (s.kPaid k 1) = n) (h : s.kRuns k ins 1 = true)
    (hc : s.kClear k base n (tySize t) (tySize t) = true) : s.kPut ins d base t off =
      .next (((s.kCharge k 1).kStore k (s.kAt k base n) (toLE (tySize t) ((s.ktask k).reg d).toNat)).kDone k) := by
  rw [State.kPut, kRun_costs rfl h, same, kAccess_paid _ hc]
  exact congrArg _ (kBlockEnd_done id (holdsTask_kCharge s k 1).kStore fun _ => rfl)

end

/-- Settles O1, by `kBitTo_runs` for the instructions that write Wd and by the bit stores for the others. -/
theorem keoreBitInstructionsComplete : Obligations.KeoreBitInstructionsComplete := by
  unfold Obligations.KeoreBitInstructionsComplete
  intro s k d base byte i hc
  exact ⟨fun h => (exec_kLdb ..).trans (kBitTo_runs _ hc h), fun h => (exec_kAndb ..).trans (kBitTo_runs _ hc h),
    fun h => (exec_kOrb ..).trans (kBitTo_runs _ hc h), fun h => (exec_kXorb ..).trans (kBitTo_runs _ hc h),
    fun h => (exec_kAndnb ..).trans (kBitTo_runs _ hc h),
    fun h => ((exec_kStb ..).trans (kBitOp_runs _ hc h)).trans
      (congrArg _ (kBlockEnd_done id (holdsTask_kCharge s k 1).kStoreBit fun _ => rfl)),
    fun h => (exec_kSetb ..).trans (kBitOp_storeIf true hc h), fun h => (exec_kRstb ..).trans (kBitOp_storeIf false hc h)⟩

/-- Settles O2, by `kLoad_runs` and `kPut_runs`. -/
theorem keoreLoadsAndStoresComplete : Obligations.KeoreLoadsAndStoresComplete := by
  unfold Obligations.KeoreLoadsAndStoresComplete
  intro s k d base x off t
  refine ⟨fun h hc => (exec_kLd ..).trans (kLoad_runs rfl h hc), fun h hc => (exec_kLdx ..).trans (kLoad_runs rfl h hc),
    fun h hc => (exec_kSt ..).trans (kPut_runs rfl h hc), fun h hc => (exec_kStx ..).trans (kPut_runs rfl h hc), fun h => ?_⟩
  rw [exec_kLea, execKLea, kRun_costs rfl h, kCharge_kNext]
  rfl

/-! ### Register instructions (15 R391, R392) -/

section
variable {s : State} {k d a b : Nat} {i : Instr}

theorem kBin_runs (f : W64 → W64 → KVal) (h : s.kRuns k i (kCost i) = true) :
    s.kBin i d a b f = .next (s.kAfter k (kCost i) fun w => w.setVal d (f (w.reg a) (w.reg b))) :=
  kReg_runs _ rfl h

theorem kUn_runs (f : W64 → KVal) (h : s.kRuns k i (kCost i) = true) :
    s.kUn i d a f = .next (s.kAfter k (kCost i) fun w => w.setVal d (f (w.reg a))) :=
  kReg_runs _ rfl h

/-- A comparison leaves 1 or 0 in Wd and no flag. -/
theorem kCmp_runs {t : Nat} {f : Option Ordering → Bool} {c : Bool} (cost : kCost i = 1)
    (same : f (cmpOf t ((s.ktask k).reg a) ((s.ktask k).reg b)) = c) (h : s.kRuns k i 1 = true) :
    s.kCmp i d a b t f = .next (s.kAfter k 1 fun w => w.setReg d (BitVec.ofNat 64 (b2n c))) := by
  rw [State.kCmp, kBin_runs _ (cost.symm ▸ h), cost, ← same]
  exact congrArg _ (kAfter_congr (setVal_plain _ _ _))

end

theorem order_beq (o x : Option Ordering) : (o == x) = decide (o = x) := by
  rw [Bool.eq_iff_iff, beq_iff_eq, decide_eq_true_eq]

/-- Settles O3. MOD by zero (log 27) and MIN, MAX and LIMIT of a NaN or of the two zeros (log 26) are the model's choices. -/
theorem keoreBinaryInstructionsComplete : Obligations.KeoreBinaryInstructionsComplete := by
  unfold Obligations.KeoreBinaryInstructionsComplete
  intro s k d a b t
  refine ⟨fun h => (exec_kAdd ..).trans (kBin_runs _ h), fun h => (exec_kSub ..).trans (kBin_runs _ h),
    fun h => (exec_kMul ..).trans (kBin_runs _ h), fun h => (exec_kDiv ..).trans (kBin_runs _ h),
    fun h => (exec_kMod ..).trans (kBin_runs _ h), fun h => (exec_kMin ..).trans (kFree_runs _ (fun _ => rfl) h),
    fun h => (exec_kMax ..).trans (kFree_runs _ (fun _ => rfl) h), fun h => (exec_kAnd ..).trans (kBin_runs _ h),
    fun h => (exec_kOr ..).trans (kBin_runs _ h), fun h => (exec_kXor ..).trans (kBin_runs _ h),
    fun h => (exec_kShl ..).trans (kBin_runs _ h), fun h => (exec_kShr ..).trans (kBin_runs _ h),
    fun h => (exec_kRol ..).trans (kBin_runs _ h), fun h => (exec_kRor ..).trans (kBin_runs _ h),
    fun h => (exec_kSel ..).trans (kReg_runs _ rfl h), fun h => (exec_kLimit ..).trans (kFree_runs _ (fun _ => rfl) h), ?_⟩
  intro i h o gives
  refine ⟨?ceq, ?cne, ?clt, ?cle, ?cgt, ?cge⟩ <;> rintro rfl
  case ceq => exact (exec_kCeq ..).trans (kCmp_runs rfl (order_beq ..) h)
  case cne => exact (exec_kCne ..).trans (kCmp_runs rfl (by rw [bne, order_beq, decide_not]) h)
  case clt => exact (exec_kClt ..).trans (kCmp_runs rfl (order_beq ..) h)
  case cle => exact (exec_kCle ..).trans (kCmp_runs rfl (by rw [order_beq, order_beq, Bool.decide_or]) h)
  case cgt => exact (exec_kCgt ..).trans (kCmp_runs rfl (order_beq ..) h)
  case cge => exact (exec_kCge ..).trans (kCmp_runs rfl (by rw [order_beq, order_beq, Bool.decide_or]) h)

/-! ### Immediates and bit fields (15 R389, R391) -/

/-- The model's two's complement reading is that of `BitVec`. -/
theorem signed_eq_toInt {w : Nat} (hw : 0 < w) (n : Nat) : Machine.signed w n = (BitVec.ofNat w n).toInt := by
  obtain ⟨m, rfl⟩ := Nat.exists_eq_add_of_lt hw
  rw [Machine.signed, BitVec.toInt_eq_toNat_cond, BitVec.toNat_ofNat]
  simp only [Nat.zero_add, Nat.add_sub_cancel, Nat.pow_succ]
  split <;> split <;> omega

theorem ofInt_signed {w : Nat} (hw : 0 < w) (n : Nat) : BitVec.ofInt 64 (Machine.signed w n) = (BitVec.ofNat w n).signExtend 64 := by
  rw [signed_eq_toInt hw, BitVec.signExtend]

theorem rdTy_time (w : W64) : rdTy 4 w = w.toInt := by
  rw [rdTy, if_pos (by decide), show tyWidth 4 = 64 from rfl, signed_eq_toInt (by decide), BitVec.ofNat_toNat, BitVec.setWidth_eq]

/-- LUI: IMM above the low 12 bits of Wd. -/
theorem ofNat_lui (imm : Nat) (w : W64) : BitVec.ofNat 32 (imm * 4096 + w.toNat % 4096) = BitVec.ofNat 20 imm ++ w.extractLsb' 0 12 := by
  apply BitVec.eq_of_toNat_eq
  rw [BitVec.toNat_append, BitVec.toNat_ofNat, BitVec.toNat_ofNat, BitVec.extractLsb'_toNat, Nat.shiftRight_zero,
    ← Nat.shiftLeft_add_eq_or_of_lt (Nat.mod_lt _ (by decide)), Nat.shiftLeft_eq]
  have low : w.toNat % 4096 < 4096 := Nat.mod_lt _ (by decide)
  rw [show 2 ^ 32 = 4096 * 2 ^ 20 from rfl, Nat.mod_mul, sum_div low, sum_mod_of_lt low, Nat.add_comm, Nat.mul_comm]

theorem ofNat_bfx (w : W64) (pos len : Nat) : BitVec.ofNat 64 (w.toNat / 2 ^ pos % 2 ^ len) = (w.extractLsb' pos len).setWidth 64 := by
  apply BitVec.eq_of_toNat_eq
  rw [BitVec.toNat_ofNat, BitVec.toNat_setWidth, BitVec.extractLsb'_toNat, Nat.shiftRight_eq_div_pow]

/-- The number BFI leaves: the bits of `old` outside the field, those of `new` in it. -/
theorem testBit_bfi (old new pos len j : Nat) :
    (old % 2 ^ pos + new % 2 ^ (len + 1) * 2 ^ pos + old / 2 ^ (pos + len + 1) * 2 ^ (pos + len + 1)).testBit j =
      if pos ≤ j ∧ j ≤ pos + len then new.testBit (j - pos) else old.testBit j := by
  have sum : old % 2 ^ pos + new % 2 ^ (len + 1) * 2 ^ pos + old / 2 ^ (pos + len + 1) * 2 ^ (pos + len + 1) =
      2 ^ pos * (2 ^ (len + 1) * (old / 2 ^ (pos + len + 1)) + new % 2 ^ (len + 1)) + old % 2 ^ pos := by
    rw [Nat.add_assoc pos len 1, Nat.pow_add 2 pos, Nat.mul_add, Nat.mul_comm (_ / _), Nat.mul_assoc, Nat.mul_comm (_ % _)]
    omega
  rw [sum, Nat.testBit_two_pow_mul_add _ (Nat.mod_lt _ (Nat.two_pow_pos _)), Nat.testBit_two_pow_mul_add _ (Nat.mod_lt _ (Nat.two_pow_pos _)),
    Nat.testBit_mod_two_pow, Nat.testBit_mod_two_pow, Nat.testBit_div_two_pow]
  by_cases below : j < pos
  · rw [if_pos below, if_neg (by omega), decide_eq_true below, Bool.true_and]
  · rw [if_neg below]
    by_cases inside : j ≤ pos + len
    · rw [if_pos (by omega), if_pos (by omega), decide_eq_true (by omega : j - pos < len + 1), Bool.true_and]
    · rw [if_neg (by omega), if_neg (by omega), show j - pos - (len + 1) + (pos + len + 1) = j by omega]

/-- BFI with the bits of its result named. -/
theorem bfi_runs {s : State} {k d a pos len : Nat} (h : s.kRuns k (.kBfi d a pos len) 1 = true) :
    ∃ v : W64, exec (.kBfi d a pos len) s = .next (s.kAfter k 1 fun w => w.setReg d v) ∧ ∀ j, j < 64 →
      v.getLsbD j = if pos ≤ j ∧ j ≤ pos + len then ((s.ktask k).reg a).getLsbD (j - pos) else ((s.ktask k).reg d).getLsbD j := by
  refine ⟨_, ((exec_kBfi ..).trans (kReg_runs _ rfl h)).trans (congrArg _ (kAfter_congr rfl)), fun j hj => ?_⟩
  rw [BitVec.getLsbD_ofNat, decide_eq_true hj, Bool.true_and]
  exact testBit_bfi ..

theorem kNowr_runs {s : State} {k d : Nat} (h : s.kRuns k (.kNowr d) 1 = true) :
    exec (.kNowr d) s = .next (s.kAfter k 1 fun w => w.setReg d (BitVec.ofNat 64 s.now)) := by
  rw [exec_kNowr, execKNowr, kRun_costs rfl h, kCharge_kNext]
  rfl

/-- Settles O4, the immediates and fields by what their numbers are as bit vectors. A BOOL of a number other than 0 and 1 is the model's
choice (log 26). -/
theorem keoreUnaryInstructionsComplete : Obligations.KeoreUnaryInstructionsComplete := by
  unfold Obligations.KeoreUnaryInstructionsComplete
  intro s k d a f t imm pos len
  refine ⟨fun h => exec_kNop.trans (kReg_runs _ rfl h), fun h => (exec_kNeg ..).trans (kUn_runs _ h), fun h => (exec_kAbs ..).trans (kUn_runs _ h),
    fun h => (exec_kNot ..).trans (kUn_runs _ h), fun h => (exec_kCvt ..).trans (kFree_runs _ (fun _ => rfl) h),
    fun h => (exec_kSqrt ..).trans (kUn_runs _ h), fun h => (exec_kTrunc ..).trans (kUn_runs _ h),
    fun h => (exec_kMov ..).trans (kReg_runs _ rfl h), fun h => ?ldi, fun h => ?lui, fun h => ?addi, fun h => ?bfx, bfi_runs,
    fun h => (exec_kNow ..).trans (kReg_runs _ rfl h), kNowr_runs⟩
  case ldi => rw [exec_kLdi, execKLdi, ofInt_signed (by decide)]; exact kReg_runs _ rfl h
  case lui => simp only [exec_kLui, execKLui, ofInt_signed (by decide : 0 < 32), ofNat_lui]; exact kReg_runs _ rfl h
  case addi => simp only [exec_kAddi, execKAddi, rdTy_time, signed_eq_toInt (by decide : 0 < 20)]; exact kReg_runs _ rfl h
  case bfx => simp only [exec_kBfx, execKBfx, ofNat_bfx]; exact kReg_runs _ rfl h

/-! ### Jumps, calls and END (15 R376, R377, R390, R391; 16 R402) -/

section
variable {s : State} {k disp : Nat} {i : Instr} {c : KTask → Bool}

theorem kCharge_kGo (cost pc : Nat) (t : KTask) : (s.kCharge k cost).kGo k t pc = (s.setKtask k { t with pc := pc }).kPick := by
  rw [State.kCharge, State.kGo, setKtask_setKtask]

theorem kJump_taken (taken : c (s.ktask k) = true) (same : c (s.kPaid k 2) = c (s.ktask k)) (h : s.kRuns k i 2 = true) :
    s.kJump i disp c = .next (s.kJumped k 2 (jumpTo (s.ktask k).pc disp s.keo.run) id) := by
  rw [State.kJump, kRun_costs (if_pos taken) h, if_pos (same.trans taken), kCharge_kGo]
  rfl

theorem kJump_passed (passed : c (s.ktask k) = false) (same : c (s.kPaid k 1) = c (s.ktask k)) (h : s.kRuns k i 1 = true) :
    s.kJump i disp c = .next (s.kAfter k 1 id) := by
  rw [State.kJump, kRun_costs (if_neg (Bool.eq_false_iff.1 passed)) h, if_neg (Bool.eq_false_iff.1 (same.trans passed)), kCharge_kGo]
  rfl

theorem kFlag_false {n : Nat} (flag : s.kFlag k n = false) : (((s.ktask k).reg n).toNat % 2 == 0) = true := by
  simpa [State.kFlag] using flag

theorem kFlag_true {n : Nat} (flag : s.kFlag k n = true) : (((s.ktask k).reg n).toNat % 2 == 0) = false := by
  have odd : ((s.ktask k).reg n).toNat % 2 = 1 := by simpa [State.kFlag] using flag
  exact beq_false_of_ne (by omega)

end

/-- Settles O5. A target before word 0 is the model's choice (log 28). -/
theorem keoreControlInstructionsComplete : Obligations.KeoreControlInstructionsComplete := by
  unfold Obligations.KeoreControlInstructionsComplete
  intro s k c disp t dest
  refine ⟨fun h => (exec_kJmp ..).trans (kJump_taken rfl rfl h), fun h flag => (exec_kJt ..).trans (kJump_taken flag rfl h),
    fun h flag => (exec_kJt ..).trans (kJump_passed flag rfl h), fun h flag => (exec_kJf ..).trans (kJump_taken (kFlag_false flag) rfl h),
    fun h flag => (exec_kJf ..).trans (kJump_passed (kFlag_true flag) rfl h), fun h room lo hi => ?call, fun pc ib r h stack => ?ret⟩
  case call =>
    rw [exec_kCall, execKCall, kRun_costs rfl h]
    have inside := not_or.2 ⟨Nat.not_lt.2 lo, Nat.not_le.2 hi⟩
    exact congrArg _ (((if_neg (Nat.not_le.2 room)).trans (if_neg inside)).trans (kCharge_kGo ..))
  case ret =>
    have stack : (s.kPaid k 2).stack = (pc, ib) :: r := stack
    rw [exec_kRet, execKRet, kRun_costs rfl h]
    simp only [stack, kCharge_kGo]
    rfl

/-- Settles O6. That an END which the budget does not cover is no overrun is the model's choice (log 29). -/
theorem keoreEndCompletes : Obligations.KeoreEndCompletes := by
  unfold Obligations.KeoreEndCompletes
  intro s s1 k ready fetch budget charged s0 n u outs within last handed idle traced
  have ends : exec .kEnd s = .next (s.kEnd k) := by
    rw [exec_kEnd, execKEnd, ready]
    simp only [fetch, ne_eq, not_true_eq_false, if_false]
  rw [ends, State.kEnd]
  generalize loop : State.outLoop _ k _ _ = done
  obtain rfl : done = (true, s1) := loop.symm.trans outs
  exact congrArg _ (if_neg (Nat.not_lt.2 within))

/-! ### Standard blocks (15 R393) -/

section
variable {s : State} {k g base off : Nat} {i : Instr}

/-- A timer block: its step `f` has the input, the three bits, START, the release instant, PT and a free value. -/
theorem kTimer_runs (f : Bool → Bool → Bool → Bool → Nat → Nat → Int → Nat → TimerRes) (hc : s.kClear k base off 16 8 = true)
    (cost : kCost i = 2) (h : s.kRuns k i 2 = true) :
    let a := s.kAt k base off
    let inp := s.kFlag k g
    let r := f inp (s.ibit (a + 8) 0) (s.ibit (a + 8) 1) (s.ibit (a + 8) 2) (le (s.iread a 8) 0 8) (s.ktask k).relT
      (rdTy 4 ((s.ktask k).reg (g + 1))) (Config.freeValue s.clk.free)
    s.kTimer i g base off f = .next ((((((s.kCharge k 2).drawn.kStore k a (toLE 8 r.start)).kStoreBit k (a + 8) 0 inp).kStoreBit k (a + 8) 1
      r.run).kStoreBit k (a + 8) 2 r.q).kDone k fun w => (w.setVal g (boolVal r.q)).setVal (g + 1) r.et) := by
  intro a inp r
  rw [State.kTimer, kBlock_runs _ hc (cost.symm ▸ h), cost]
  exact congrArg _ (kBlockEnd_done (fun w => (w.setVal g (boolVal r.q)).setVal (g + 1) r.et)
    (holdsTask_kCharge s k 2).drawn.kStore.kStoreBit.kStoreBit.kStoreBit fun _ => rfl)

theorem kEdge_runs (f : Bool → Bool → Bool) (cost : kCost i = 1) (h : s.kRuns k i 1 = true) (hc : s.kClear k base off 4 8 = true) :
    s.kEdge i g base off f = .next (((s.kCharge k 1).kStoreBit k (s.kAt k base off) 0 (s.kFlag k g)).kDone k
      fun w => w.setReg g (BitVec.ofNat 64 (b2n (f (s.kFlag k g) (s.ibit (s.kAt k base off) 0))))) := by
  rw [State.kEdge, kBlock_runs _ hc (cost.symm ▸ h), cost]
  simp only [boolVal, setVal_plain]
  exact congrArg _ (kBlockEnd_done (fun w => w.setReg g _) (holdsTask_kCharge s k 1).kStoreBit fun _ => rfl)

theorem kBistable_runs (f : Bool → Bool → Bool → Bool) (cost : kCost i = 1) (h : s.kRuns k i 1 = true) (hc : s.kClear k base off 4 8 = true) :
    let q := f (s.kFlag k g) (s.kFlag k (g + 1)) (s.ibit (s.kAt k base off) 0)
    s.kBistable i g base off f = .next (((s.kCharge k 1).kStoreBit k (s.kAt k base off) 0 q).kDone k
      fun w => w.setReg g (BitVec.ofNat 64 (b2n q))) := by
  intro q
  rw [State.kBistable, kBlock_runs _ hc (cost.symm ▸ h), cost]
  simp only [boolVal, setVal_plain]
  exact congrArg _ (kBlockEnd_done (fun w => w.setReg g _) (holdsTask_kCharge s k 1).kStoreBit fun _ => rfl)

/-- A counter whose new CV is `v`, saturated. -/
theorem kCount_runs {f : Bool → Bool → Int → Int → KVal} {q : Int → Int → Bool} {v : Int} (cost : kCost i = 1)
    (hv : f (s.kFlag k g && !s.ibit (s.kAt k base off + 4) 0) (s.kFlag k (g + 1)) (Machine.signed 32 (le (s.iread (s.kAt k base off) 4) 0 4))
      (rdTy 2 ((s.ktask k).reg (g + 2))) = satTy 2 v)
    (h : s.kRuns k i 1 = true) (hc : s.kClear k base off 8 8 = true) :
    s.kCount i g base off f q = .next ((((s.kCharge k 1).kStore k (s.kAt k base off) (toLE 4 (satTy 2 v).v.toNat)).kStoreBit k
      (s.kAt k base off + 4) 0 (s.kFlag k g)).kDone k fun w =>
        (w.setVal g (boolVal (q (rdTy 2 (satTy 2 v).v) (rdTy 2 ((s.ktask k).reg (g + 2)))))).setVal (g + 1) (satTy 2 v)) := by
  rw [State.kCount, kBlock_runs _ hc (cost.symm ▸ h), cost, ← hv]
  exact congrArg _ (kBlockEnd_done (fun w => (w.setVal g _).setVal (g + 1) _) (holdsTask_kCharge s k 1).kStore.kStoreBit fun _ => rfl)

end

/-- Settles O7. That TON leaves RUN alone, that TOF clears it, and the ET of a TOF at rest are the model's choices (log 28). -/
theorem keoreTimersComplete : Obligations.KeoreTimersComplete := by
  unfold Obligations.KeoreTimersComplete
  intro s k g base off hc
  exact ⟨fun h => (exec_kTon ..).trans (kTimer_runs _ hc rfl h), fun h => (exec_kTof ..).trans (kTimer_runs _ hc rfl h),
    fun h => (exec_kTp ..).trans (kTimer_runs _ hc rfl h)⟩

/-- Settles O8, each kind of block by its own lemma. That a counter which saturates sets OVF is the model's choice (log 28). -/
theorem keoreSmallBlocksComplete : Obligations.KeoreSmallBlocksComplete := by
  unfold Obligations.KeoreSmallBlocksComplete
  intro s k g base off
  exact ⟨fun h hc => (exec_kRtrig ..).trans (kEdge_runs _ rfl h hc), fun h hc => (exec_kFtrig ..).trans (kEdge_runs _ rfl h hc),
    fun h hc => (exec_kSr ..).trans (kBistable_runs _ rfl h hc), fun h hc => (exec_kRs ..).trans (kBistable_runs _ rfl h hc),
    fun h hc => (exec_kCtu ..).trans (kCount_runs rfl (apply_ite ..).symm h hc),
    fun h hc => (exec_kCtd ..).trans (kCount_runs rfl (apply_ite ..).symm h hc)⟩

/-- Settles O9. The order of the roundings is the model's choice (log 30). -/
theorem keoreRampAndPidComplete : Obligations.KeoreRampAndPidComplete := by
  unfold Obligations.KeoreRampAndPidComplete
  intro s k g base off a t r m free
  constructor
  · intro h hc first dt out
    rw [exec_kRamp, execKRamp, kBlock_runs _ hc h]
    exact congrArg _ (kBlockEnd_done (fun w => (w.setVal g (realVal out)).setVal (g + 3) _)
      (holdsTask_kCharge s k 6).drawn.kStore.kStoreBit.kStore fun _ => rfl)
  · intro h hc first dt p
    rw [exec_kPid, execKPid, kBlock_runs _ hc h]
    exact congrArg _ (kBlockEnd_done (fun w => w.setVal g _) (holdsTask_kCharge s k 16).drawn.kStore.kStore.kStore.kStoreBit fun _ => rfl)

end Sys2Proof.Machine
end

section
/-! SUPPORT. What the instructions of the Keore engine leave unchanged (15 R387, R388, R391, R392; 16 R413). -/
namespace Sys2Proof.Machine
open Sys2Proof

/-! ### The task goes on -/

section
variable {s t u : State} {k j : Nat}

theorem cur_of_kRuns {i : Instr} {cost : Nat} (h : s.kRuns k i cost = true) : s.keo.cur = some k := by
  simp only [State.kRuns, State.kReady, Bool.and_eq_true, beq_iff_eq, decide_eq_true_eq, and_assoc] at h
  obtain ⟨ready, -⟩ := h
  split at ready
  · exact ready
  · cases ready

/-- Which task waits with the highest priority depends on the tasks' states alone. -/
theorem kBest_congr (h : ∀ j, (t.ktask j).st = (s.ktask j).st) : t.kBest = s.kBest := by
  simp only [State.kBest, h]

/-- The engine goes on with the task in charge when no task of a higher priority waits. -/
theorem kPick_stays (cur : s.keo.cur = some k) (best : s.kBest = some k) : s.kPick = s := by
  simp [State.kPick, cur, best]

/-! ### Register instructions -/

/-- Of a task's record only Wd, the sticky flags and the program counter may differ. -/
def WritesReg (d : Nat) (t t' : KTask) : Prop :=
  (∀ n, n ≠ d → t'.reg n = t.reg n) ∧ t'.st = t.st ∧ t'.used = t.used ∧ t'.ib = t.ib ∧ t'.stack = t.stack

theorem writesReg_setReg (d : Nat) (t : KTask) (v : W64) : WritesReg d t (t.setReg d v) :=
  ⟨fun n hn => by simp [KTask.reg, KTask.setReg, Ne.symm hn], rfl, rfl, rfl, rfl⟩

theorem writesReg_setVal (d : Nat) (t : KTask) (v : KVal) : WritesReg d t (t.setVal d v) := writesReg_setReg d t v.v

theorem setKtask_st {x : KTask} (same : x.st = (s.ktask k).st) (j : Nat) : ((s.setKtask k x).ktask j).st = (s.ktask j).st := by
  by_cases own : j = k
  · rw [own, ktask_setKtask_same, same]
  · rw [State.setKtask_ktask_ne s x own]

theorem kAfter_stays {f : KTask → KTask} {c : Nat} (cur : s.keo.cur = some k) (best : s.kBest = some k)
    (same : (f (s.kPaid k c)).st = (s.ktask k).st) : s.kAfter k c f = s.setKtask k { f (s.kPaid k c) with pc := (s.ktask k).pc + 1 } := by
  refine kPick_stays cur (Eq.trans (kBest_congr (setKtask_st ?_)) best)
  exact same

end

/-- Settles O48: each of the instructions changes the record by `WritesReg`, and the engine goes on with the task. -/
theorem keoreRegisterFrame : Obligations.KeoreRegisterFrame := by
  unfold Obligations.KeoreRegisterFrame
  intro s k d a b t i runs best listed
  suffices writes : ∃ f, exec i s = .next (s.kAfter k 1 f) ∧ WritesReg d (s.kPaid k 1) (f (s.kPaid k 1)) by
    obtain ⟨f, does, regs, st, used, ib, stack⟩ := writes
    refine ⟨_, does, ?_⟩
    rw [kAfter_stays (cur_of_kRuns runs) best st, ktask_setKtask_same]
    exact ⟨regs, rfl, used, ib, stack, fun j other => State.setKtask_ktask_ne s _ other, fun _ => rfl, rfl, rfl, rfl, rfl, rfl, rfl, rfl⟩
  rcases listed with rfl | rfl | rfl | rfl | rfl | rfl | rfl | rfl | rfl | rfl | rfl | rfl | rfl | rfl | rfl | rfl | rfl | rfl | rfl | rfl | rfl | rfl
  · exact ⟨_, (exec_kAdd ..).trans (kBin_runs _ runs), writesReg_setVal ..⟩
  · exact ⟨_, (exec_kSub ..).trans (kBin_runs _ runs), writesReg_setVal ..⟩
  · exact ⟨_, (exec_kMul ..).trans (kBin_runs _ runs), writesReg_setVal ..⟩
  · exact ⟨_, (exec_kNeg ..).trans (kUn_runs _ runs), writesReg_setVal ..⟩
  · exact ⟨_, (exec_kAbs ..).trans (kUn_runs _ runs), writesReg_setVal ..⟩
  · exact ⟨_, (exec_kAnd ..).trans (kBin_runs _ runs), writesReg_setVal ..⟩
  · exact ⟨_, (exec_kOr ..).trans (kBin_runs _ runs), writesReg_setVal ..⟩
  · exact ⟨_, (exec_kXor ..).trans (kBin_runs _ runs), writesReg_setVal ..⟩
  · exact ⟨_, (exec_kNot ..).trans (kUn_runs _ runs), writesReg_setVal ..⟩
  · exact ⟨_, (exec_kShl ..).trans (kBin_runs _ runs), writesReg_setVal ..⟩
  · exact ⟨_, (exec_kShr ..).trans (kBin_runs _ runs), writesReg_setVal ..⟩
  · exact ⟨_, (exec_kRol ..).trans (kBin_runs _ runs), writesReg_setVal ..⟩
  · exact ⟨_, (exec_kRor ..).trans (kBin_runs _ runs), writesReg_setVal ..⟩
  · exact ⟨_, (exec_kCeq ..).trans (kCmp_runs rfl rfl runs), writesReg_setReg ..⟩
  · exact ⟨_, (exec_kCne ..).trans (kCmp_runs rfl rfl runs), writesReg_setReg ..⟩
  · exact ⟨_, (exec_kClt ..).trans (kCmp_runs rfl rfl runs), writesReg_setReg ..⟩
  · exact ⟨_, (exec_kCle ..).trans (kCmp_runs rfl rfl runs), writesReg_setReg ..⟩
  · exact ⟨_, (exec_kCgt ..).trans (kCmp_runs rfl rfl runs), writesReg_setReg ..⟩
  · exact ⟨_, (exec_kCge ..).trans (kCmp_runs rfl rfl runs), writesReg_setReg ..⟩
  · exact ⟨_, (exec_kMov ..).trans (kReg_runs _ rfl runs), writesReg_setReg ..⟩
  · exact ⟨_, (exec_kNow ..).trans (kReg_runs _ rfl runs), writesReg_setReg ..⟩
  · exact ⟨_, kNowr_runs runs, writesReg_setReg ..⟩

/-! ### Stores -/

/-- From `s` to `u` memory changes in the `n` bytes from `a` of the engine's memory alone, and no task its registers or its state. -/
structure StoredAt (a n : Nat) (s u : State) : Prop where
  cur : u.keo.cur = s.keo.cur
  st : ∀ j, (u.ktask j).st = (s.ktask j).st
  reg : ∀ j r, (u.ktask j).reg r = (s.ktask j).reg r
  byte : ∀ x, x < instAddr + a ∨ instAddr + a + n ≤ x → u.byte x = s.byte x

section
variable {s t u : State} {k a n : Nat}

theorem StoredAt.trans (first : StoredAt a n s t) (second : StoredAt a n t u) : StoredAt a n s u where
  cur := second.cur.trans first.cur
  st j := (second.st j).trans (first.st j)
  reg j r := (second.reg j r).trans (first.reg j r)
  byte x out := (second.byte x out).trans (first.byte x out)

theorem storedAt_setKtask {x : KTask} (st : x.st = (s.ktask k).st) (w : x.w = (s.ktask k).w) : StoredAt a n s (s.setKtask k x) where
  cur := rfl
  st := setKtask_st st
  reg j r := by
    by_cases own : j = k
    · rw [own, ktask_setKtask_same, KTask.reg, KTask.reg, w]
    · rw [State.setKtask_ktask_ne s x own]
  byte _ _ := rfl

theorem storedAt_iwrite (s : State) (a : Nat) (bs : List Byte) : StoredAt a bs.length s (s.iwrite a bs) where
  cur := rfl
  st _ := rfl
  reg _ _ := rfl
  byte x out := memGet_memPutAll_out bs s.mem (instAddr + a) x out

theorem storedAt_discard (s : State) (hit : Force → Bool) : StoredAt a n s (s.discard hit) := ⟨rfl, fun _ => rfl, fun _ _ => rfl, fun _ _ => rfl⟩

theorem storedAt_markDirty (s : State) (k b m : Nat) : StoredAt a n s (s.markDirty k b m) := storedAt_setKtask rfl rfl

/-- A forced bit is put into the bytes in place. -/
theorem length_keepForced (s : State) (a : Nat) (bs : List Byte) : (s.keepForced a bs).length = bs.length := by
  rw [State.keepForced]
  generalize s.keo.force = forces
  induction forces generalizing bs with
  | nil => rfl
  | cons q rest ih =>
    rw [List.foldl_cons, ih]
    dsimp only
    split
    · exact List.length_set
    · rfl

theorem storedAt_kStore (s : State) (k a : Nat) (bs : List Byte) : StoredAt a bs.length s (s.kStore k a bs) := by
  rw [State.kStore]
  split
  · exact storedAt_discard s _
  · exact ((length_keepForced s a bs ▸ storedAt_iwrite s a (s.keepForced a bs)).trans (storedAt_discard _ _)).trans (storedAt_markDirty _ _ _ _)

theorem storedAt_kStoreBit (s : State) (k a i : Nat) (v : Bool) : StoredAt a 1 s (s.kStoreBit k a i v) := by
  rw [State.kStoreBit]
  split
  · exact storedAt_discard s _
  · exact (storedAt_iwrite s a [_]).trans (storedAt_markDirty _ _ _ _)

/-- After a store the engine goes on with the task. -/
theorem StoredAt.kDone (stored : StoredAt a n s t) (cur : s.keo.cur = some k) (best : s.kBest = some k) : StoredAt a n s (t.kDone k) := by
  have next : StoredAt a n s (t.setKtask k { t.ktask k with pc := (t.ktask k).pc + 1 }) := stored.trans (storedAt_setKtask rfl rfl)
  rw [State.kDone, State.kNext, State.kGo, kPick_stays]
  · exact next
  · exact next.cur.trans cur
  · exact (kBest_congr next.st).trans best

/-- Without a store the charged machine goes on. -/
theorem kDone_ite (s u : State) (k c : Nat) (p : Prop) [Decidable p] :
    (if p then u.kDone k else s.kAfter k c id) = (if p then u else s.kCharge k c).kDone k := by
  split
  · rfl
  · rw [State.kDone, ktask_kCharge]
    exact (kCharge_kNext s k c _).symm

theorem storedAt_ite {p : Prop} [Decidable p] (stored : StoredAt a n s u) : StoredAt a n s (if p then u else s) := by
  split
  · exact stored
  · exact ⟨rfl, fun _ => rfl, fun _ _ => rfl, fun _ _ => rfl⟩

theorem storedAt_kCharge (s : State) (k c : Nat) : StoredAt a n s (s.kCharge k c) := storedAt_setKtask rfl rfl

end

/-- Settles O49: what O1 and O2 say of the stores, each of which is a `StoredAt`. -/
theorem keoreStoreFrame : Obligations.KeoreStoreFrame := by
  unfold Obligations.KeoreStoreFrame
  intro s k d base off x byte n t u best _
  have frame {a m : Nat} {i : Instr} {w : State} (runs : s.kRuns k i 1 = true) (ends : exec i s = .next u)
      (does : exec i s = .next (w.kDone k)) (stored : StoredAt a m (s.kCharge k 1) w) : StoredAt a m s u := by
    obtain rfl : u = w.kDone k := Host.Outcome.next.inj (ends.symm.trans does)
    exact ((storedAt_kCharge s k 1).trans stored).kDone (cur_of_kRuns runs) best
  refine ⟨fun i listed runs clear ends => ?bits, fun runs clear ends => ?st, fun y hy runs clear ends => ?stx⟩
  case bits =>
    have stored : StoredAt (s.kAt k base byte) 1 s u := by
      obtain ⟨-, -, -, -, -, stb, setb, rstb⟩ := keoreBitInstructionsComplete s k d base byte n clear
      rcases listed with rfl | rfl | rfl
      · exact frame runs ends (stb runs) (storedAt_kStoreBit ..)
      · exact frame runs ends ((setb runs).trans (congrArg _ (kDone_ite ..))) (storedAt_ite (storedAt_kStoreBit ..))
      · exact frame runs ends ((rstb runs).trans (congrArg _ (kDone_ite ..))) (storedAt_ite (storedAt_kStoreBit ..))
    exact ⟨fun a other => stored.byte a (by omega), stored.reg k⟩
  case st =>
    obtain ⟨-, -, st, -⟩ := keoreLoadsAndStoresComplete s k d base x off t
    have stored := frame runs ends (st runs clear) (storedAt_kStore ..)
    rw [length_toLE] at stored
    exact ⟨stored.byte, stored.reg k⟩
  case stx =>
    subst hy
    obtain ⟨-, -, -, stx, -⟩ := keoreLoadsAndStoresComplete s k d base x off t
    have stored := frame runs ends (stx runs clear) (storedAt_kStore ..)
    rw [length_toLE] at stored
    exact ⟨stored.byte, stored.reg k⟩

end Sys2Proof.Machine
end

section
/-! SUPPORT. What a refused access does (01 R30, R31; 18 R454). -/
namespace Sys2Proof.Machine
open Sys2Proof

/-- A refusal at the byte is counted (18 R454): it lies in a region, and neither in an image bank nor in the window of a cut xSPI block. -/
def State.countsRefusal (s : State) (a : Nat) : Prop :=
  s.region a ≠ .hole ∧ s.region a ≠ .bankA ∧ s.region a ≠ .bankB ∧ ∀ k, s.region a = .xspi k → s.cut (0x10 + k) = false

theorem refuseAccess_counted {s : State} {ini tag kind addr n : Nat} (counted : ∀ i, i < n → s.countsRefusal (addr + i))
    (reach : isRv32 ini = true → addr + n ≤ 0x100000000) :
    s.refuseAccess ini tag kind addr n = (s.violate ini tag kind addr).busErr := by
  have near : (isRv32 ini && decide (0x100000000 < addr + n)) = false := by
    cases rv : isRv32 ini with
    | false => rfl
    | true => simp [Nat.not_lt.mpr (reach rv)]
  unfold State.refuseAccess
  simp only [near, Bool.or_false]
  rw [if_neg]
  simp only [Bool.not_eq_true, List.any_eq_false]
  intro i hi
  obtain ⟨hole, bankA, bankB, uncut⟩ := counted i (List.mem_range.mp hi)
  split
  · contradiction
  · contradiction
  · contradiction
  · next k window => simp [uncut k window]
  · rfl

theorem access_refused {s : State} {ini tag kind addr n : Nat} {data : List Byte} (refused : s.spanOK ini tag kind addr n = false) :
    s.access ini tag kind addr n data = (false, s.refuseAccess ini tag kind addr n) := by
  simp [State.access, refused]

/-- Settles O54: a refused access ends in `State.violate`, whose raise of TEN_VIOL leaves memory and its errors alone. -/
theorem refusedAccessHasNoOtherEffect : Obligations.RefusedAccessHasNoOtherEffect := by
  unfold Obligations.RefusedAccessHasNoOtherEffect
  intro s ini tag kind addr n data more presents runs some_bytes refused counted reach ten s1 s2
  have each (i : Nat) (hi : i < n) : s.countsRefusal (addr + i) := by
    have byte := List.all_eq_true.mp counted i (List.mem_range.mpr hi)
    cases region : s.region (addr + i) <;> simp_all [State.countsRefusal]
  have ready : readySystem [] (.memoryAccess ini kind addr n data more) s = true := by
    simp [readySystem, presents, runs, some_bytes]
  have ends : s.access ini tag kind addr n data = (false, s2) :=
    (access_refused refused).trans (congrArg (Prod.mk false) (refuseAccess_counted each reach))
  refine ⟨State.raise_mem .., State.raise_ecc .., ?_⟩
  rw [memoryAccess_ready ready presents, ends]
  rfl

end Sys2Proof.Machine
end

section
/-! SUPPORT. Where a raise goes in the fault log (21 R528, R530 to R532). -/
namespace Sys2Proof.Machine
open Sys2Proof

/-! ### The log with a raise taken in -/

/-- The entry that the raise `e` finds under its key, updated by it (21 R531). -/
def LogEnt.again (e x : LogEnt) : LogEnt :=
  { x with count := satAdd 16 x.count 1, tlast := e.tlast, sev := Nat.max x.sev e.sev,
           pending := x.pending || e.pending, inj := x.inj || e.inj }

/-- What a new entry finds in the log: in a full one the oldest S0 entry has made room (21 R532). -/
def keptLog (log : List LogEnt) : List LogEnt := if decide (64 ≤ log.length) then dropFirst (fun e => e.sev == 0) log else log

section
variable {log : List LogEnt} {e : LogEnt}

theorem logRaise_had (had : (log.any fun x => x.key == e.key) = true) :
    logRaise log e = (updFirst (fun x => x.key == e.key) e.again log, false, 0, false) := if_pos had

theorem logRaise_room (had : (log.any fun x => x.key == e.key) = false)
    (room : (!decide (64 ≤ log.length) || log.any fun x => x.sev == 0) = true) :
    logRaise log e = (logPlace (keptLog log) e, true, b2n (decide (64 ≤ log.length)), false) := by
  refine (if_neg (ne_true_of_eq_false had)).trans ?_
  by_cases full : 64 ≤ log.length
  · simp_all [keptLog, b2n, Nat.not_lt.mpr full]
  · simp [keptLog, b2n, full, Nat.lt_of_not_le full]

theorem logRaise_no_room (had : (log.any fun x => x.key == e.key) = false)
    (room : (!decide (64 ≤ log.length) || log.any fun x => x.sev == 0) = false) : logRaise log e = (log, false, 1, e.sev != 0) := by
  simp only [Bool.or_eq_false_iff, Bool.not_eq_false', decide_eq_true_eq] at room
  obtain ⟨full, no_s0⟩ := room
  refine (if_neg (ne_true_of_eq_false had)).trans ?_
  rw [if_neg (Nat.not_lt.mpr full), no_s0]
  by_cases s0 : e.sev = 0 <;> simp [s0]

end

theorem map_updFirst {α β : Type} {p : α → Bool} {f : α → α} {g : α → β} (h : ∀ a, g (f a) = g a) (l : List α) :
    (updFirst p f l).map g = l.map g := by
  induction l with
  | nil => rfl
  | cons a r ih => by_cases hp : p a <;> simp [updFirst, hp, h, ih]

theorem find?_updFirst {α : Type} {p : α → Bool} {f : α → α} (h : ∀ a, p (f a) = p a) (l : List α) :
    (updFirst p f l).find? p = (l.find? p).map f := by
  induction l with
  | nil => rfl
  | cons a r ih => by_cases hp : p a <;> simp [updFirst, hp, h, ih]

theorem mem_of_mem_dropFirst {α : Type} {p : α → Bool} {a : α} {l : List α} (h : a ∈ dropFirst p l) : a ∈ l := by
  induction l with
  | nil => exact h
  | cons b r ih =>
    by_cases hp : p b
    · simp_all [dropFirst]
    · simp only [dropFirst, hp] at h
      exact List.mem_cons.mpr ((List.mem_cons.mp h).imp_right ih)

theorem rankIns_perm {α : Type} (f : α → Nat) (p : α) (l : List α) : (rankIns f p l).Perm (p :: l) := by
  induction l with
  | nil => exact .refl _
  | cons q r ih =>
    unfold rankIns
    split
    · exact .refl _
    · exact (ih.cons q).trans (.swap p q r)

/-- The keys of a log with a new entry: those of older cycles in their order, then those of the entry's cycle by rank. -/
theorem map_key_logPlace (log : List LogEnt) (e : LogEnt) :
    (logPlace log e).map LogEnt.key = (log.takeWhile fun x => x.at_ != e.at_).map LogEnt.key ++
      (rankIns (fun x : LogEnt => raiseRank x.sev x.src x.info) e (log.drop (log.takeWhile fun x => x.at_ != e.at_).length)).map LogEnt.key := by
  simp only [logPlace, List.map_append, List.map_map]
  congr 1
  rw [show LogEnt.key ∘ (fun p : LogEnt × Nat => { p.1 with seq := p.2 }) = LogEnt.key ∘ Prod.fst from rfl, ← List.map_map,
    List.map_fst_zip]
  simp [(rankIns_perm _ e _).length_eq]

theorem logPlace_perm (log : List LogEnt) (e : LogEnt) : ((logPlace log e).map LogEnt.key).Perm (log.map LogEnt.key ++ [e.key]) := by
  rw [map_key_logPlace]
  refine (((rankIns_perm _ e _).map LogEnt.key).append_left _).trans ?_
  refine List.perm_middle.trans ?_
  rw [← List.map_append, ← List.prefix_append_drop (List.takeWhile_prefix fun x : LogEnt => x.at_ != e.at_)]
  exact (List.perm_append_singleton ..).symm

/-- The first entry of its cycle stands at the end. -/
theorem logPlace_last {log : List LogEnt} {e : LogEnt} (first : ∀ x, x ∈ log → x.at_ ≠ e.at_) :
    (logPlace log e).map LogEnt.key = log.map LogEnt.key ++ [e.key] := by
  rw [map_key_logPlace, List.takeWhile_eq_self_iff.mpr fun x hx => bne_iff_ne.mpr (first x hx), List.drop_length]
  rfl

theorem mem_of_mem_keptLog {log : List LogEnt} {e : LogEnt} (h : e ∈ keptLog log) : e ∈ log := by
  unfold keptLog at h
  split at h
  · exact mem_of_mem_dropFirst h
  · exact h

/-! ### The reactions to a raise leave its entry -/

/-- An entry without its PREEMPTED bit, which alone a reaction to another raise changes (21 R529). -/
def LogEnt.unmarked (e : LogEnt) : LogEnt := { e with preempted := false }

/-- The log without PREEMPTED, LOSTCNT and the sequence number. -/
def State.logView (s : State) : List LogEnt × Nat × Nat := (s.flt.log.map LogEnt.unmarked, s.flt.lost, s.flt.seq)

/-- Device safe state holds, and is demanded (21 R524). -/
def State.safeView (s : State) : Bool × Bool := (s.flt.safe, s.flt.safeReq)

section
variable (s : State)

@[simp] theorem logView_ite (c : Prop) [Decidable c] (a b : State) : (if c then a else b).logView = if c then a.logView else b.logView :=
  apply_ite State.logView c a b
@[simp] theorem safeView_ite (c : Prop) [Decidable c] (a b : State) : (if c then a else b).safeView = if c then a.safeView else b.safeView :=
  apply_ite State.safeView c a b
@[simp] theorem pulses_ite (c : Prop) [Decidable c] (a b : State) :
    (if c then a else b).flt.pulses = if c then a.flt.pulses else b.flt.pulses := apply_ite (fun s : State => s.flt.pulses) c a b

@[simp] theorem pulse_logView (n : Nat) : (s.pulse n).logView = s.logView := by unfold State.pulse; split <;> rfl
@[simp] theorem noteRaise_logView (src : Nat) : (s.noteRaise src).logView = s.logView := rfl
@[simp] theorem waitReaction_logView (p : Nat × Nat) : (s.waitReaction p).logView = s.logView := rfl
@[simp] theorem holdPair_logView (k : Nat) : (s.holdPair k).logView = s.logView := rfl

@[simp] theorem demandSafe_logView (src : Nat) : (s.demandSafe src).logView = s.logView := by
  have same (p : LogEnt → Bool) (l : List LogEnt) :
      (updFirst p (fun x => { x with preempted := true }) l).map LogEnt.unmarked = l.map LogEnt.unmarked :=
    map_updFirst (f := fun x : LogEnt => { x with preempted := true }) (fun _ => rfl) l
  simp only [State.logView, State.demandSafe, Prod.mk.injEq, and_true]
  split
  · split
    · exact same ..
    · rfl
  · rfl

@[simp] theorem logOvf_logView : s.logOvf.logView = s.logView := by
  simp only [State.logOvf, demandSafe_logView, noteRaise_logView, logView_ite, pulse_logView, ite_self]
  rfl

@[simp] theorem pulse_safeView (n : Nat) : (s.pulse n).safeView = s.safeView := by unfold State.pulse; split <;> rfl
@[simp] theorem noteRaise_safeView (src : Nat) : (s.noteRaise src).safeView = s.safeView := rfl
@[simp] theorem waitReaction_safeView (p : Nat × Nat) : (s.waitReaction p).safeView = s.safeView := rfl
@[simp] theorem holdPair_safeView (k : Nat) : (s.holdPair k).safeView = s.safeView := rfl

theorem pulse_pulses {n : Nat} (h : n < 512) : (s.pulse n).flt.pulses = s.flt.pulses ++ [n] := by simp [State.pulse, h]
@[simp] theorem holdPair_pulses (k : Nat) : (s.holdPair k).flt.pulses = s.flt.pulses := rfl
@[simp] theorem noteRaise_pulses (src : Nat) : (s.noteRaise src).flt.pulses = s.flt.pulses := rfl
@[simp] theorem waitReaction_pulses (p : Nat × Nat) : (s.waitReaction p).flt.pulses = s.flt.pulses := rfl
@[simp] theorem demandSafe_pulses (src : Nat) : (s.demandSafe src).flt.pulses = s.flt.pulses := rfl

end

/-! ### A raise -/

/-- The entry of a raise; `pending` tells that a reaction waits for it (21 R530). -/
def State.entryOf (s : State) (src info : Nat) (pending : Bool) : LogEnt :=
  { src := src, sev := (s.srcCfg src).sev, inj := false, pending := pending, tfirst := s.now, tlast := s.now32,
    info := info, seq := (s.flt.seq + 1) % 2 ^ 32, starts := s.sys.starts, at_ := s.cyc + 1 }

/-- A raise of severity `sev`, of a source of the fabric or not, with its answer `r` of `logRaise` taken into the fault collector. -/
def State.collect (s : State) (sev : Nat) (fabric : Bool) (r : List LogEnt × Bool × Nat × Bool) : State :=
  { s with flt := { s.flt with log := r.1, lost := satAdd 32 s.flt.lost r.2.2.1, dirty := true,
                               seq := if r.2.1 then (s.flt.seq + 1) % 2 ^ 32 else s.flt.seq,
                               degr := s.flt.degr || decide (1 ≤ sev),
                               initReq := s.flt.initReq || ((sev == 2 || sev == 3) && fabric) } }

/-- What follows a raise taken into the log: its reaction by class and severity, and the pulse of its event line (21 R520 to R529). -/
def State.reactTo (s : State) (c : SrcCfg) (cls : SrcClass) (src info : Nat) : State :=
  let seq2 := c.sev == 2 || c.sev == 3
  let s := s.noteRaise src
  let s := if seq2 && (cls == .ch || cls == .can || cls == .iso) then s.waitReaction (src, info) else s
  let s := if c.ev then s.pulse c.line else s
  let s := if seq2 && cls == .rt && !false then s.holdPair info else s
  if c.sev == 3 then s.demandSafe src else s

section
variable (s : State) (c : SrcCfg) (cls : SrcClass) (src info : Nat)

@[simp] theorem reactTo_logView : (s.reactTo c cls src info).logView = s.logView := by simp [State.reactTo]

theorem reactTo_safeView (h : c.sev ≠ 3) : (s.reactTo c cls src info).safeView = s.safeView := by simp [State.reactTo, h]

theorem reactTo_pulses (ev : c.ev = true) (line : c.line < 512) :
    (s.reactTo c cls src info).flt.pulses = s.flt.pulses ++ [c.line] := by
  simp [State.reactTo, ev, pulse_pulses _ line]

end

/-- The raise of `src` with INFO has taken `e` into the log and come to `u`, from where only the raise of LOG_OVF can be left. -/
structure Raised (s : State) (src info : Nat) (e : LogEnt) (u : State) : Prop where
  entry : ∃ pending, e = s.entryOf src info pending
  ends : s.raise src info = if (logRaise s.flt.log e).2.2.2 then u.logOvf else u
  log : u.logView = ((logRaise s.flt.log e).1.map LogEnt.unmarked, satAdd 32 s.flt.lost (logRaise s.flt.log e).2.2.1,
    if (logRaise s.flt.log e).2.1 then (s.flt.seq + 1) % 2 ^ 32 else s.flt.seq)
  pulses : (s.srcCfg src).ev = true → (s.srcCfg src).line < 512 → u.flt.pulses = s.flt.pulses ++ [(s.srcCfg src).line]
  safe : (s.srcCfg src).sev ≠ 3 → u.safeView = s.safeView

theorem exists_raised {s : State} {src : Nat} (logs : s.logs src = true) (info : Nat) : ∃ e u, Raised s src info e u := by
  simp only [State.logs, Bool.and_eq_true, decide_eq_true_eq, Option.isSome_iff_exists] at logs
  obtain ⟨⟨⟨a, b, c, cls⟩, row⟩, boot⟩ := logs
  let seq2 := (s.srcCfg src).sev == 2 || (s.srcCfg src).sev == 3
  let e := s.entryOf src info (seq2 && (cls == .ch || cls == .can || cls == .iso))
  refine ⟨e, (s.collect (s.srcCfg src).sev (cls == .fab) (logRaise s.flt.log e)).reactTo (s.srcCfg src) cls src info, ⟨_, rfl⟩, ?ends,
    reactTo_logView .., reactTo_pulses _ _ _ _ _, reactTo_safeView _ _ _ _ _⟩
  unfold State.raise
  rw [row]
  exact if_neg (Nat.not_lt.mpr boot)

theorem Raised.raise_logView {s u : State} {src info : Nat} {e : LogEnt} {r : List LogEnt × Bool × Nat × Bool} (raised : Raised s src info e u)
    (place : logRaise s.flt.log e = r) : (s.raise src info).logView =
      (r.1.map LogEnt.unmarked, satAdd 32 s.flt.lost r.2.2.1, if r.2.1 then (s.flt.seq + 1) % 2 ^ 32 else s.flt.seq) := by
  subst place
  rw [raised.ends, logView_ite, logOvf_logView, ite_self, raised.log]

/-! ### LOG_OVF -/

theorem logOvf_pulses (s : State) : ∃ more, s.logOvf.flt.pulses = s.flt.pulses ++ more := by
  simp only [State.logOvf, demandSafe_pulses, noteRaise_pulses, State.pulse]
  split
  · split
    · exact ⟨_, rfl⟩
    · exact ⟨[], (List.append_nil _).symm⟩
  · exact ⟨[], (List.append_nil _).symm⟩

theorem logOvf_latch (s : State) : s.logOvf.flt.latch = true := rfl

theorem demandSafe_safeSrc {s : State} (calm : s.safeView = (false, false)) (src : Nat) : (s.demandSafe src).flt.safeSrc = src := by
  obtain ⟨safe, req⟩ := Prod.mk.inj calm
  simp [State.demandSafe, safe, req]

theorem logOvf_safeSrc {s : State} (calm : s.safeView = (false, false)) : s.logOvf.flt.safeSrc = 0 := by
  refine demandSafe_safeSrc (Eq.trans ?_ calm) 0
  simp only [noteRaise_safeView, safeView_ite, pulse_safeView, ite_self]
  rfl

/-- A raise that finds its entry or makes one leaves nothing to LOG_OVF. -/
theorem logRaise_placed {log : List LogEnt} {e : LogEnt}
    (placed : (log.any fun x => x.key == e.key) = true ∨ (!decide (64 ≤ log.length) || log.any fun x => x.sev == 0) = true) :
    (logRaise log e).2.2.2 = false := by
  cases had : log.any fun x => x.key == e.key with
  | true => rw [logRaise_had had]
  | false => rw [logRaise_room had (placed.resolve_left (ne_true_of_eq_false had))]

/-! ### Where the entry stands -/

theorem map_key_of_unmarked {l m : List LogEnt} (h : l.map LogEnt.unmarked = m.map LogEnt.unmarked) :
    l.map LogEnt.key = m.map LogEnt.key := by
  have keys := congrArg (List.map LogEnt.key) h
  rwa [List.map_map, List.map_map] at keys

theorem find?_of_unmarked {l m : List LogEnt} (h : l.map LogEnt.unmarked = m.map LogEnt.unmarked) (k : Nat × Nat) :
    (l.find? fun x => x.key == k).map LogEnt.unmarked = (m.find? fun x => x.key == k).map LogEnt.unmarked := by
  have found := congrArg (List.find? fun x => x.key == k) h
  rwa [List.find?_map, List.find?_map] at found

/-- Settles O53, by the three ends of `logRaise`: the reactions to a raise, LOG_OVF among them, mark entries PREEMPTED and no more. -/
theorem raisePlacesItsEntry : Obligations.RaisePlacesItsEntry := by
  unfold Obligations.RaisePlacesItsEntry
  intro s src info logs sev t key had full kept room
  obtain ⟨_, u, raised⟩ := exists_raised logs info
  obtain ⟨pending, rfl⟩ := raised.entry
  refine ⟨fun old => ?again, fun fresh placed => ?placed, fun fresh unplaced => ?dropped, fun ev line => ?pulse⟩
  case again =>
    obtain ⟨log, lost_seq⟩ := Prod.mk.inj (raised.raise_logView (logRaise_had old))
    obtain ⟨lost, -⟩ := Prod.mk.inj lost_seq
    refine ⟨(map_key_of_unmarked log).trans (map_updFirst (f := (s.entryOf src info pending).again) (fun _ => rfl) _), lost, fun e found => ?_⟩
    have updated := (find?_of_unmarked log (src, info)).trans
      (congrArg (Option.map LogEnt.unmarked) (find?_updFirst (f := (s.entryOf src info pending).again) (fun _ => rfl) _))
    rw [found] at updated
    obtain ⟨f, found_f, same⟩ := Option.map_eq_some_iff.mp updated
    exact ⟨f, found_f, congrArg LogEnt.count same, congrArg LogEnt.tlast same, congrArg LogEnt.sev same, (congrArg LogEnt.tfirst same :)⟩
  case placed =>
    obtain ⟨log, lost_seq⟩ := Prod.mk.inj (raised.raise_logView (logRaise_room fresh placed))
    obtain ⟨lost, seq⟩ := Prod.mk.inj lost_seq
    have keys := map_key_of_unmarked log
    exact ⟨keys ▸ logPlace_perm _ _, lost, seq, fun first => keys.trans (logPlace_last fun x hx => first x (mem_of_mem_keptLog hx))⟩
  case dropped =>
    have place := logRaise_no_room (e := s.entryOf src info pending) fresh unplaced
    obtain ⟨log, lost_seq⟩ := Prod.mk.inj (raised.raise_logView place)
    obtain ⟨lost, -⟩ := Prod.mk.inj lost_seq
    have overflows (h : sev ≠ 0) : t = u.logOvf := raised.ends.trans (by rw [place]; exact if_pos (bne_iff_ne.mpr h))
    refine ⟨map_key_of_unmarked log, lost, fun h => overflows h ▸ logOvf_latch u, fun h mild safe req => ?_⟩
    rw [overflows h]
    exact logOvf_safeSrc ((raised.safe mild).trans (Prod.ext safe req))
  case pulse =>
    have line_pulsed := raised.pulses ev line
    cases ovf : (logRaise s.flt.log (s.entryOf src info pending)).2.2.2 with
    | false =>
      have ends : t = u := raised.ends.trans (by simp [ovf])
      exact ⟨[], ends ▸ line_pulsed, fun _ => rfl⟩
    | true =>
      have ends : t = u.logOvf := raised.ends.trans (by simp [ovf])
      obtain ⟨more, after⟩ := logOvf_pulses u
      refine ⟨more, ?_, fun placed => absurd (logRaise_placed placed) (ne_false_of_eq_true ovf)⟩
      rw [ends, after, line_pulsed, List.append_assoc, List.singleton_append]

end Sys2Proof.Machine
end
